-- ==== Sys2Proof/Word.lean ====
section
/-!
DEFINITION. Sys2Proof/Word.lean: the word types of the EZ9480. A set-up register is an aligned 32-bit word (00 R6, R9);
host buffers and MRAM are bytes. Quantities the module computes with (currents, voltages, times, indices) are `Nat`, `Int` or
`Rat`, never bit vectors.
-/

namespace Sys2Proof

/-- A set-up register, doorbell or descriptor word (00 R6, R9). -/
abbrev Word := BitVec 32

/-- A byte of a host buffer or of MRAM (00 R6). -/
abbrev Byte := BitVec 8

end Sys2Proof
end

