-- ==== Sys2Proof/Syntax.lean ====
section
/-!
DEFINITION. Sys2Proof/Syntax.lean: the commands of the block, one constructor for each row of spec/opcode_table.json: the
submission descriptors that the ring engine fetches (04 R91), the host's register writes, and the events that reach the module from its pins,
its clocks and its loads. An event stands for the instant at which the spec says it happens (log entry 6).
-/

namespace Sys2Proof

/-- The header of a submission descriptor (04 Table 4.13): the function and SQ from which it was fetched, its TAG, its flags, the world
in which it acts, its AT_TIME. -/
structure Hdr where
  pf : Fin 2 := 0
  sq : Fin 16 := 0
  tag : Fin 65536 := 0
  /-- The world in which it acts: PF1 with WORLD = 1 (04 R90). -/
  world : Bool := false
  fence : Bool := false
  /-- NO_COMPLETION_ON_SUCCESS. -/
  ncos : Bool := false
  /-- INTRUSIVE_OK. -/
  intr : Bool := false
  /-- AT_TIME. -/
  at_ : Option Nat := none
  deriving DecidableEq, Repr, Inhabited

/-- The descriptor acts in the secure world (04 R90). -/
def Hdr.secure (h : Hdr) : Bool := h.pf == 1 && h.world

/-- The function as whose descriptor it acts (04 R90): one of PF1 with WORLD = 0 acts as one of PF0. -/
def Hdr.fn (h : Hdr) : Nat := if h.secure then 1 else 0

/-- What the host writes of a function's configuration space beside Bus Master Enable, the MSI-X control bits and the D-state (04 Table 4.1,
R390), at the base specification's reset values (log entry 54). -/
structure CfgSpace where
  /-- Memory Space Enable of the Command register. -/
  mem : Bool := false
  /-- BAR0, bits 63 to 20 of its address. -/
  bar0 : Fin 17592186044416 := 0
  /-- Max payload size: 0 128 bytes, 1 256 bytes. -/
  mps : Fin 2 := 0
  /-- Max read request size: 0 128, 1 256, 2 512 bytes. -/
  mrrs : Fin 3 := 2
  /-- ASPM L1 enabled. -/
  aspmL1 : Bool := false
  /-- L1.1 (bit 0) and L1.2 (bit 1) enabled. -/
  l1sub : Fin 4 := 0
  /-- AER uncorrectable error mask. -/
  aerMask : Fin 4294967296 := 4194304
  deriving DecidableEq, Repr, Inhabited

/-- A frame of a field bus, as a frame record holds it (12 Table 12.6): ID, format flags, XL fields and data; for Ethernet ID 0 and the
bytes from the destination address to the last payload byte. -/
structure NetFrm where
  id : Fin 536870912 := 0
  ide : Bool := false
  rtr : Bool := false
  fdf : Bool := false
  brs : Bool := false
  esi : Bool := false
  xlf : Bool := false
  lcc : Bool := false
  sdt : Fin 256 := 0
  vcid : Fin 256 := 0
  af : Fin 4294967296 := 0
  data : List Nat := []
  deriving DecidableEq, Repr, Inhabited

/-- A step of VALVE_SEQ as its buffer holds it (07 Table 7.8). -/
structure SeqStep where
  /-- CHANNEL. -/
  ch : Fin 16
  /-- RELEASE. -/
  rel : Bool
  /-- HOLD_MS. -/
  hold : Fin 65536
  /-- DELAY_US. -/
  delay : Fin 16777216
  /-- A reserved bit is set. -/
  rsv : Bool
  deriving DecidableEq, Repr

/-- A feed's voltage in mV, and for how long in ms the feed has met the level of the rule that reads it, without interruption (02 R32, R51). -/
structure FeedHeld where
  mv : Nat
  ms : Nat
  deriving DecidableEq, Repr, Inhabited

/-- A yard and the voltage of its feed in mV. -/
structure YardFeed where
  y : Fin 4
  mv : Nat
  deriving DecidableEq, Repr, Inhabited

/-- A frame received, and the MTIME of its start of frame (12 R278). -/
structure RxFrm where
  frm : NetFrm
  sof : Nat
  deriving DecidableEq, Repr, Inhabited

/-- The MSI-X control bits of a function (04 Table 4.1). -/
structure MsixCtl where
  /-- MSI-X Enable. -/
  en : Bool
  /-- Function Mask. -/
  mask : Bool
  deriving DecidableEq, Repr, Inhabited

/-- What the sense samples of one millisecond give for a unit (02 R54): its event source, the mean of its current in mA and the mean of the
square of its current in mA². -/
structure Load where
  src : Fin 125 := 0
  ma : Nat := 0
  ma2 : Nat := 0
  deriving DecidableEq, Repr, Inhabited

/-- What host memory holds at the head of an SQ, as the ring engine reads it (04 R87, R89): the function and queue, the eight words of the
descriptor, and the bytes of its host buffer where it names one. -/
structure SqHead where
  pf : Fin 2 := 0
  sq : Fin 16 := 0
  words : List Nat := []
  buf : List Nat := []
  deriving DecidableEq, Repr, Inhabited

/-- The commands. A descriptor carries its header and its fields, and the bytes of its host buffer where it names one; an event carries what
the module measures of it. The commands without operands stand last. -/
inductive Instr
  /-- NOP (04 R91): System descriptor that does nothing and completes OK with result 0. -/
  | nop (h : Hdr)
  /-- FENCE (04 R95): Descriptor dispatched only after every earlier descriptor of its SQ has completed; it then acts as NOP. -/
  | fence (h : Hdr)
  /-- HEARTBEAT (04 R102): Descriptor that restarts the function's heartbeat supervision and returns the host-loss episode count. -/
  | heartbeat (h : Hdr)
  /-- TIME_READ (04 R91): Descriptor that returns MTIME sampled at one instant across the completion's MTIME and RESULT fields. -/
  | timeRead (h : Hdr)
  /-- POWER_STATE (02 R41): Descriptor that requests RUN, STANDBY, PARK or WATCH; it is refused BUSY under R42 and runs the sleep commit for
  PARK or WATCH. -/
  | powerState (h : Hdr) (target : Fin 8)
  /-- SQ_TAIL (04 R86): Host write of an SQ tail doorbell; an invalid value is refused with DB_ERR and DB_INVALID, a valid one makes new
  descriptors fetchable. `via` is the function through which the write arrives, `pf` the page, `v` the word written. -/
  | sqTail (via pf : Fin 2) (n : Fin 16) (v : Fin 4294967296)
  /-- CQ_HEAD (04 R93): Host write of a CQ head doorbell that releases the completion slots passed, or is refused under R86. As SQ_TAIL. -/
  | cqHead (via pf : Fin 2) (n : Fin 8) (v : Fin 4294967296)
  /-- EQ_HEAD (04 R99): Host write of the EQ head doorbell that frees record slots and lets COLLAPSED records be written. As SQ_TAIL. -/
  | eqHead (via pf : Fin 2) (v : Fin 4294967296)
  /-- HEARTBEAT_DOORBELL (04 R103): Host write to the HEARTBEAT doorbell that restarts supervision and ends a declared host loss, resuming
  fetching. As SQ_TAIL. -/
  | heartbeatDoorbell (via pf : Fin 2) (v : Fin 4294967296)
  /-- RING_ENABLE (04 R82): Write of RING_CTRL.EN that starts or stops descriptor fetching for the function. `v` is the word written to
  RING_CTRL. -/
  | ringEnable (via pf : Fin 2) (v : Fin 4294967296)
  /-- QUEUE_ENABLE (04 R83): Setting EN of an SQ, CQ or EQ, refused with CFG_ERR on bad size or window, otherwise resetting its indices and
  phase. `kind` is 0 SQ, 1 CQ, 2 EQ; `v` is the word written to its configuration register, with EN set. -/
  | queueEnable (via pf : Fin 2) (kind : Fin 3) (n : Fin 16) (v : Fin 4294967296)
  /-- QUEUE_DISABLE (04 R83): Clearing EN of an SQ stops fetching at once, and clearing EN of a CQ is refused while it is named or reserved. As
  QUEUE_ENABLE, with EN cleared. -/
  | queueDisable (via pf : Fin 2) (kind : Fin 3) (n : Fin 16) (v : Fin 4294967296)
  /-- DESCRIPTOR_FETCH (04 R92): The ring engine arbitrates among eligible SQs, reserves a CQ slot, fetches a descriptor and checks and
  dispatches it. `heads` is what host memory holds at the queue heads that the ring engine reads, one entry for each descriptor. -/
  | descriptorFetch (heads : List SqHead)
  /-- CQ_COAL_EXPIRY (04 R101): The COAL_US window of a CQ closes and its vector is raised if entries were posted meanwhile. -/
  | cqCoalExpiry (pf : Fin 2) (n : Fin 8)
  /-- HOST_LOSS (04 R103): No heartbeat for HOST_TMO: fetching stops, source 237 is raised, AT_TIME descriptors are aborted and host-loss
  policies apply. `pf` is the function whose heartbeats stopped. -/
  | hostLoss (pf : Fin 2)
  /-- REGISTER_WRITE (16 R356): A write to a set-up register without a row of its own takes effect under its fields' access codes and travels to
  the halter if yard-resident. `via` is the function, `off` the offset in BAR0, `v` the word, `be` the byte enables. -/
  | registerWrite (via : Fin 2) (off : Fin 1048576) (v : Fin 4294967296) (be : Fin 16)
  /-- CTL_RESET_CMD (03 R72): RST_CMD with KEY 0xC7A5 and ACTION 1 resets CTL, from either function. -/
  | ctlResetCmd (pf : Fin 2)
  /-- YARD_RESET (03 R72): RST_CMD with ACTION 2 from PF1 takes the selected yards' outputs to their disable state, clears their halters and
  adopts them as CLEARED. `via` is the function, `yards` one bit for each yard. -/
  | yardReset (via : Fin 2) (yards : Fin 16)
  /-- KEY_PROGRAM (14 R324): UPD_KEYCTL ACTION PROGRAM writes a key hash from UPD_KEYBUF into a blank slot, or sets KEY_ERR. `pf` is the
  function of the write, `key` the field KEY of UPD_KEYCTL, `debug` its DEBUG. -/
  | keyProgram (pf : Fin 2) (slot : Fin 4) (key : Fin 65536) (debug : Bool)
  /-- KEY_REVOKE (14 R324): UPD_KEYCTL ACTION REVOKE revokes a key slot that does not sign the running image, or sets KEY_ERR. As KEY_PROGRAM. -/
  | keyRevoke (pf : Fin 2) (slot : Fin 4) (key : Fin 65536)
  /-- AON_POWER_ON (03 R67): VBAT_AON rises past 3.5 V: WNA comes out of power-on, its crystals start and MTIME starts at 0. `mv` is the voltage
  of VBAT_AON in mV. -/
  | aonPowerOn (mv : Nat)
  /-- HALTER_POWER_ON (02 R32): A yard feed rises past its release threshold: the halter sets CLEARED, holds outputs off with reset
  configuration and takes its first band. `y` is the yard, `mv` the voltage of its feed in mV. -/
  | halterPowerOn (y : Fin 4) (mv : Nat)
  /-- FEED_LOSS (02 R31): A yard feed stays below its loss threshold for more than 1 ms, giving a battery-loss power-on reset of that yard's
  halter. `f` is the yard with the voltage of its feed. -/
  | feedLoss (f : YardFeed)
  /-- FEED_BAND_CHANGE (02 R31): A feed's measured voltage crosses into another band of Table 2.2 or 2.3, raising BAND_CHANGE and applying that
  band's behaviour. `f` is the feed (0 A, 1 B, 2 D, 3 48, 4 AON), `mv` its measured voltage in mV. -/
  | feedBandChange (f : Fin 5) (mv : Nat)
  /-- LOCKOUT_DWELL_END (02 R32): A feed has stayed above 3.5 V, or VBAT48 above 26 V, for its dwell time, so it leaves lock-out or the off
  band and its outputs restore. `f` is the feed as in FEED_BAND_CHANGE, `v` its voltage and how long it has stayed above that level. -/
  | lockoutDwellEnd (f : Fin 5) (v : FeedHeld)
  /-- SHED (02 R50): A feed has stayed below THRc' for the shed filter, so class c outputs on it take their shed action. `y` is the yard, `k`
  the class 1 to 3, `mv` the voltage of its feed in mV. -/
  | shed (y : Fin 4) (k : Fin 4) (mv : Nat)
  /-- RESTORE (02 R51): A feed has stayed at or above THRc' + HYS for DWELL, so class c is restored. `y` and `k` as in SHED; `v` is
  the feed's voltage and how long it has stayed there. -/
  | restore (y : Fin 4) (k : Fin 4) (v : FeedHeld)
  /-- RESTORE_SLOT (02 R51): The next staggered restore slot of a yard comes due, 20 ms after the previous one, and the next output in order
  turns on. -/
  | restoreSlot (y : Fin 4)
  /-- BOOST_ENTER (02 R35): The pre-regulator input falls below 6.5 V and it enters boost mode, raising source 229. `mv` is the input voltage of
  the pre-regulator in mV. -/
  | boostEnter (mv : Nat)
  /-- BOOST_EXIT (02 R35): The pre-regulator input rises above 7.0 V and it leaves boost mode, raising source 229. As BOOST_ENTER. -/
  | boostExit (mv : Nat)
  /-- CTL_TEMP_MEASURE (03 R66): The 1 ms CTL junction measurement raises CTL_HOT or CTL_COOL and takes a THERMAL reset after two readings at or
  above 145 °C. `t` is the junction temperature of CTL in m°C. -/
  | ctlTempMeasure (t : Int)
  /-- WNA_THERMAL_CHECK (03 R66): WNA's 1 ms reading of the CTL sensor during a thermal hold releases CTL once a reading is below 125 °C. As
  CTL_TEMP_MEASURE. -/
  | wnaThermalCheck (t : Int)
  /-- RESET_NOTICE (03 R64): A halter receives RESET_NOTICE and declares CTL absent at once. `y` is the yard, or 4 for WNA. -/
  | resetNotice (y : Fin 5)
  /-- BOOT_LOADER (14 R325): After BIST the boot ROM verifies the loader, which completes pending swaps, verifies the execution-slot image and
  starts it or enters recovery. `loader` says that the loader itself verifies; `exec` and `stage` are the reasons of Table 14.5 for which an
  image does not verify, 0 where it does. -/
  | bootLoader (loader : Bool) (exec stage : Fin 8)
  /-- ADOPTION (03 R68): CTL reads back a yard's halter, rebuilds its mirror, compares signatures and records the result in ADOPT_STATUS.
  `corrupt` lists the outputs, by event source, whose readback does not reproduce the signature stored. -/
  | adoption (y : Fin 4) (corrupt : List (Fin 125))
  /-- ADOPTION_END (03 R70): Reapplication of a yard's configuration completes under R70 and cause ADOPTED is raised. -/
  | adoptionEnd (y : Fin 4)
  /-- DEBUG_HALT (03 R77): An authorised debugger halts the cores, and the blocks behave as Table 3.10 states. `secure`: through secure debug. -/
  | debugHalt (secure : Bool)
  /-- SECURE_DEBUG_UNLOCK (14 R323): A signed response to the unlock nonce is verified and sets SEC_UNLOCKED, or it is refused for 10 s. The
  signature (R, S) of the token. -/
  | secureDebugUnlock (sigR sigS : Nat)
  /-- GUYLINE_COMMAND_RX (01 R17): A yard receives a command frame without error, acknowledges it and executes it once in sequence-number order.
  `seq` is the sequence number of the frame. -/
  | guylineCommandRx (y : Fin 4) (seq : Nat)
  /-- GUYLINE_ACK_RX (01 R17): CTL receives an acknowledgement, stops retransmitting that command and lets its descriptor complete. As
  GUYLINE_COMMAND_RX. -/
  | guylineAckRx (y : Fin 4) (seq : Nat)
  /-- GUYLINE_RETRANSMIT (01 R18): A command is unacknowledged 250 ns after its last transmission and is sent again. As GUYLINE_COMMAND_RX. -/
  | guylineRetransmit (y : Fin 4) (seq : Nat)
  /-- MIRROR_INTERVAL (01 R19): Every 10 µs the yard sends a latest-value status mirror of all its outputs. -/
  | mirrorInterval (y : Fin 4)
  /-- STATUS_MIRROR_RX (01 R19): CTL receives a valid status mirror, replaces its copy and posts the changes it carries. -/
  | statusMirrorRx (y : Fin 4)
  /-- KEEP_ALIVE_TX (01 R16): The 10 µs idle interval to an adopted yard expires and CTL sends a keep-alive frame. `y` is the yard, or 4 for
  WNA. -/
  | keepAliveTx (y : Fin 5)
  /-- KEEP_ALIVE_RX (01 R22): A halter receives a keep-alive, which restarts its watchdog and ends a declared CTL absence. `y` is the yard, or 4
  for WNA. -/
  | keepAliveRx (y : Fin 5)
  /-- HALTER_WATCHDOG (01 R22): No valid frame reaches a halter for 2 ms, so it declares CTL absent and applies its host-loss policies. `y` is
  the yard, or 4 for WNA. -/
  | halterWatchdog (y : Fin 5)
  /-- UNREACHABLE (01 R20): No valid mirror for 100 µs: CTL declares the yard unreachable, raises UNREACHABLE and stops sending to it. -/
  | unreachable (y : Fin 4)
  /-- PARK_COMMIT (02 R43): A halter receives PARK_COMMIT, disarms its watchdog and keeps every output in its present state. -/
  | parkCommit (y : Fin 4)
  /-- PARK_ABORT (12 R285): A halter receives PARK_ABORT and rearms its watchdog. -/
  | parkAbort (y : Fin 4)
  /-- SAFE_DELAY_EXPIRY (01 R22): An output's SAFE_DELAY count ends and the output takes its safe state. `src` is the output by event source. -/
  | safeDelayExpiry (src : Fin 125)
  /-- WAKE (02 R44): An armed wake source fires in PARK or WATCH: WNA records it, asserts WAKE# and powers CTL. `src` is the event source, `p`
  the payload of its event. -/
  | wake (src : Fin 256) (p : Fin 281474976710656)
  /-- LATE_WAKE (12 R285): A wake latched during POWER_STATE PARK or WATCH aborts the sleep if it is still running, or starts the return to
  STANDBY once PARK is reached. As WAKE. -/
  | lateWake (src : Fin 256) (p : Fin 281474976710656)
  /-- BUDGET_BLOCK (02 R54): Each 1 ms the budget manager refreshes I_feed and P_module and tests the OVER_LIMIT and BELOW_LIMIT conditions.
  The mean input currents of the pre-regulator's branches from VBAT_A and VBAT_B in mA, its mean input power in mW, and the mean currents of
  the units sensed; `hs` the mean square current of each valve group's high side in mA². -/
  | budgetBlock (inA inB preMw : Nat) (loads : List Load) (hs : List (Fin 4 × Nat))
  /-- STALL_SET (05 R135): Descriptor that turns a stall on or off statically under the protection state machine. -/
  | stallSet (h : Hdr) (u : Fin 64) (on slewFirst : Bool)
  /-- STALL_PWM (05 R130): Descriptor that sets a stall's PWM duty, applied from the first pulse after the next row wrap. -/
  | stallPwm (h : Hdr) (u : Fin 64) (duty : Fin 131072)
  /-- STALL_PROFILE_SELECT (05 R117): STALL_PROFILE SELECT sets the stall's profile slot, deferred while the stall is on. -/
  | stallProfileSelect (h : Hdr) (u : Fin 64) (slot : Fin 16)
  /-- STALL_PROFILE_LOAD_USER (05 R136): STALL_PROFILE LOAD_USER reads a curve and writes it into a user slot in every halter. `user` names the
  user slot, `addr` the host buffer, `pts` its points (T_US, MULT). -/
  | stallProfileLoadUser (h : Hdr) (u : Fin 64) (user : Bool) (addr : Nat) (pts : List (Nat × Nat))
  /-- STALL_CLEAR (06 R145): Descriptor that zeroes ATT and TH, leaves LATCHED and optionally clears diagnosis flags and cross table entries. -/
  | stallClear (h : Hdr) (u : Fin 64) (diag cross : Bool)
  /-- STALL_DIAG (06 R159): Descriptor that returns a stall's state and an optional record, optionally after one off-state measurement. `addr`
  is the host address of the record. -/
  | stallDiag (h : Hdr) (u : Fin 64) (offNow : Bool) (addr : Nat)
  /-- STALL_CROSSCHECK (06 R152): Descriptor that pulses each stall of a mask in turn to find stalls wired together, waiting for a running
  cross-check. `mask` has a bit for each stall, `addr` is the host address of the report. -/
  | stallCrosscheck (h : Hdr) (u : Fin 64) (mask addr : Nat)
  /-- CROSS_PULSE (06 R152): The next cross-check pulse comes due 2 ms after the previous one and its partners are sampled. `hits` are the
  stalls whose output rose with the pulse; `tripped`: the stall tested tripped. -/
  | crossPulse (hits : List (Fin 64)) (tripped : Bool)
  /-- STALL_SENSE_SAMPLE (05 R133): The 10 µs sense sample of each stall measures current, voltage and temperature and recomputes L(t). Current
  in mA, output voltage in mV, junction temperature and the reference temperature of the row in m°C. -/
  | stallSenseSample (u : Fin 64) (ma mv tj ref : Int)
  /-- TRIP_OC (06 R142): Current stays above L(t) for the OC filter time and the stall trips. `ma` is the current in mA. -/
  | tripOc (u : Fin 64) (ma : Nat)
  /-- TRIP_SC (06 R142): Current exceeds the short-circuit threshold after blanking and the stall turns off at 10 V/µs. Current in mA and output
  voltage in mV. -/
  | tripSc (u : Fin 64) (ma mv : Nat)
  /-- TRIP_THERMAL (06 R142): Two consecutive samples reach the static or dynamic thermal threshold and the stall trips. -/
  | tripThermal (u : Fin 64)
  /-- SHORT_VBAT_ON (06 R142): The output stays above feed + 0.5 V for 20 µs while on, giving a reverse trip. -/
  | shortVbatOn (u : Fin 64)
  /-- RAMP_TIMEOUT (05 R119): A fall-back ramp has not ended within its time limit and ends as a trip. -/
  | rampTimeout (u : Fin 64)
  /-- WIRE_MODEL_UPDATE (05 R121): The 1 ms update of the wire thermal model, which may trip the stall or re-arm it. `i2` is the mean of the
  squared current in mA². -/
  | wireModelUpdate (u : Fin 64) (i2 : Nat)
  /-- RAMP_END (05 R119): The fall-back ramp reaches feed − 0.5 V and the stall enters ON and enhances fully. -/
  | rampEnd (u : Fin 64)
  /-- INRUSH_END (05 R114): The inrush window of the profile curve ends and the stall enters ON with L(t) = ILIM_e. -/
  | inrushEnd (u : Fin 64)
  /-- TURN_ON_COMPLETE (05 R135): The output first reaches 90 % of the feed and the pending turn-on completes. `u` is a stall, or 64 + n for
  signal output n; `ma` is the current in mA. -/
  | turnOnComplete (u : Fin 76) (ma : Nat)
  /-- TURN_OFF_COMPLETE (05 R135): The output falls below 10 % of the feed and the pending turn-off completes. `u` as in TURN_ON_COMPLETE;
  `clampUj` is the clamp energy in µJ. -/
  | turnOffComplete (u : Fin 76) (clampUj : Nat)
  /-- RESTART (06 R144): A stall in WAIT finds all restart conditions holding and starts its next attempt. -/
  | restart (u : Fin 64)
  /-- CLEAN_RUN (06 R146): A stall has stayed in ON for CLEAN seconds without a trip and its ATT and TH are zeroed. -/
  | cleanRun (u : Fin 64)
  /-- ROW_PERIOD_WRAP (05 R129): A row period counter wraps, pending duty and phase changes apply and a new period starts. -/
  | rowPeriodWrap (w : Fin 8)
  /-- PWM_PULSE (05 R129): A stall's PWM pulse starts at its phase or ends after its duty within the row period. `start`: the pulse starts; else
  it ends. -/
  | pwmPulse (u : Fin 64) (start : Bool)
  /-- OFFSTATE_DIAG (06 R149): The 20 ms off-state measurement of a stall applies pull-up and pull-down and reports a verdict after three agree.
  The samples in mV at the end of the pull-up and of the pull-down. -/
  | offstateDiag (u : Fin 64) (up dn : Int)
  /-- ON_LOW_CURRENT (06 R150): An on stall's current stays below OL_ON for 10 ms of assessed time, or returns above it for 10 ms. `low`: below
  OL_ON; else at or above it. -/
  | onLowCurrent (u : Fin 64) (low : Bool)
  /-- VALVE_FIRE (07 R165): Descriptor that fires a valve channel through the peak, transition, hold and end phases. HOLD_10, IPK_OVR and
  IHOLD_OVR of the descriptor. -/
  | valveFire (h : Hdr) (u : Fin 16) (hold : Fin 65536) (ipk : Fin 2048) (ihold : Fin 1024)
  /-- VALVE_RELEASE (07 R178): VALVE_FIRE with RELEASE ends the channel's fire now through END. As VALVE_FIRE. -/
  | valveRelease (h : Hdr) (u : Fin 16) (hold : Fin 65536) (ipk : Fin 2048) (ihold : Fin 1024)
  /-- VALVE_SEQ (07 R179): Descriptor that fires a list of timed steps held in CTL. `trig` is the trigger timer, `addr` the host buffer, `steps`
  its steps. -/
  | valveSeq (h : Hdr) (u : Fin 16) (trig : Option (Fin 32)) (addr : Nat) (steps : List SeqStep)
  /-- VALVE_SEQ_STEP (07 R179): A sequence step's instant arrives and the step is fired after its checks. `q` counts the running sequences,
  oldest first; `k` is the step. -/
  | valveSeqStep (q : Nat) (k : Fin 64)
  /-- VALVE_CLEAR (07 R176): Descriptor that clears a channel latch and optionally the group latch and diagnostic flags. -/
  | valveClear (h : Hdr) (u : Fin 16) (diag group : Bool)
  /-- PEAK_DEFER_TIMEOUT (07 R171): A deferred request has waited PEAK_WAIT, leaves the queue and its fire completes. -/
  | peakDeferTimeout (u : Fin 16)
  /-- PEAK_REACHED (07 R165): The coil current reaches I_PEAK and the T_PEAK dwell starts. -/
  | peakReached (u : Fin 16)
  /-- PEAK_END (07 R165): T_PEAK ends and the channel leaves PEAK for TRANS. -/
  | peakEnd (u : Fin 16)
  /-- PEAK_TIMEOUT (07 R168): PEAK_WIN passes without I_PEAK, so the channel goes to HOLD or END. -/
  | peakTimeout (u : Fin 16)
  /-- HOLD_REACHED (07 R165): The current falls to I_HOLD in TRANS and the channel enters HOLD or END. -/
  | holdReached (u : Fin 16)
  /-- HOLD_END (07 R165): HOLD_MS ends and the channel enters END. -/
  | holdEnd (u : Fin 16)
  /-- VALVE_END_DONE (07 R165): In END the current falls below 50 mA or 10 ms pass, and the channel becomes inactive. `clampUj` is the clamp
  energy in µJ. -/
  | valveEndDone (u : Fin 16) (clampUj : Nat)
  /-- DUTY_CUT (07 R174): A channel's used time reaches its duty cap while active, sending it to END. -/
  | dutyCut (u : Fin 16)
  /-- DUTY_BIN_ADVANCE (07 R173): The duty window moves on by one bin of WIN ÷ 100. -/
  | dutyBinAdvance (u : Fin 16)
  /-- VALVE_FAULT (07 R175): An on-state channel fault latches the channel and ends its fire. `kind` is 0 OPEN_LOAD_ON, 1
  SHORT_VBAT_ON, 2 THERMAL. -/
  | valveFault (u : Fin 16) (kind : Fin 3)
  /-- GROUP_FAULT (07 R175): A group excess or over-current latches the group and turns its high side off. `excess`: the group current exceeds
  the channels'; else an over-current. -/
  | groupFault (g : Fin 4) (excess : Bool)
  /-- VALVE_OFFSTATE_DIAG (07 R175): The 20 ms off-state drain measurement of a channel reports a verdict after three agree. `mv` is the drain
  voltage in mV. -/
  | valveOffstateDiag (u : Fin 16) (mv : Nat)
  /-- MOVE (08 R202): Descriptor that starts or re-plans a position, velocity or duty move of a Bridle loop. -/
  | move (h : Hdr) (u : Fin 10) (mode endAct : Fin 4) (ref : Bool) (target : Int) (vmax : Fin 16777216) (tol settle : Fin 65536)
  /-- HOLD (08 R194): HOLD with RESUME 0 freezes a moving or regulating loop at its last duty. -/
  | hold (h : Hdr) (u : Fin 10)
  /-- HOLD_RESUME (08 R194): HOLD with RESUME 1 returns a held loop bumplessly to its earlier state. -/
  | holdResume (h : Hdr) (u : Fin 10)
  /-- STOP (08 R202): Descriptor that ramps down, brakes or coasts a loop and completes when it is idle. -/
  | stop (h : Hdr) (u : Fin 10) (mode : Fin 4)
  /-- STOP_CLEAR (08 R184): STOP with CLEAR 1 clears the latch of a loop in FAULT and returns it to IDLE. -/
  | stopClear (h : Hdr) (u : Fin 10) (mode : Fin 4)
  /-- COEF_WRITE (08 R193): Descriptor that queues coefficient pairs, applied one per sample or all at once when the loop is idle. `addr` is the
  host buffer, `pairs` its pairs of index and value. -/
  | coefWrite (h : Hdr) (u : Fin 10) (addr : Nat) (pairs : List (Fin 8 × Fin 4294967296))
  /-- LEARN_RUN (08 R200): LEARN RUN drives to both end stops and records the anti-pinch reference table. `addr` is the host buffer. -/
  | learnRun (h : Hdr) (u : Fin 10) (addr : Nat)
  /-- LEARN_LOAD (08 R200): LEARN LOAD loads an anti-pinch table from a host buffer. `addr` is the host buffer, `ref` and `vlearn` the table in
  it. -/
  | learnLoad (h : Hdr) (u : Fin 10) (addr : Nat) (ref vlearn : List Nat)
  /-- LEARN_READ (08 R200): LEARN READ writes the anti-pinch table to a host buffer. As LEARN_RUN. -/
  | learnRead (h : Hdr) (u : Fin 10) (addr : Nat)
  /-- LOOP_COMPUTE (08 R189): The loop engine takes a queued sample, computes the profile, control law, plausibility and telemetry, and sends
  the duty. Bridge current in mA, terminal and supply voltage in mV, `ilim`: the limit acted in the last PWM period; `edge`: counts of the
  position input since the last sample. -/
  | loopCompute (u : Fin 10) (i vt vb : Int) (ilim : Bool) (edge : Int)
  /-- DUTY_APPLY (08 R187): The duty priority frame arrives in YD and the bridge applies it to the running PWM period. -/
  | dutyApply (u : Fin 10)
  /-- MISSED_SAMPLE (08 R186): No sample is taken within 1.5 × TS_NOM of the previous one, and a missed sample is counted. `dropped`: the frame
  of the sample needed more than four transmissions. -/
  | missedSample (u : Fin 10) (dropped : Bool)
  /-- BRAKE_END (08 R185): A 200 ms brake ends and the bridge coasts with the loop IDLE. -/
  | brakeEnd (u : Fin 10)
  /-- PINCH_REVERSE (08 R199): The 20 ms pinch brake ends and the loop moves PINCH_REV counts in the opening direction. -/
  | pinchReverse (u : Fin 10)
  /-- BRIDGE_TRIP (08 R184): Bridge desaturation, over-current, thermal or gate undervoltage turns all switches off and latches the loop into
  FAULT. `kind` is 0 desaturation, 1 over-current, 2 thermal, 3 gate undervoltage. -/
  | bridgeTrip (u : Fin 10) (kind : Fin 4)
  /-- CURRENT_LIMIT (08 R203): ILIM_ACTIVE has been set continuously for 10 ms and CURRENT_LIMIT is raised. -/
  | currentLimit (u : Fin 10)
  /-- END_STOP (08 R198): High current with less than 2 counts of motion for BLOCK_MS brakes the loop and completes its MOVE. `up`: the motion
  was positive. -/
  | endStop (u : Fin 10) (up : Bool)
  /-- RIPPLE (08 R197): A commutation ripple within the expected window counts one position step. -/
  | ripple (u : Fin 10)
  /-- RIPPLE_FILL (08 R197): No ripple arrives within 1.5 expected periods and one count is filled. -/
  | rippleFill (u : Fin 10)
  /-- WINDING_UPDATE (08 R195): The 1 ms update of the motor winding temperature model. `i` is the current in mA, `emf` the back-EMF in mV. -/
  | windingUpdate (u : Fin 10) (i emf : Int)
  /-- SINK_SET (09 R213): Descriptor that sets a sink's current and dimming, or clears OPEN_STRING or BOOST_SHORT. -/
  | sinkSet (h : Hdr) (u : Fin 32) (iSet : Fin 1024) (dim : Fin 65536) (clear : Bool)
  /-- SINK_CALIBRATE (09 R217): SINK_SET with CAL 1 runs the two-pulse forward-voltage calibration of LS5 or LS11. -/
  | sinkCalibrate (h : Hdr) (u : Fin 32) (iSet : Fin 1024) (dim : Fin 65536) (clear : Bool)
  /-- LAMP_FRAME (09 R227): Descriptor that loads a pixel frame into LOAD and sends it on the port. `addr` is the host buffer, `data` its bytes. -/
  | lampFrame (h : Hdr) (u : Fin 8) (start : Fin 1024) (addr : Nat) (data : List Nat)
  /-- FRAME_SENT (09 R227): The last cell of a frame leaves the port and LAMP_FRAME completes. -/
  | frameSent (u : Fin 8)
  /-- LAMP_LATCH (09 R229): Descriptor that commits the named ports, at an MTIME with AT_TIME. `ports` has a bit for each further port. -/
  | lampLatch (h : Hdr) (u : Fin 8) (ports : Fin 256)
  /-- LATCH_START (09 R223): The port starts its LATCH sequence at the instant computed from the target and chain length. -/
  | latchStart (u : Fin 8)
  /-- STATUS_FRAME_RX (09 R224): The port receives the return status frame and checks it against the node table.
  `words`: each word received with the CRC-8 that followed it; `whole`: the frame ended where a frame may end. -/
  | statusFrameRx (u : Fin 8) (words : List (Nat × Nat)) (whole : Bool)
  /-- STATUS_FRAME_TIMEOUT (09 R224): No status frame within 30 µs, or none complete within 250 µs, raises CHAIN_BREAK or RET_ERR. `began`: some
  words came before the return ended. -/
  | statusFrameTimeout (u : Fin 8) (began : Bool)
  /-- MATRIX_FRAME (09 R219): Descriptor that loads a matrix frame, shown from the next ML0 slot. As LAMP_FRAME. -/
  | matrixFrame (h : Hdr) (clear : Bool) (addr : Nat) (data : List Nat)
  /-- LAMP_ENUM_FULL (09 R225): LAMP_ENUM FULL resets and addresses every node and builds the node table. `addr` is the host buffer. -/
  | lampEnumFull (h : Hdr) (u : Fin 8) (addr : Nat)
  /-- LAMP_ENUM_REDISCOVER (09 R225): LAMP_ENUM REDISCOVER queries addressed nodes and rebuilds the table without resetting them. As
  LAMP_ENUM_FULL. -/
  | lampEnumRediscover (h : Hdr) (u : Fin 8) (addr : Nat)
  /-- LAMP_ENUM_READ (09 R225): LAMP_ENUM READ writes the node table to a host buffer. As LAMP_ENUM_FULL. -/
  | lampEnumRead (h : Hdr) (u : Fin 8) (addr : Nat)
  /-- ENUM_REPLY (09 R225): A node's reply to ENUM_ASSIGN or QUERY arrives, or its wait times out, and enumeration continues or stops. `reply`
  is the descriptor word and the address of the node that answered. -/
  | enumReply (u : Fin 8) (reply : Option (Nat × Nat))
  /-- PORT_REFRESH (09 R227): The REFRESH interval expires and the port repeats the displayed frame with a LATCH. -/
  | portRefresh (u : Fin 8)
  /-- PORT_FEED_LOST (09 R228): The stall feeding a port leaves ON, so the port stops and invalidates its table. -/
  | portFeedLost (u : Fin 8)
  /-- FEED_RESTORED (09 R228): The feeding stall has been ON again for 10 ms, so the port enumerates and restores or raises ENUM_CHANGED. -/
  | feedRestored (u : Fin 8)
  /-- BOOST_UPDATE (09 R208): The 1 ms update of a boost stage's set-point, share factor and clamp condition. Input and output voltage in mV,
  input current in mA, `inlim`: the input limit acts; `heads`: headroom in mV of the stage's strings. -/
  | boostUpdate (b : Fin 2) (vin vout iin : Int) (inlim : Bool) (heads : List (Fin 12 × Int))
  /-- OPEN_STRING (09 R210): Low headroom with the output at VMAX for 50 µs of on-time declares a sink open-string and turns it off. -/
  | openString (u : Fin 12)
  /-- BOOST_OV (09 R212): The boost output exceeds VMAX + 3 V and switching stops until it falls below VMAX. `vout` is the output voltage in mV. -/
  | boostOv (b : Fin 2) (vout : Int)
  /-- BOOST_SHORT (09 R212): An input over-current or a collapsed output opens the input disconnect and latches the stage. -/
  | boostShort (b : Fin 2)
  /-- SINK_THERMAL (09 R214): A sink junction reaches 170 °C and turns off, or falls below 150 °C and turns on again. `tj` is the temperature in
  m°C. -/
  | sinkThermal (u : Fin 12) (tj : Int)
  /-- LED_SHORT (09 R214): A sink's headroom jumps by more than 2.5 V within 1 ms with a steady output, raising LED_SHORT. -/
  | ledShort (u : Fin 12)
  /-- NTC_READ (09 R216): The 10 ms NTC reading updates temperatures, f_T and NTC_FAULT. `ohm` is the resistance in Ω. -/
  | ntcRead (k : Fin 8) (ohm : Nat)
  /-- VF_SAMPLE (09 R217): The 10 ms forward-voltage sample of LS5 or LS11 updates its junction estimate. `hi`: LS11; else LS5; `vf` is the
  voltage in mV. -/
  | vfSample (hi : Bool) (vf : Int)
  /-- MATRIX_LINE_SLOT (09 R218): A matrix line slot starts, blanking the previous line and swapping in a new frame at ML0. `held` has a bit for
  each column that held ICOL. -/
  | matrixLineSlot (held : Nat)
  /-- SI_SAMPLE (10 R237): Each SAMPLE interval YD samples every input and debounces CHANGE or WIRE_FAULT events. `m` are the 48 measurements. -/
  | siSample (m : List Int)
  /-- WETTING_END (10 R238): The WET_MS wetting current of an input ends. -/
  | wettingEnd (n : Fin 48)
  /-- PARK_POLL (10 R240): In PARK and WATCH, WNA polls the park inputs every PARK_MS and may wake the module. As SI_SAMPLE. -/
  | parkPoll (m : List Int)
  /-- AIN_CONVERSION (10 R244): The 1 ms analog conversion updates AIN values and raises AIN_LIMIT on window crossings. `v` are the values of
  the analog inputs. -/
  | ainConversion (v : List Nat)
  /-- ENC_EDGE (10 R243): A filtered encoder edge is counted and, with CAP_EN, delivered to its timer channel. `rising`: the edge goes up. -/
  | encEdge (k : Fin 12) (rising : Bool)
  /-- SI_SNAPSHOT (10 R242): Descriptor that writes a snapshot record of every input, optionally after a fresh sample. -/
  | siSnapshot (h : Hdr) (u : Fin 128) (fresh : Bool) (addr : Nat)
  /-- DO_SET (10 R249): Descriptor that turns a signal output on or off and optionally clears its latch. -/
  | doSet (h : Hdr) (u : Fin 12) (on clear : Bool)
  /-- DO_TRIP (10 R246): A signal output limits for 500 µs and turns off, incrementing ATT and latching at RETRY_N. -/
  | doTrip (n : Fin 12)
  /-- DO_THERMAL (10 R246): A signal output reaches its thermal trip and turns off, counting ATT. `tj` is the temperature in m°C. -/
  | doThermal (n : Fin 12) (tj : Int)
  /-- DO_RETRY (10 R246): 100 ms after a trip, with Tj below restart, the signal output turns on again. As DO_THERMAL. -/
  | doRetry (n : Fin 12) (tj : Int)
  /-- DO_CLEAN_RUN (10 R246): A signal output has been on for 10 s without a trip and its ATT is zeroed. -/
  | doCleanRun (n : Fin 12)
  /-- DO_OPEN_LOAD (10 R246): A signal output's current stays below or returns above OL_ON for 10 ms. `ma` is the current in mA. -/
  | doOpenLoad (n : Fin 12) (ma : Nat)
  /-- TIMER_ARM_START (11 R267): TIMER_ARM START writes the chosen fields and starts the channel now. The words of the descriptor that its flags
  mark present. -/
  | timerArmStart (h : Hdr) (u : Fin 32) (reload cmp init : Option (Fin 4294967296)) (cfg : Option (Fin 65536))
  /-- TIMER_ARM_ARM (11 R267): TIMER_ARM ARM writes the chosen fields and arms the channel to wait for GSTART. As TIMER_ARM_START. -/
  | timerArmArm (h : Hdr) (u : Fin 32) (reload cmp init : Option (Fin 4294967296)) (cfg : Option (Fin 65536))
  /-- TIMER_ARM_STOP (11 R255): TIMER_ARM STOP holds the channel at its present value. As TIMER_ARM_START. -/
  | timerArmStop (h : Hdr) (u : Fin 32) (reload cmp init : Option (Fin 4294967296)) (cfg : Option (Fin 65536))
  /-- TIMER_ARM_UPDATE (11 R267): TIMER_ARM UPDATE writes reload, compare, init or configuration without restarting the channel. As
  TIMER_ARM_START. -/
  | timerArmUpdate (h : Hdr) (u : Fin 32) (reload cmp init : Option (Fin 4294967296)) (cfg : Option (Fin 65536))
  /-- GSTART (11 R260): Descriptor that schedules a common start of named channels and rows at T0. A bit for each timer and for each row. -/
  | gstart (h : Hdr) (timers : Fin 4294967296) (rows : Fin 256)
  /-- TIMER_ZERO_STEP (11 R253): A channel's count reaches 0, reloading if periodic or stopping if one-shot, and triggers its consumers. -/
  | timerZeroStep (n : Fin 32)
  /-- TIMER_MATCH (11 R256): A channel's count takes its compare value and a match occurs. -/
  | timerMatch (n : Fin 32)
  /-- GPTP_SYNC (11 R263): A gPTP sync is received and the discipline slews, steps or holds over against the offset. `p` is the backbone port,
  `d` the measured offset in ns. -/
  | gptpSync (p : Fin 2) (d : Int)
  /-- CAN_FRAME_RX (12 R278): A CAN frame received without error is routed by the gateway and counts as keep-alive if of a KA class. `f` is
  the frame, `rec` the receive error counter. -/
  | canFrameRx (n : Fin 8) (f : RxFrm) (rec : Fin 256)
  /-- LIN_SLOT (12 R273): A LIN schedule slot comes due and the commander sends its header and handles the response. `heard`: a response came,
  `resp` are its bytes, `good`: its checksum holds; `sof` is the MTIME of the start of frame. -/
  | linSlot (n : Fin 6) (heard : Bool) (resp : List Nat) (good : Bool) (sof : Nat)
  /-- ETH_FRAME_RX (12 R276): A T1S or backbone frame is received and switched or routed by address, VLAN and class. `u` is 0 or 1 for T1S0
  or T1S1, 2 or 3 for BB0 or BB1. -/
  | ethFrameRx (u : Fin 4) (f : RxFrm)
  /-- BUS_OFF (12 R271): A CAN controller enters bus-off and starts recovery if AUTO_RECOVER is set. -/
  | busOff (n : Fin 8)
  /-- BUS_RECOVERED (12 R271): A CAN controller completes bus-off recovery. -/
  | busRecovered (n : Fin 8)
  /-- CAN_WAKE (12 R272): A CAN wake-up pattern, matching wake-up frame or frame error counter overflow wakes a sleeping segment. `kind` is 0
  pattern, 1 frame, 2 partial; `f` is the frame. -/
  | canWake (n : Fin 8) (kind : Fin 3) (frm : NetFrm)
  /-- LIN_WAKE (12 R273): A dominant level of at least 150 µs on a sleeping LIN is a wake. -/
  | linWake (n : Fin 6)
  /-- T1S_WAKE (12 R274): Differential activity above 150 mV for 0.5 ms on a sleeping T1S PHY is a wake. -/
  | t1sWake (n : Fin 2)
  /-- TC10_WAKE (12 R275): A TC10 wake on BB0 or BB1 wakes the segment and is forwarded if WAKE_FWD is set. -/
  | tc10Wake (p : Fin 2)
  /-- TC10_REJECT (12 R275): The link partner rejects the TC10 sleep request and the segment returns to READY. -/
  | tc10Reject (p : Fin 2)
  /-- PLCA_LOST (12 R274): A T1S follower sees no beacon for 4 PLCA cycles while awake. -/
  | plcaLost (n : Fin 2)
  /-- LINK_UP (12 R275): A backbone PHY link comes up. `sqi` is the link quality, `eq` the equaliser step. -/
  | linkUp (p : Fin 2) (sqi : Fin 8) (eq : Fin 256)
  /-- BB_LINK_DOWN (12 R275): A backbone PHY link goes down. -/
  | bbLinkDown (p : Fin 2)
  /-- ADDRESS_AGE_OUT (12 R276): A learned switch address entry reaches AGE_S and is removed. The address and its VLAN. -/
  | addressAgeOut (addr vlan : Nat)
  /-- QBV_GATE_ENTRY (12 R277): A gate control list interval ends and the next entry's gate mask applies, starting a new cycle at the cycle
  boundary. -/
  | qbvGateEntry (p : Fin 2)
  /-- NET_TX (12 R288): Descriptor that queues one frame record for transmission on a segment or backbone port. `wake`, `tmo`, `len` and `addr`
  of the descriptor; `frm` is the frame in the host buffer. -/
  | netTx (h : Hdr) (u : Fin 19) (wake : Bool) (tmo : Fin 65536) (len : Fin 4096) (addr : Nat) (frm : NetFrm)
  /-- NET_TX_DONE (12 R288): A queued frame is sent on the bus, or reaches its TMO or bus-off, and NET_TX completes. `cause` is 0 sent, 1
  failed, 2 arbitration lost to the end; `retries`, `tec` the transmit error counter, `sof` the MTIME of the start of frame. -/
  | netTxDone (u : Fin 18) (cause : Fin 3) (retries tec : Fin 256) (sof : Nat)
  /-- NET_RX_POST (12 R289): Descriptor that posts a receive buffer to a unit. LENGTH, FLUSH and the host buffer of the descriptor. -/
  | netRxPost (h : Hdr) (u : Fin 19) (len flush : Fin 65536) (addr : Nat)
  /-- RX_FLUSH (12 R289): A receive buffer completes FLUSH_US after its first record. -/
  | rxFlush (u : Fin 19)
  /-- HOLD_QUEUE_DISCARD (12 R279): A frame held for a waking destination for 100 ms is discarded. -/
  | holdQueueDiscard (u : Fin 18)
  /-- NM_REQUEST (12 R290): NM_CMD REQUEST takes a segment to AWAKE with host need and completes once it is awake. -/
  | nmRequest (h : Hdr) (u : Fin 32)
  /-- NM_RELEASE (12 R290): NM_CMD RELEASE withdraws host need, taking an AWAKE segment to READY. -/
  | nmRelease (h : Hdr) (u : Fin 32)
  /-- NM_ISOLATE (12 R283): NM_CMD ISOLATE takes a segment to ISOLATED and may power-cycle its feeding stall. -/
  | nmIsolate (h : Hdr) (u : Fin 32) (cycle : Bool)
  /-- NM_UNISOLATE (12 R281): NM_CMD UNISOLATE takes an isolated segment to SLEEP. -/
  | nmUnisolate (h : Hdr) (u : Fin 32)
  /-- NM_STATUS (12 R290): NM_CMD STATUS returns a segment's state or the set of awake segments. -/
  | nmStatus (h : Hdr) (u : Fin 32)
  /-- SEGMENT_ENABLE (12 R281): Setting a network unit's EN takes its segment from OFF to SLEEP or VALIDATING. -/
  | segmentEnable (via : Fin 2) (u : Fin 18)
  /-- SEGMENT_DISABLE (12 R281): Clearing a network unit's EN takes its segment to OFF under the disable sequence. -/
  | segmentDisable (via : Fin 2) (u : Fin 18)
  /-- WAKE_VALIDATE_END (12 R281): WAKE_VALIDATE ends without valid traffic, raising FALSE_WAKE and returning the segment to SLEEP. -/
  | wakeValidateEnd (u : Fin 18)
  /-- READY_SLEEP_END (12 R281): READY_SLEEP ends without keep-alive and the segment arms its detectors and goes to sleep. -/
  | readySleepEnd (u : Fin 18)
  /-- MAX_AWAKE (12 R282): The MAX_AWAKE count is reached and the segment enters ISOLATED. -/
  | maxAwake (u : Fin 18)
  /-- CYCLE_OFF_END (12 R283): CYCLE_OFF ends and the feeding stall takes a restore-like turn-on. -/
  | cycleOffEnd (u : Fin 18)
  /-- ISO_HOLD_END (12 R283): ISO_HOLD ends and the isolated segment returns to SLEEP. -/
  | isoHoldEnd (u : Fin 18)
  /-- ACCESS_POLL (13 R306): Descriptor that runs a passive-entry, start, RKE or immobiliser poll and decides the grant. -/
  | accessPoll (h : Hdr) (u : Fin 8) (tmo : Fin 4096)
  /-- LF_ROUND (13 R298): A poll round starts, sending an LF challenge with a fresh SEED and NONCE followed by eight reply slots. `bad` has a
  bit for each LF antenna that failed. -/
  | lfRound (bad : Fin 16)
  /-- TOKEN_REPLY (13 R299): A token reply arrives from the UHF receiver and is classed valid, not permitted, invalid or collision. `eof` is
  the MTIME of its end of frame, `crc` the CRC-16 received; TID, counter, SLOT and ROUND of the reply, and its MAC. -/
  | tokenReply (eof : Nat) (crc : Fin 65536) (tid cnt : Fin 4294967296) (slot : Fin 8) (round : Fin 4) (mac : Nat)
  /-- TPC_UPLINK (13 R305): The transponder uplink is read and judged with the coil coupling, repeating on a CRC failure. As TOKEN_REPLY;
  `coupling` is the coil loading in %. -/
  | tpcUplink (crc : Fin 65536) (tid cnt : Fin 4294967296) (mac : Nat) (coupling : Fin 256)
  /-- RANGING_EXCHANGE (13 R303): A UWB ranging exchange in its 1 ms slot yields a time of flight or an STS failure. Token slot, anchor, the
  round-trip and reply times in ps; `sts`: whether its STS and the MAC of its report hold, none where no exchange came about. -/
  | rangingExchange (slot a : Fin 8) (ra rb da db : Nat) (sts : Option Bool)
  /-- ANCHOR_LOST (13 R304): A remote anchor's result has not arrived 5 ms after its last slot. -/
  | anchorLost (slot a : Fin 8)
  /-- POLL_END (13 R306): A poll's last round and rangings end, or its timeout expires, and it completes with its outcome and failures. `rke`:
  the ranging of a remote command; else that of a poll. -/
  | pollEnd (rke : Bool)
  /-- LOCKOUT_END (13 R308): A function's lock-out time elapses in access seconds. -/
  | lockoutEnd (f : Fin 8)
  /-- GRANT_END (13 R307): A grant reaches GRANT_S access seconds and ends. -/
  | grantEnd (f : Fin 8)
  /-- FAILURE_WINDOW_AGE (13 R308): A failure leaves the 60 s failure window of its function. -/
  | failureWindowAge (f : Fin 8)
  /-- RKE_FRAME (13 R309): An RKE frame with a good CRC is judged for each RKE function and may grant. As TOKEN_REPLY; `cmd` is the command. -/
  | rkeFrame (crc : Fin 65536) (tid cnt : Fin 4294967296) (cmd : Fin 256) (mac : Nat)
  /-- LF_SEARCH (13 R310): In WATCH, WNA sends an LF search frame every WATCH_MS. As LF_ROUND. -/
  | lfSearch (bad : Fin 16)
  /-- ENROL_ADD (13 R312): ENROL ADD verifies and stores a token record in a free slot and increments the enrolment count. `addr` is the host
  buffer, `buf` its bytes. -/
  | enrolAdd (h : Hdr) (addr : Nat) (buf : List Nat)
  /-- ENROL_PROVISION (13 R312): ENROL PROVISION writes the vehicle ID and keys while the Tack Room is unprovisioned. As ENROL_ADD. -/
  | enrolProvision (h : Hdr) (addr : Nat) (buf : List Nat)
  /-- REVOKE (13 R311): Descriptor that frees token slots, ends their grants and erases their pending records. A bit for each slot. -/
  | revoke (h : Hdr) (slots : Fin 256)
  /-- IMG_WRITE (14 R337): Descriptor that records WRITING and writes a block of a new image into the staging slot. `offset`, `len` and `addr`
  of the descriptor; `data` is what the host buffer holds. -/
  | imgWrite (h : Hdr) (offset : Fin 8388608) (len : Fin 131072) (addr : Nat) (data : List Nat)
  /-- IMG_COMMIT (14 R337): Descriptor that verifies the staging image, records STAGED and optionally resets CTL to swap. -/
  | imgCommit (h : Hdr) (mode previous : Bool)
  /-- IMG_CONFIRM (14 R334): Descriptor that confirms a trial image, records IDLE and raises MIN_SVN. -/
  | imgConfirm (h : Hdr)
  /-- SELFTEST (15 R348): Descriptor that queues a self-test on a unit with its deadline. -/
  | selftest (h : Hdr) (blk : Fin 64) (unit : Fin 16384) (test : Fin 256) (deadline : Fin 65536)
  /-- SELFTEST_RUN (15 R349): A queued test reaches its turn or its unit's idle window and runs. `k` counts the queued requests. -/
  | selftestRun (k : Nat)
  /-- SELFTEST_DONE (15 R349): A running test ends and completes with its verdict and value. `k` counts the queued requests; `verdict` is 0
  PASS, 1 FAIL, 2 INVALID. -/
  | selftestDone (k : Nat) (verdict : Fin 3) (value : Fin 65536)
  /-- DEFERRED_TIMEOUT (15 R348): An intrusive request finds no idle window by its deadline and completes DEFERRED_TIMEOUT. `k` counts the
  queued requests. -/
  | deferredTimeout (k : Nat)
  /-- AGE_REPORT (15 R350): Descriptor that writes the ageing record of every unit to a host buffer. -/
  | ageReport (h : Hdr) (addr : Nat)
  /-- MARGIN_CAP (15 R343): Descriptor that sets or clears host caps on a stall. -/
  | marginCap (h : Hdr) (stall : Fin 64) (clear : Bool) (lim ceil : Fin 1024) (tsd : Fin 256) (retry : Fin 16)
  /-- RDS_MEASUREMENT (15 R340): An hourly Rds(on) measurement of an on stall or other switch is entered and may re-plan the margins. `u` is the
  switch, `rds` its on-resistance in 0.1 mΩ. -/
  | rdsMeasurement (u : Fin 100) (rds : Fin 65536)
  /-- CORE_MARGIN (15 R346): The 1 s core timing margin reading and AVS update raise CORE_MARGIN if the margin stays below 5 % at VMAX. `m` is
  the margin in %, `want` the AVS step that the loop asks for. -/
  | coreMargin (m : Fin 101) (want : Fin 256)
  /-- SENSE_TRIM (15 R344): Every 10 ms one unit's sense offset and gain trims are adjusted within their envelope. `src` is the output, offset
  and gain in 0.1 %. -/
  | senseTrim (src : Fin 125) (offset gain : Int)
  /-- GUYLINE_EQUALISATION (15 R344): Every 1 s and on retraining a guyline's receiver equaliser step is adjusted within its envelope. `y` is
  the yard, or 4 for WNA; `step` the equaliser step. -/
  | guylineEqualisation (y : Fin 5) (step : Fin 256)
  /-- CONFIG_SPACE_WRITE (04 R390): A host configuration write sets Bus Master Enable, MSI-X Enable, Function Mask or the D-state, gating
  module DMA and MSI-X messages. Bus Master Enable, MSI-X Enable, Function Mask and D3hot. `cs` is the rest of the configuration space that
  the host writes. -/
  | configSpaceWrite (pf : Fin 2) (bme : Bool) (msix : MsixCtl) (d3 : Bool) (cs : CfgSpace)
  /-- FRAME_LOAD_DONE (09 R227): The DMA read of a LAMP_FRAME buffer into LOAD completes, and LOAD and SEND swap and the frame is sent if the
  line is free. -/
  | frameLoadDone (u : Fin 8)
  /-- VF_CALIBRATION_END (09 R217): The two calibration pulses of LS5 or LS11 end, VF0, RS and T_CAL are stored, VALID sets and the SINK_SET
  with CAL completes. `hi`: LS11; else LS5; the voltages in mV at the two currents. -/
  | vfCalibrationEnd (hi : Bool) (vLo vHi : Int)
  /-- WAKE_SIGNAL_DONE (12 R290): A segment's wake signal is complete (the LIN 100 ms, the T1S 50 ms or the BB 200 ms without link) and NM_CMD
  REQUEST completes. -/
  | wakeSignalDone (u : Fin 18)
  /-- PLCA_UP (12 R274): A T1S PHY gains its PLCA cycle (beacons received or sent) and T1S_STATUS.PLCA_UP sets. -/
  | plcaUp (n : Fin 2)
  /-- GPTP_ANNOUNCE (11 R263): A gPTP Announce message is received and the BMCA may select a new grandmaster and raise GM_CHANGE. priority1, the
  system identity and the clock identity of the message. -/
  | gptpAnnounce (p : Fin 2) (prio : Fin 256) (qual gm : Nat)
  /-- GPTP_PDELAY (11 R262): A peer-delay exchange message is sent at the logPdelayReqInterval or received and answered on BB0 or BB1. `kind` is
  0 request, 1 response, 2 measured; `delay` in ns. -/
  | gptpPdelay (p : Fin 2) (kind : Fin 3) (delay : Nat)
  /-- GPTP_SIGNALING (11 R262): A gPTP interval-request signalling message is received and obeyed. The intervals asked for, log2 s. -/
  | gptpSignaling (p : Fin 2) (logSync logPdelay : Int)
  /-- BASEPLATE_TEMP_READ (18 R386): The baseplate temperature sensor is read every 10 ms and the value is used by the wire, winding and
  forward-voltage models. `t` is the temperature in m°C. -/
  | baseplateTempRead (t : Int)
  /-- GUYLINE_RETRAINING (01 R19): A guyline upstream link is established or re-established after a break, training its equaliser and restarting
  the mirror grid. As GUYLINE_EQUALISATION. -/
  | guylineRetraining (y : Fin 5) (step : Fin 256)
  /-- AT_TIME_DUE (04 R96): MTIME reaches the time of a waiting AT_TIME descriptor, which then executes. -/
  | atTimeDue
  /-- PERST_ASSERT (03 R61): PERST# assertion resets the endpoint, its configuration space and the ring state of both functions, and nothing
  else. -/
  | perstAssert
  /-- PERST_DEASSERT (03 R61): PERST# deassertion makes the endpoint ready for link training within 1 ms if PD_HOST is on. -/
  | perstDeassert
  /-- HOT_RESET (03 R61): A PCIe hot reset resets the endpoint and ring state and re-enters link training at once. -/
  | hotReset
  /-- LINK_DOWN (03 R61): A PCIe link-down resets the endpoint and ring state and re-enters link training at once. -/
  | linkDown
  /-- AON_LOSS (02 R41): VBAT_AON stays below 2.5 V for the loss filter, resetting WNA and CTL and taking the module to OFF. -/
  | aonLoss
  /-- PREREG_START (03 R67): The pre-regulator input rises past 3.0 V and the pre-regulator starts, after which CTL is released. -/
  | preregStart
  /-- BROWN_OUT (02 R35): The pre-regulator input stays below 2.8 V for more than 20 µs, giving a CTL reset without RESET_NOTICE. -/
  | brownOut
  /-- LOCKSTEP_MISMATCH (03 R59): The cores of a lockstep pair disagree, causing a CTL reset with cause LOCKSTEP. -/
  | lockstepMismatch
  /-- FIRMWARE_WATCHDOG (03 R59): The firmware watchdog is not serviced for 20 ms, causing a CTL reset with cause WDOG. -/
  | firmwareWatchdog
  /-- MEMORY_ECC_ERROR (03 R59): An uncorrectable ECC error in SRAM or MRAM causes a CTL reset with cause MEM_ECC. -/
  | memoryEccError
  /-- XTAL40_FAIL (03 R75): The 40 MHz crystal fails: CLK_WNA moves to the internal RC, CTL resets with CLKMON and the network blocks stay
  disabled. -/
  | xtal40Fail
  /-- XTAL32K_FAIL (03 R75): The 32.768 kHz crystal fails and CLK_LF runs from an internal RC, raising source 241. -/
  | xtal32kFail
  /-- DEBUG_RESET (03 R59): An authorised IEEE 1149.1 reset instruction causes a CTL reset with cause DEBUG. -/
  | debugReset
  /-- CTL_RELEASE (03 R67): CTL is released at start-up step 4: its PLLs lock, the boot ROM runs and memory BIST starts. -/
  | ctlRelease
  /-- SWAP_STEP (14 R331): Completion of one journalled step A, B or C of a sector swap, after which the next step is recorded and started. -/
  | swapStep
  /-- FIRMWARE_START (03 R67): Firmware loads the settings store, writes the set-up registers, locks the world assignment table and sets the
  boot lock. -/
  | firmwareStart
  /-- STANDBY_REACHED (03 R67): Start-up step 10: MTIME is taken back, keep-alives start, the endpoint becomes ready and heartbeat supervision
  starts. -/
  | standbyReached
  /-- DEBUG_RELEASE (03 R77): The cores are released from debug halt; frozen timers resume and waiting work executes. -/
  | debugRelease
  /-- UNLOCK_REFUSAL_END (14 R323): The 10 s refusal after a bad unlock signature ends and a new attempt is accepted. -/
  | unlockRefusalEnd
  /-- RESERVATION_LAPSE (02 R54): A granted budget reservation lapses 50 ms after it was granted. -/
  | reservationLapse
  /-- OV_CUT (07 R169): VBAT_D rises above 41 V in the 24 V class and every group high side opens. -/
  | ovCut
  /-- OV_CUT_RELEASE (07 R169): VBAT_D falls below 39 V and the group high sides close again. -/
  | ovCutRelease
  /-- DIM_PERIOD_START (09 R215): A dimming period starts, new DIM and I_SET apply and the sub-slot pattern is laid out. -/
  | dimPeriodStart
  /-- LINE_SHORT (09 R219): A line current above 1.5 A for 5 µs blanks the matrix and latches LINE_SHORT. -/
  | lineShort
  /-- GSTART_EDGE (11 R260): At T0 the named channels load their start values and the named rows restart their period counters. -/
  | gstartEdge
  /-- LF_TICK (11 R265): A CLK_LF tick advances MTIME and low-frequency channels, counting zero steps and matches crossed. -/
  | lfTick
  /-- TIME_LOCKED (11 R263): The offset stays within 80 ns for 1 s and the discipline enters LOCKED. -/
  | timeLocked
  /-- TIME_HOLDOVER (11 R263): Sync is lost and MTIME enters HOLDOVER with the last rate correction. -/
  | timeHoldover
  /-- TOKEN_WAKE (13 R310): A UHF receiver interrupt within 10 ms of a search frame wakes the module. -/
  | tokenWake
  /-- RUN_S_COMMIT (14 R333): Every 10 s in RUN and on leaving RUN, the trial run time is committed to the journal. -/
  | runSCommit
  /-- REVERT_DUE (14 R333): RUN_S of a trial image reaches 600, so REVERT_DUE is recorded and raised. -/
  | revertDue
  /-- WEAR_COMMIT (15 R341): Every 60 s in STANDBY and RUN, CTL commits the halters' wear counters to the ageing record. -/
  | wearCommit
  /-- PLL_LOCK_LOSS (03 R59): A CTL PLL loses lock and the clock monitor takes a CTL reset with cause CLKMON. -/
  | pllLockLoss
  /-- XTAL40_RETURN (03 R75): The 40 MHz crystal runs again after a failure, and BB0, BB1, CAN, LIN and T1S leave their disabled state. -/
  | xtal40Return
  /-- XTAL32K_STABLE (03 R67): The 32.768 kHz crystal becomes stable, CLK_LF moves from the internal RC to it and XTAL32K_OK sets. -/
  | xtal32kStable
  /-- LF_RC_CALIBRATION (03 R75): Every second in STANDBY and RUN, the CLK_LF fall-back RC is calibrated against CLK_WNA. -/
  | lfRcCalibration
  /-- PCIE_LINK_UP (03 R61): PCIe link training completes and the link reaches L0, from which configuration requests complete successfully. -/
  | pcieLinkUp
  deriving DecidableEq, Repr, Inhabited

end Sys2Proof
end

