-- ==== Sys2Proof/Decode.lean ====
section
/-!
DEFINITION. Sys2Proof/Decode.lean: the command that a word spells by the bits of spec/opcode_table.json. No row of that table gives bits
(every row's "fields" is empty), so no word spells a command. The descriptor words of the ring engine are read in
Sys2Proof/Machine/Descriptor.lean.
-/

namespace Sys2Proof

/-- The command that the `nbits` bits `w` spell by the table: none. -/
def decodeTableWord (_nbits _w : Nat) : Option Instr := none

end Sys2Proof
end

