-- ==== Sys2Proof/Machine/Crypto.lean ====
section
/-!
DEFINITION. Sys2Proof/Machine/Crypto.lean: the algorithms of the standards that 00 R11 (Table 0.6) names: SHA-256 (FIPS 180-4), AES-128
(FIPS 197), CMAC (SP 800-38B) and ECDSA over P-256 (FIPS 186-5). Strings are lists of bytes; numbers that a standard writes with the most
significant byte first are `Nat`.
-/

namespace Sys2Proof.Machine

/-- A byte string read with the most significant byte first. -/
def beNum (l : List Nat) : Nat := l.foldl (fun n b => 256 * n + b % 256) 0

/-- `n` bytes of a number, the most significant first. -/
def beBytes : Nat → Nat → List Nat
  | 0, _ => []
  | n + 1, v => beBytes n (v / 256) ++ [v % 256]

/-- A string cut into pieces of `n` elements, at most as many as the first argument says. -/
def pieces (n : Nat) : Nat → List Nat → List (List Nat)
  | 0, _ => []
  | k + 1, l => if l.isEmpty then [] else l.take n :: pieces n k (l.drop n)

-- CRCs of the line and air frames (09 R220, 13 R296) ------------------------------------------------------------------------------

/-- One bit through a CRC register of width `w` (09 R220, 13 R296). -/
def crcBit (w poly r : Nat) (b : Bool) : Nat := (r * 2 % 2 ^ w) ^^^ (if r.testBit (w - 1) != b then poly else 0)

/-- A CRC over the `n` bits of `v`, MSB first, with a register of ones at the start; no final XOR is stated, and none is made (log entry 58). -/
def crcBits (w poly n v : Nat) : Nat := (List.range n).foldl (fun r k => crcBit w poly r (v.testBit (n - 1 - k))) (2 ^ w - 1)

/-- CRC-8, polynomial 0x2F (09 R220, 13 R296). -/
def crc8 (n v : Nat) : Nat := crcBits 8 0x2F n v

/-- CRC-16, polynomial 0x1021 (13 R296). -/
def crc16 (n v : Nat) : Nat := crcBits 16 0x1021 n v

/-- The CRC-8 over bytes. -/
def crcBytes (l : List Nat) : Nat := l.foldl (fun r b => (List.range 8).foldl (fun r k => crcBit 8 0x2F r (b.testBit (7 - k))) r) 0xFF

-- SHA-256 (FIPS 180-4) ------------------------------------------------------------------------------------------------------------

/-- ROTR on a 32-bit word (FIPS 180-4 §3.2). -/
def rotr (n x : Nat) : Nat := x >>> n ||| (x <<< (32 - n)) % 2 ^ 32

/-- Σ₀, Σ₁, σ₀ and σ₁ (FIPS 180-4 §4.1.2). -/
def shaBig0 (x : Nat) : Nat := rotr 2 x ^^^ rotr 13 x ^^^ rotr 22 x
def shaBig1 (x : Nat) : Nat := rotr 6 x ^^^ rotr 11 x ^^^ rotr 25 x
def shaSmall0 (x : Nat) : Nat := rotr 7 x ^^^ rotr 18 x ^^^ x >>> 3
def shaSmall1 (x : Nat) : Nat := rotr 17 x ^^^ rotr 19 x ^^^ x >>> 10

/-- The constants K of the rounds (FIPS 180-4 §4.2.2). -/
def shaK : List Nat :=
  [0x428a2f98, 0x71374491, 0xb5c0fbcf, 0xe9b5dba5, 0x3956c25b, 0x59f111f1, 0x923f82a4, 0xab1c5ed5,
   0xd807aa98, 0x12835b01, 0x243185be, 0x550c7dc3, 0x72be5d74, 0x80deb1fe, 0x9bdc06a7, 0xc19bf174] ++
  [0xe49b69c1, 0xefbe4786, 0x0fc19dc6, 0x240ca1cc, 0x2de92c6f, 0x4a7484aa, 0x5cb0a9dc, 0x76f988da,
   0x983e5152, 0xa831c66d, 0xb00327c8, 0xbf597fc7, 0xc6e00bf3, 0xd5a79147, 0x06ca6351, 0x14292967] ++
  [0x27b70a85, 0x2e1b2138, 0x4d2c6dfc, 0x53380d13, 0x650a7354, 0x766a0abb, 0x81c2c92e, 0x92722c85,
   0xa2bfe8a1, 0xa81a664b, 0xc24b8b70, 0xc76c51a3, 0xd192e819, 0xd6990624, 0xf40e3585, 0x106aa070] ++
  [0x19a4c116, 0x1e376c08, 0x2748774c, 0x34b0bcb5, 0x391c0cb3, 0x4ed8aa4a, 0x5b9cca4f, 0x682e6ff3,
   0x748f82ee, 0x78a5636f, 0x84c87814, 0x8cc70208, 0x90befffa, 0xa4506ceb, 0xbef9a3f7, 0xc67178f2]

/-- The working variables a to h, or a hash value H0 to H7. -/
structure Sha where
  a : Nat
  b : Nat
  c : Nat
  d : Nat
  e : Nat
  f : Nat
  g : Nat
  h : Nat
  deriving DecidableEq, Repr

/-- The initial hash value (FIPS 180-4 §5.3.3). -/
def shaInit : Sha :=
  { a := 0x6a09e667, b := 0xbb67ae85, c := 0x3c6ef372, d := 0xa54ff53a, e := 0x510e527f, f := 0x9b05688c, g := 0x1f83d9ab, h := 0x5be0cd19 }

/-- The rounds of one block (FIPS 180-4 §6.2.2): the constants left, the next 16 words of the message schedule, the working variables. -/
def shaRounds : List Nat → List Nat → Sha → Sha
  | [], _, x => x
  | k :: ks, w, x =>
    let w0 := w.getD 0 0
    let t1 := x.h + shaBig1 x.e + (x.e &&& x.f ^^^ (x.e ^^^ 0xFFFFFFFF) &&& x.g) + k + w0
    let t2 := shaBig0 x.a + (x.a &&& x.b ^^^ x.a &&& x.c ^^^ x.b &&& x.c)
    let w16 := (shaSmall1 (w.getD 14 0) + w.getD 9 0 + shaSmall0 (w.getD 1 0) + w0) % 2 ^ 32
    shaRounds ks (w.drop 1 ++ [w16])
      { a := (t1 + t2) % 2 ^ 32, b := x.a, c := x.b, d := x.c, e := (x.d + t1) % 2 ^ 32, f := x.e, g := x.f, h := x.g }

/-- The hash value after one block of 64 bytes (FIPS 180-4 §6.2.2). -/
def shaBlock (x : Sha) (block : List Nat) : Sha :=
  let y := shaRounds shaK ((pieces 4 16 block).map beNum) x
  { a := (x.a + y.a) % 2 ^ 32, b := (x.b + y.b) % 2 ^ 32, c := (x.c + y.c) % 2 ^ 32, d := (x.d + y.d) % 2 ^ 32
    e := (x.e + y.e) % 2 ^ 32, f := (x.f + y.f) % 2 ^ 32, g := (x.g + y.g) % 2 ^ 32, h := (x.h + y.h) % 2 ^ 32 }

/-- A message padded to whole blocks: a 1 bit, zeros, and its length in bits (FIPS 180-4 §5.1.1). -/
def shaPad (l : List Nat) : List Nat :=
  l ++ 0x80 :: List.replicate ((119 - l.length % 64) % 64) 0 ++ beBytes 8 (8 * l.length)

/-- The SHA-256 digest of a byte string, as one number (00 R11, FIPS 180-4). -/
def sha256 (l : List Nat) : Nat :=
  let p := shaPad l
  let x := (pieces 64 (p.length / 64) p).foldl shaBlock shaInit
  [x.a, x.b, x.c, x.d, x.e, x.f, x.g, x.h].foldl (fun n v => n * 2 ^ 32 + v) 0

-- AES-128 (FIPS 197) --------------------------------------------------------------------------------------------------------------

/-- Multiplication by x in GF(2⁸) (FIPS 197 §4.2). -/
def xtime (a : Nat) : Nat := if a < 128 then 2 * a else (2 * a) % 256 ^^^ 0x1B

/-- Multiplication in GF(2⁸), over the given number of bits of the second factor (FIPS 197 §4.2). -/
def gfMul : Nat → Nat → Nat → Nat
  | 0, _, _ => 0
  | n + 1, a, b => (if b % 2 = 1 then a else 0) ^^^ gfMul n (xtime a) (b / 2)

/-- The rows of the substitution box, sixteen bytes each (FIPS 197 §5.1.1). -/
def sboxRows : List Nat :=
  [0x637c777bf26b6fc53001672bfed7ab76, 0xca82c97dfa5947f0add4a2af9ca472c0,
   0xb7fd9326363ff7cc34a5e5f171d83115, 0x04c723c31896059a071280e2eb27b275,
   0x09832c1a1b6e5aa0523bd6b329e32f84, 0x53d100ed20fcb15b6acbbe394a4c58cf,
   0xd0efaafb434d338545f9027f503c9fa8, 0x51a3408f929d38f5bcb6da2110fff3d2,
   0xcd0c13ec5f974417c4a77e3d645d1973, 0x60814fdc222a908846eeb814de5e0bdb,
   0xe0323a0a4906245cc2d3ac629195e479, 0xe7c8376d8dd54ea96c56f4ea657aae08,
   0xba78252e1ca6b4c6e8dd741f4bbd8b8a, 0x703eb5664803f60e613557b986c11d9e,
   0xe1f8981169d98e949b1e87e9ce5528df, 0x8ca1890dbfe6426841992d0fb054bb16]

/-- The rows of the inverse substitution box (FIPS 197 §5.3.2). -/
def invSboxRows : List Nat :=
  [0x52096ad53036a538bf40a39e81f3d7fb, 0x7ce339829b2fff87348e4344c4dee9cb,
   0x547b9432a6c2233dee4c950b42fac34e, 0x082ea16628d924b2765ba2496d8bd125,
   0x72f8f66486689816d4a45ccc5d65b692, 0x6c704850fdedb9da5e154657a78d9d84,
   0x90d8ab008cbcd30af7e45805b8b34506, 0xd02c1e8fca3f0f02c1afbd0301138a6b,
   0x3a9111414f67dcea97f2cfcef0b4e673, 0x96ac7422e7ad3585e2f937e81c75df6e,
   0x47f11a711d29c5896fb7620eaa18be1b, 0xfc563e4bc6d279209adbc0fe78cd5af4,
   0x1fdda8338807c731b11210592780ec5f, 0x60517fa919b54a0d2de57a9f93c99cef,
   0xa0e03b4dae2af5b0c8ebbb3c83539961, 0x172b047eba77d626e169146355210c7d]

/-- The byte that a box substitutes for `a`: row and column are its two digits. -/
def boxAt (rows : List Nat) (a : Nat) : Nat := rows.getD (a / 16) 0 >>> (8 * (15 - a % 16)) % 256

/-- SBOX() (FIPS 197 §5.1.1). -/
def sbox (a : Nat) : Nat := boxAt sboxRows a

/-- INVSBOX() (FIPS 197 §5.3.2). -/
def invSbox (a : Nat) : Nat := boxAt invSboxRows a

/-- Two byte strings added bit by bit. -/
def xorBytes (a b : List Nat) : List Nat := List.zipWith (· ^^^ ·) a b

/-- The next round key from the present one (FIPS 197 §5.2): its four words in turn. -/
def nextKey (rcon : Nat) (k : List Nat) : List Nat :=
  let g := (xorBytes [rcon, 0, 0, 0] ((k.drop 13 ++ [k.getD 12 0]).map sbox))
  let w0 := xorBytes (k.take 4) g
  let w1 := xorBytes ((k.drop 4).take 4) w0
  let w2 := xorBytes ((k.drop 8).take 4) w1
  w0 ++ w1 ++ w2 ++ xorBytes (k.drop 12) w2

/-- `n` round keys after the present one. -/
def roundKeys : Nat → Nat → List Nat → List (List Nat)
  | 0, _, k => [k]
  | n + 1, rcon, k => k :: roundKeys n (xtime rcon) (nextKey rcon k)

/-- SHIFTROWS(): byte r + 4c of the state comes from column c + r (FIPS 197 §5.1.2). -/
def shiftRows (s : List Nat) : List Nat := (List.range 16).map fun k => s.getD ((k + 4 * (k % 4)) % 16) 0

/-- INVSHIFTROWS() (FIPS 197 §5.3.1). -/
def invShiftRows (s : List Nat) : List Nat := (List.range 16).map fun k => s.getD ((k + 12 * (k % 4)) % 16) 0

/-- Each column of the state times the circulant matrix whose first row is `m` (FIPS 197 §5.1.3, §5.3.3). -/
def mixBy (m s : List Nat) : List Nat :=
  (List.range 16).map fun k =>
    (List.range 4).foldl (fun a j => a ^^^ gfMul 4 (s.getD (4 * (k / 4) + j) 0) (m.getD ((j + 4 - k % 4) % 4) 0)) 0

/-- CIPHER() on the round keys left, after the first was added (FIPS 197 §5.1). -/
def aesRounds : List (List Nat) → List Nat → List Nat
  | [], s => s
  | [k], s => xorBytes (shiftRows (s.map sbox)) k
  | k :: ks, s => aesRounds ks (xorBytes (mixBy [2, 3, 1, 1] (shiftRows (s.map sbox))) k)

/-- AES-128 encryption of a block of 16 bytes (00 R11, FIPS 197). -/
def aesEncrypt (key block : List Nat) : List Nat :=
  match roundKeys 10 1 key with
  | [] => block
  | k :: ks => aesRounds ks (xorBytes block k)

/-- INVCIPHER() on the round keys left, in falling order, after the last was added (FIPS 197 §5.3). -/
def aesInvRounds : List (List Nat) → List Nat → List Nat
  | [], s => s
  | [k], s => xorBytes ((invShiftRows s).map invSbox) k
  | k :: ks, s => aesInvRounds ks (mixBy [14, 11, 13, 9] (xorBytes ((invShiftRows s).map invSbox) k))

/-- AES-128 decryption of a block of 16 bytes (00 R11, FIPS 197). -/
def aesDecrypt (key block : List Nat) : List Nat :=
  match (roundKeys 10 1 key).reverse with
  | [] => block
  | k :: ks => aesInvRounds ks (xorBytes block k)

/-- A block doubled in GF(2¹²⁸) (SP 800-38B §6.1). -/
def cmacDouble (l : List Nat) : List Nat :=
  let n := beNum l
  beBytes 16 ((2 * n) % 2 ^ 128 ^^^ (if n < 2 ^ 127 then 0 else 0x87))

/-- The last block of a message under CMAC, complete or padded, with its subkey added (SP 800-38B §6.2). -/
def cmacLast (key last : List Nat) : List Nat :=
  let k1 := cmacDouble (aesEncrypt key (List.replicate 16 0))
  if last.length = 16 then xorBytes last k1
  else xorBytes (last ++ 0x80 :: List.replicate (15 - last.length) 0) (cmacDouble k1)

/-- AES-CMAC of a message (00 R11, SP 800-38B), 16 bytes. -/
def aesCmac (key msg : List Nat) : List Nat :=
  let n := (msg.length - 1) / 16
  let c := (pieces 16 n msg).foldl (fun c b => aesEncrypt key (xorBytes c b)) (List.replicate 16 0)
  aesEncrypt key (xorBytes c (cmacLast key (msg.drop (16 * n))))

/-- The first 64 bits of AES-CMAC, as one number (13 R297, R304, R312). -/
def aesCmac64 (key msg : List Nat) : Nat := beNum ((aesCmac key msg).take 8)

-- ECDSA over P-256 (FIPS 186-5) ---------------------------------------------------------------------------------------------------

/-- The field of P-256, its order n, its coefficient b and its base point (SP 800-186 §3.2.1.3). -/
def p256 : Nat := 2 ^ 256 - 2 ^ 224 + 2 ^ 192 + 2 ^ 96 - 1
def p256n : Nat := 0xffffffff00000000ffffffffffffffffbce6faada7179e84f3b9cac2fc632551
def p256b : Nat := 0x5ac635d8aa3a93e7b3ebbd55769886bc651d06b0cc53b0f63bce3c3e27d2604b
def p256x : Nat := 0x6b17d1f2e12c4247f8bce6e563a440f277037d812deb33a0f4a13945d898c296
def p256y : Nat := 0x4fe342e2fe1a7f9b8ee7eb4a7c0f9e162bce33576b315ececbb6406837bf51f5

/-- `b` to the power `e` modulo `m`, over the given number of bits of `e`. -/
def powMod (m : Nat) : Nat → Nat → Nat → Nat
  | 0, _, _ => 1
  | n + 1, b, e => (if e % 2 = 1 then b else 1) * powMod m n (b * b % m) (e / 2) % m

/-- The inverse modulo a prime. -/
def invMod (m a : Nat) : Nat := powMod m 256 (a % m) (m - 2)

/-- A point of P-256 in Jacobian coordinates: x = X/Z², y = Y/Z³; Z = 0 for the point at infinity. -/
structure Jac where
  x : Nat
  y : Nat
  z : Nat
  deriving DecidableEq, Repr

/-- A difference modulo the field's prime, of two reduced numbers. -/
def subP (a b : Nat) : Nat := (a + p256 - b) % p256

/-- A point doubled. -/
def Jac.double (a : Jac) : Jac :=
  let d := a.z * a.z % p256
  let g := a.y * a.y % p256
  let b := a.x * g % p256
  let m := 3 * (subP a.x d * ((a.x + d) % p256)) % p256
  let x := subP (m * m % p256) (8 * b % p256)
  { x := x, y := subP (m * subP (4 * b % p256) x % p256) (8 * (g * g) % p256), z := 2 * (a.y * a.z) % p256 }

/-- Two points added. -/
def Jac.add (a b : Jac) : Jac :=
  if a.z = 0 then b
  else if b.z = 0 then a
  else
    let za := a.z * a.z % p256
    let zb := b.z * b.z % p256
    let u := a.x * zb % p256
    let s := a.y * (b.z * zb % p256) % p256
    let h := subP (b.x * za % p256) u
    let w := subP (b.y * (a.z * za % p256) % p256) s
    if h = 0 then (if w = 0 then a.double else { x := 1, y := 1, z := 0 })
    else
      let hh := h * h % p256
      let hhh := h * hh % p256
      let v := u * hh % p256
      let x := subP (subP (w * w % p256) hhh) (2 * v % p256)
      { x := x, y := subP (w * subP v x % p256) (s * hhh % p256), z := a.z * b.z % p256 * h % p256 }

/-- A point times a number, over the given number of bits of it. -/
def Jac.times : Nat → Nat → Jac → Jac
  | 0, _, _ => { x := 1, y := 1, z := 0 }
  | n + 1, k, a => if k % 2 = 1 then Jac.add a (Jac.times n (k / 2) a.double) else Jac.times n (k / 2) a.double

/-- The affine coordinates of a point other than the one at infinity. -/
def Jac.affine (a : Jac) : Nat × Nat :=
  let i := invMod p256 a.z
  (a.x * (i * i % p256) % p256, a.y * (i * (i * i % p256) % p256) % p256)

/-- The hash of a public key as a key slot holds it: X, Y, 64 bytes, the most significant byte first (14 R324). -/
def pubKeyHash (q : Nat × Nat) : Nat := sha256 (beBytes 32 q.1 ++ beBytes 32 q.2)

/-- The points of P-256 whose x coordinate is R modulo n (FIPS 186-5 §6.4.2: the point that verification meets). -/
def sigPoints (r : Nat) : List Jac :=
  [r, r + p256n].flatMap fun x =>
    let w := (x * x * x + p256 * 3 - 3 * x % p256 + p256b) % p256
    let y := powMod p256 256 w ((p256 + 1) / 4)
    if p256 ≤ x ∨ ¬ y * y % p256 = w then [] else [{ x := x, y := y, z := 1 }, { x := x, y := (p256 - y) % p256, z := 1 }]

/-- The public keys under which a signature (R, S) over a digest verifies (FIPS 186-5 §6.4.2): for each point that R stands for, the key
(S · point − digest · G) / R. -/
def sigKeys (digest r s : Nat) : List (Nat × Nat) :=
  if r = 0 ∨ p256n ≤ r ∨ s = 0 ∨ p256n ≤ s then []
  else
    let i := invMod p256n r
    let k := (p256n - digest % p256n) * i % p256n
    (sigPoints r).filterMap fun pt =>
      let q := Jac.add (Jac.times 256 (s * i % p256n) pt) (Jac.times 256 k { x := p256x, y := p256y, z := 1 })
      if q.z = 0 then none else some q.affine

/-- A signature (R, S) over a digest verifies against the public key of which a key slot holds the hash (00 R11, 14 R324, R329): it
verifies under a key with that hash. Log entry 15. -/
def ecdsaVerify (keyHash digest sigR sigS : Nat) : Bool := (sigKeys digest sigR sigS).any fun q => pubKeyHash q == keyHash

end Sys2Proof.Machine
end

