-- ==== Sys2Proof/Config.lean ====
section
/-!
DEFINITION. Sys2Proof/Config.lean: the values the spec leaves open, as constants without a body (log entries 1, 4, 5, 8, 13): a
statement about the model holds whatever they are. Where one stands for a fresh choice it is applied to a counter of the state.
-/

namespace Sys2Proof

/-- The n-th free value of a run: a value the spec does not state where the machine goes on. `State.chip.free` counts them; each use keeps
the low bits its field has. Log entry 1. -/
opaque Config.freeValue : Nat → Nat

/-- The junction temperature in m°C of a switch by event source that no command measures, at an instant of the model's clock (02 R55).
Log entry 5. -/
opaque Config.junction : Nat → Nat → Int

/-- The on-resistance at 25 °C of a switch by event source (group high sides from 256 on), in 0.1 mΩ, as measured at test (02 R55).
Log entry 5. -/
opaque Config.factoryRds : Nat → Nat

/-- The on-resistance of a switch by event source, of given value at 25 °C, at a junction temperature in m°C (02 R55: the factory
temperature coefficient). Log entry 5. -/
opaque Config.rdsAt : Nat → Nat → Int → Nat

/-- The hash of the factory key in key slot 0 (14 R324). Log entry 4. -/
opaque Config.factoryKeyHash : Nat

/-- Llynxel's PCI-SIG vendor ID (16 R357: the manual does not state its number). Log entry 4. -/
opaque Config.vendorId : Nat

/-- The junction-to-baseplate thermal resistance of a stall as measured at test, in 0.01 K/W (15 R340). Log entry 5. -/
opaque Config.factoryZth : Nat → Nat

/-- The register values (BAR0 offset, value) that a settings block of an image spells (14 R335: its layout is not stated). Log entry 13. -/
opaque Config.parseSettings : List Nat → List (Nat × Nat)

/-- The route table that a settings block spells (12 R278; 14 R335): SRC, ID, MASK, FMT, CLASS, DST, WAKE, CONV of each route. Log entry
13. -/
opaque Config.parseRoutes : List Nat → List (Nat × Nat × Nat × Nat × Nat × Nat × Bool × Nat)

/-- The static address entries that a settings block spells (12 R276; 14 R335): address, VLAN, port. Log entry 13. -/
opaque Config.parseMacs : List Nat → List (Nat × Nat × Nat)

/-- The LIN schedule tables that a settings block spells (12 R273; 14 R335): key 16·channel + table, and for each slot its frame ID and whether
the module publishes that frame. Log entry 13. -/
opaque Config.parseScheds : List Nat → List (Nat × List (Nat × Bool))

/-- The user curves that a settings block spells (05 R116, 14 R335): key 2·yard + user slot, points. Log entry 13. -/
opaque Config.parseCurves : List Nat → List (Nat × List (Nat × Nat))

end Sys2Proof
end

