-- ==== Sys2Proof/Machine/Store.lean ====
section
/-!
DEFINITION. Sys2Proof/Machine/Store.lean: the three sparse stores of the model: maps from unit numbers (`UMap`), the register
file (`RegFile`, offsets of BAR0) and byte memory (`ByteMem`), and the bit-field and byte-order helpers.
-/

namespace Sys2Proof.Machine

/-- Field [hi:lo] of a word (00 R6). -/
def bits (w hi lo : Nat) : Nat := (w / 2 ^ lo) % 2 ^ (hi + 1 - lo)

/-- Bit n of a word (00 R6). -/
def bit (w n : Nat) : Bool := w.testBit n

/-- `w` with the field [hi:lo] replaced by `v`. -/
def setBits (w hi lo v : Nat) : Nat :=
  w - bits w hi lo * 2 ^ lo + (v % 2 ^ (hi + 1 - lo)) * 2 ^ lo

/-- 0 or 1. -/
def b2n (b : Bool) : Nat := if b then 1 else 0

/-- The `n` bytes of `v`, lowest first: multi-byte fields are little-endian (00 R6). -/
def leBytes : Nat → Nat → List Nat
  | 0, _ => []
  | n + 1, v => v % 256 :: leBytes n (v / 256)

/-- The number that bytes spell, lowest first (00 R6). -/
def leNat : List Nat → Nat
  | [] => 0
  | b :: bs => b % 256 + 256 * leNat bs

/-- The signed number that the low `n` bits of `v` spell in two's complement. -/
def toSigned (n v : Nat) : Int :=
  if (v % 2 ^ n) < 2 ^ (n - 1) then (v % 2 ^ n : Nat) else ((v % 2 ^ n : Nat) : Int) - (2 ^ n : Nat)

/-- The low `n` bits of a signed number in two's complement. -/
def ofSigned (n : Nat) (x : Int) : Nat := (x % ((2 ^ n : Nat) : Int)).toNat

/-- `x` held between `lo` and `hi`. -/
def clampI (lo hi x : Int) : Int := if x < lo then lo else if hi < x then hi else x

/-- `x` held between `lo` and `hi`. -/
def clampN (lo hi x : Nat) : Nat := if x < lo then lo else if hi < x then hi else x

/-- Saturating increment (04 R99, 06 Table 6.17). -/
def satInc (top n : Nat) : Nat := if n < top then n + 1 else n

/-- A map from unit numbers: pairs in rising order of the number. -/
abbrev UMap (α : Type) := List (Nat × α)

/-- The value of unit `k`, `d` where the map holds none. -/
def UMap.get {α : Type} (d : α) : UMap α → Nat → α
  | [], _ => d
  | (k', v) :: m, k => if k' = k then v else UMap.get d m k

/-- The map with unit `k` at `v`. -/
def UMap.put {α : Type} : UMap α → Nat → α → UMap α
  | [], k, v => [(k, v)]
  | (k', v') :: m, k, v =>
    if k' = k then (k, v) :: m
    else if k < k' then (k, v) :: (k', v') :: m
    else (k', v') :: UMap.put m k v

/-- The map without unit `k`: that unit is back in its reset state. -/
def UMap.del {α : Type} (m : UMap α) (k : Nat) : UMap α := m.filter fun e => !(e.1 == k)

/-- A store of words or bytes by key, in one canonical form: keys strictly rising, no entry equal to what an unlisted key reads
as. `insertKey` puts an entry at its place. -/
def insertKey {α : Type} (k : Nat) (v : α) : List (Nat × α) → List (Nat × α)
  | [] => [(k, v)]
  | (k', v') :: m => if k < k' then (k, v) :: (k', v') :: m else (k', v') :: insertKey k v m

/-- Every entry of key `k` removed. -/
def eraseKey {α : Type} (k : Nat) (m : List (Nat × α)) : List (Nat × α) := m.filter fun e => !(e.1 == k)

/-- The value at key `k`, `d` where it is not listed. -/
def findKey {α : Type} (d : α) : List (Nat × α) → Nat → α
  | [], _ => d
  | (k', v) :: m, k => if k' = k then v else findKey d m k

/-- The store with key `k` at `v`, where `d` is what key `k` reads as when unlisted: writing `d` removes the entry. -/
def writeKey {α : Type} [DecidableEq α] (d : α) (m : List (Nat × α)) (k : Nat) (v : α) : List (Nat × α) :=
  if v = d then eraseKey k m else insertKey k v (eraseKey k m)

/-- The canonical form: keys strictly rising and no entry at its unlisted value. -/
def canonical {α : Type} [DecidableEq α] (d : Nat → α) : List (Nat × α) → Bool
  | [] => true
  | [(k, v)] => !decide (v = d k)
  | (k, v) :: (k', v') :: m => !decide (v = d k) && decide (k < k') && canonical d ((k', v') :: m)

/-- The set-up registers that differ from their reset value, by BAR0 offset (16 R353). -/
abbrev RegFile := List (Nat × Word)

/-- A byte memory. -/
abbrev ByteMem := List Host.Cell

/-- What a byte that nothing has written reads as. DESIGN CHOICE: log entry 12. -/
def ByteMem.blank : Byte := 0

/-- The byte at offset `a`. -/
def ByteMem.read (m : ByteMem) (a : Nat) : Byte := findKey ByteMem.blank m a

/-- The memory with the byte at offset `a` at `v`. -/
def ByteMem.write (m : ByteMem) (a : Nat) (v : Byte) : ByteMem := writeKey ByteMem.blank m a v

/-- The memory with bytes written from offset `a` on. -/
def ByteMem.writeList (m : ByteMem) (a : Nat) : List Nat → ByteMem
  | [] => m
  | b :: bs => ByteMem.writeList (m.write a (BitVec.ofNat 8 b)) (a + 1) bs

/-- The canonical form of a byte memory. -/
def ByteMem.wf (m : ByteMem) : Bool := canonical (fun _ => ByteMem.blank) m

end Sys2Proof.Machine
end

