-- ==== Sys2Proof/Machine/State.lean ====
section
/-!
DEFINITION. Sys2Proof/Machine/State.lean: the state of the EZ9480 as the spec gives it, one structure for each kind of unit, and
the state right after reset. Every default is the value at reset: the spec's where it gives one, a value named in the assumption
log otherwise. Structures hold plain data; collections indexed by a unit number are `UMap`s, in which an absent number stands
for a unit in its reset state.
-/

namespace Sys2Proof.Machine

/-- Protection states of a stall (06 Table 6.1). -/
inductive PState | off | ramp | inrush | on | wait | shed | latched
  deriving DecidableEq, Repr, Inhabited
/-- Phases of a valve channel (07 Table 7.2). -/
inductive VPhase | idle | defer | peak | trans | hold | end_
  deriving DecidableEq, Repr, Inhabited
/-- States of a Bridle loop (08 Table 8.2). -/
inductive LState | idle | moving | regulating | held | braking | fault | learning
  deriving DecidableEq, Repr, Inhabited
/-- States of a network segment (12 Table 12.3). -/
inductive SegSt | sleep | validating | awake | ready | isolated | off
  deriving DecidableEq, Repr, Inhabited
/-- Power states of the module (02 R38). -/
inductive Power | off | park | watch | standby | run
  deriving DecidableEq, Repr, Inhabited
/-- Where CTL stands in its start-up (03 R67, Table 3.5; 14 R325, R326): without supply, held in reset by WNA, released with its
boot ROM and BIST, in the loader swapping, the firmware started, STANDBY reached, stuck in the boot ROM, in recovery. -/
inductive CtlPh | off | held | bist | swap | firmware | start | up | rom | recovery
  deriving DecidableEq, Repr, Inhabited
/-- Where MTIME runs (11 R261, R265): not at all, from CLK_TMR of CTL, in WNA, on ticks of CLK_LF. -/
inductive TSrc | off | ctl | wna | lf
  deriving DecidableEq, Repr, Inhabited
/-- Frames CTL and the dies exchange on a guyline (01 R16, R17, R19; 02 R43; 03 R64; 12 R285). -/
inductive GuyKind | command | ack | keepAlive | mirror | resetNotice | parkCommit | parkAbort
  deriving DecidableEq, Repr, Inhabited

/-- A symbol of a Lantern line, one a cell (09 Table 9.4): data 0 and 1, marker M, fill Z. -/
inductive LineSym
  | zero | one | mark | fill
  deriving DecidableEq, Repr, Inhabited

/-- What the module sends to the outside: the model's own record of it, latest first (log entry 2). -/
inductive Out
  /-- A completion entry written to a CQ (04 R97): function, queue, index, the four words. -/
  | completion (pf cq idx : Nat) (words : List Nat)
  /-- An event record written to an EQ (04 R99): function, index, the four words. -/
  | record (pf idx : Nat) (words : List Nat)
  /-- An MSI-X message (04 R101): function and vector. -/
  | msix (pf vec : Nat)
  /-- A write to a host buffer (04 R89): function, host address, bytes. -/
  | dma (pf addr : Nat) (bytes : List Nat)
  /-- A guyline frame: yard (4 for WNA), kind, sequence number or 0. -/
  | guy (yard : Nat) (kind : GuyKind) (seq : Nat)
  /-- A frame on a network segment or backbone port (12 R278): unit, key, bytes. -/
  | net (unit key : Nat) (bytes : List Nat)
  /-- A wake signal or a sleep request on a segment (12 R272 to R275): unit, 0 wake, 1 sleep. -/
  | busSignal (unit kind : Nat)
  /-- The cells a Lantern port drives for one sequence (09 R220 to R226): port, cells in the order of sending. -/
  | lantern (port : Nat) (cells : List LineSym)
  /-- A frame of the access front ends (13 Table 13.2): kind (0 LF challenge, 1 LF search, 2 TPC downlink), LF antennas that send it, number
  of bits, and the frame as a number, its first bit the most significant. -/
  | radio (kind ants bits frame : Nat)
  /-- A gPTP message (11 R262): port, kind (0 Sync, 1 Follow_Up, 2 Pdelay_Req, 3 Pdelay_Resp, 4 Pdelay_Resp_Follow_Up, 5 Announce), data. -/
  | gptp (port kind : Nat) (data : List Int)
  /-- WAKE# (02 R44): asserted or not. -/
  | wakePin (on : Bool)
  deriving DecidableEq, Repr, Inhabited

/-- Faults a step can stop with. The block takes no fault: every command has an effect, so no meaning raises `none_`. It stands
here because the host's interface asks for a type of faults. -/
inductive Fault
  /-- Raised by no command. Safe. -/
  | none_
  deriving DecidableEq, Repr, Inhabited

/-- Refusals. -/
inductive Refusal
  /-- The command has no meaning in this model: raised by an arm of `exec` only, never by a meaning. Safe. -/
  | notModelled (mnemonic : String)
  deriving DecidableEq, Repr, Inhabited


/-- An event as a block raises it (R99): source, class, payload, time. -/
structure Ev where
  /-- event source number (04 R99) -/
  src : Nat := 0
  /-- event class (04 Table 4.20) -/
  cls : Nat := 0
  /-- payload, byte 0 lowest (04 Table 4.19) -/
  pay : Nat := 0
  /-- MTIME of the event (04 R99) -/
  t : Nat := 0
  deriving DecidableEq, Repr, Inhabited

/-- A collapse counter of one source (R99 step 3). -/
structure Coll where
  /-- events counted, saturating at 255 (04 R99) -/
  cnt : Nat := 0
  /-- class of the latest event (04 R99) -/
  cls : Nat := 0
  /-- payload bytes 0 to 3 of the latest event (04 R99) -/
  pay : Nat := 0
  /-- MTIME of the latest event (04 R99) -/
  t : Nat := 0
  deriving DecidableEq, Repr, Inhabited

/-- Engine side of one submission queue (R83, R92, R95). -/
structure Sq where
  /-- last accepted SQn_TAIL (04 R85) -/
  tail : Nat := 0
  /-- index of the next descriptor to fetch (04 Table 4.7) -/
  head : Nat := 0
  /-- CFG_ERR (04 Table 4.7) -/
  cfgErr : Bool := false
  /-- DB_ERR (04 Table 4.7) -/
  dbErr : Bool := false
  /-- FENCE_WAIT (04 Table 4.7) -/
  fenceWait : Bool := false
  deriving DecidableEq, Repr, Inhabited

/-- Engine side of one completion queue (R83, R93, R101). -/
structure Cq where
  /-- last accepted CQm_HEAD (04 R85) -/
  head : Nat := 0
  /-- index of the next entry to write (04 Table 4.9) -/
  tail : Nat := 0
  /-- PHASE (04 Table 4.9) -/
  phase : Bool := true
  /-- CFG_ERR (04 Table 4.9) -/
  cfgErr : Bool := false
  /-- DB_ERR (04 Table 4.9) -/
  dbErr : Bool := false
  /-- slots reserved by fetched descriptors (04 R93) -/
  reserved : Nat := 0
  /-- a COAL_US window is open (04 R101) -/
  coalOpen : Bool := false
  /-- entries were posted inside the window (04 R101) -/
  coalHit : Bool := false
  deriving DecidableEq, Repr, Inhabited

/-- Engine side of the event queue (R83, R99). -/
structure Eq where
  /-- last accepted EQ_HEAD (04 R85) -/
  head : Nat := 0
  /-- index of the next record to write (04 Table 4.10) -/
  tail : Nat := 0
  /-- PHASE (04 Table 4.10) -/
  phase : Bool := true
  /-- CFG_ERR (04 Table 4.10) -/
  cfgErr : Bool := false
  /-- DB_ERR (04 Table 4.10) -/
  dbErr : Bool := false
  /-- COLLAPSING (04 Table 4.10) -/
  collapsing : Bool := false
  /-- records posted since the queue was enabled, modulo 65536 (04 Table 4.19) -/
  seq : Nat := 0
  /-- collapse counters by source (04 R99) -/
  cnt : UMap Coll := []
  deriving DecidableEq, Repr, Inhabited

/-- Round-robin turn of one priority class (R92). -/
structure Arb where
  /-- queue (16*function + n) that holds the turn (04 R92) DESIGN CHOICE of the reset value: log entry 11. -/
  cur : Nat := 31
  /-- descriptors left in the turn (04 R92) DESIGN CHOICE of the reset value: log entry 11. -/
  left : Nat := 0
  deriving DecidableEq, Repr, Inhabited

/-- Ring state of one function (R61, R82, R102, R390). -/
structure Ring where
  /-- HOST_LOST (04 Table 4.4) -/
  hostLost : Bool := false
  /-- heartbeat supervision runs (04 R102) -/
  supervised : Bool := false
  /-- instant of the last heartbeat (04 R102) -/
  lastHb : Nat := 0
  /-- HOST_TMO in force, ms (04 Table 4.3) -/
  tmo : Nat := 1000
  /-- host-loss episodes since CTL start (04 Table 4.14) -/
  episodes : Nat := 0
  /-- submission queues (04 R82) -/
  sqs : UMap Sq := []
  /-- completion queues (04 R82) -/
  cqs : UMap Cq := []
  /-- event queue (04 R82) -/
  eq : Eq := {}
  /-- events held until the EQ is enabled (04 R391) -/
  held : List Ev := []
  /-- more than 1,024 events: further ones collapse (04 R391) -/
  heldOver : Bool := false
  /-- MTIME of the first event beyond 1,024 (04 R391) -/
  heldOverT : Nat := 0
  /-- collapse counters of the events beyond 1,024 (04 R391) -/
  heldCnt : UMap Coll := []
  /-- MSI-X pending bit array (04 Table 4.2) -/
  pba : Nat := 0
  /-- Bus Master Enable (04 R390) -/
  bme : Bool := false
  /-- MSI-X Enable (04 R390) -/
  msixEn : Bool := false
  /-- MSI-X Function Mask (04 R390) -/
  fmask : Bool := false
  /-- the host has set Bus Master Enable and MSI-X Enable and cleared Function Mask since the last reset (04 R390) -/
  hostUp : Bool := false
  /-- D-state D3hot (04 Table 4.1) -/
  d3 : Bool := false
  /-- RING_CTRL.EN set since the last wake (12 R284) -/
  enSinceWake : Bool := false
  /-- HEARTBEAT doorbell written since the last wake (12 R284) -/
  hbSinceWake : Bool := false
  /-- the rest of the configuration space that the host writes (04 R78, R390) -/
  cs : CfgSpace := {}
  deriving DecidableEq, Repr, Inhabited

/-- A fetched descriptor with its reserved slot (R93, R95, R96). -/
structure Job where
  /-- fetch order (04 R95) -/
  id : Nat := 0
  /-- header (04 Table 4.13) -/
  h : Hdr := {}
  /-- the descriptor (04 Table 4.15) -/
  op : Instr := .nop {}
  /-- BLOCK (04 Table 4.13) -/
  blk : Nat := 0
  /-- UNIT (04 Table 4.13) -/
  unit : Nat := 0
  /-- the CQ on which its slot is reserved (04 R93) -/
  cq : Nat := 0
  /-- fetched before a host link reset: its completion is dropped (03 R61) -/
  drop : Bool := false
  /-- an AT_TIME descriptor that waits for its time (04 R96) -/
  waiting : Bool := false
  /-- waits for the end of an intrusive self-test of its unit (15 R349) -/
  held : Bool := false
  /-- ns by which it is released before its AT_TIME (LAMP_LATCH, GSTART: 11 R260) (09 R229) -/
  lead : Nat := 0
  /-- version of the node table at fetch (LAMP_FRAME) (09 Table 9.7) -/
  aux : Nat := 0
  /-- guylines and sequence numbers of its commands not yet acknowledged (01 R18, 05 R136) -/
  unack : List (Nat × Nat) := []
  /-- status, result and MTIME held until the acknowledgement (01 R18) -/
  outc : Option (Nat × Nat × Nat) := none
  /-- its unit is being disabled: it completes in its turn, with this RESULT (04 R105) -/
  turn : Option Nat := none
  deriving DecidableEq, Repr, Inhabited

/-- A command frame in flight on a guyline (R17, R18). -/
structure Frame where
  /-- sequence number (01 R17) -/
  seq : Nat := 0
  /-- transmissions made so far (01 R18) -/
  tx : Nat := 1
  /-- BAR0 offset of a configuration write, 0 for a descriptor command (16 R356) -/
  off : Nat := 0
  /-- value of a configuration write (16 R356) -/
  val : Nat := 0
  /-- received by the yard (01 R17) -/
  rx : Bool := false
  /-- executed by the yard (01 R17) -/
  done : Bool := false
  /-- acknowledged, while an earlier command is still missing (01 R17) -/
  ack : Bool := false
  /-- descriptor, and step of a sequence, whose command it carries (01 R17, 07 R179) -/
  who : Option (Nat × Option Nat) := none
  deriving DecidableEq, Repr, Inhabited

/-- A result a yard reports in its mirror (R19). -/
structure YRes where
  /-- descriptor (01 R19) -/
  job : Nat := 0
  /-- status (04 R97) -/
  st : Nat := 0
  /-- result (04 R97) -/
  res : Nat := 0
  /-- the step, where the descriptor is a VALVE_SEQ (07 R179) -/
  step : Option Nat := none
  /-- MTIME of the effect (04 R97) -/
  t : Nat := 0
  deriving DecidableEq, Repr, Inhabited

/-- One yard: its halter, and CTL's view of its guyline (R16 to R24). -/
structure Yard where
  /-- the halter is supplied (01 R21) -/
  supplied : Bool := false
  /-- CLEARED flag (03 R67) -/
  cleared : Bool := false
  /-- the halter declares CTL absent (01 R22) -/
  ctlAbsent : Bool := false
  /-- the halter watchdog is armed (02 R43) -/
  wdArmed : Bool := false
  /-- CTL has declared the yard unreachable (01 R20) -/
  unreach : Bool := false
  /-- adoption in progress (03 R68) -/
  adopting : Bool := false
  /-- adopted since the last start: keep-alives are sent (03 R67) -/
  adopted : Bool := false
  /-- adoption result (03 Table 3.6) -/
  res : Nat := 0
  /-- a deferred change is pending (03 Table 3.6) -/
  conflict : Bool := false
  /-- the running adoption has read the halter back (03 R68) -/
  readback : Bool := false
  /-- outputs (event sources) to reapply when the running adoption ends (03 R70) -/
  redo : List Nat := []
  /-- outputs with a change deferred until they are next off (03 R70) -/
  defer : List Nat := []
  /-- a yard reset is in progress (03 R72) -/
  resetting : Bool := false
  /-- next sequence number CTL issues (01 R17) -/
  nextSeq : Nat := 0
  /-- next sequence number the yard executes (01 R17) -/
  nextExec : Nat := 0
  /-- commands issued and not yet acknowledged (01 R17) -/
  frames : List Frame := []
  /-- events since the last mirror, oldest first (01 R19) -/
  evq : List Ev := []
  /-- events in the mirror sent, not yet received (01 R19) -/
  evTx : List Ev := []
  /-- results since the last mirror (01 R19) -/
  results : List YRes := []
  /-- results in the mirror sent, not yet received (01 R19) -/
  resTx : List YRes := []
  /-- a mirror is in transit (01 R19) -/
  mirrorUp : Bool := false
  /-- the feed is in lock-out, in the VBAT48 off band or below (02 R31) -/
  lockout : Bool := false
  /-- class 1 is shed (02 R50) -/
  shed1 : Bool := false
  /-- class 2 is shed (02 R50) -/
  shed2 : Bool := false
  /-- class 3 is shed (02 R50) -/
  shed3 : Bool := false
  /-- outputs (event sources) waiting for a restore slot, in order (02 R51) -/
  restoreQ : List Nat := []
  /-- receiver equaliser step (15 Table 15.3) DESIGN CHOICE of the reset value: log entry 3. -/
  eqStep : Nat := 0
  deriving DecidableEq, Repr, Inhabited

/-- A supply feed (R29 to R33). -/
structure Feed where
  /-- measured voltage, mV (02 R31) DESIGN CHOICE of the reset value: log entry 3. -/
  mv : Int := 0
  /-- band code, 0 Loss (02 R58) -/
  band : Nat := 0
  /-- lock-out or off band not yet left by its dwell (02 R32) -/
  dwell : Bool := false
  /-- consecutive 1 ms values above the limit (02 R56) -/
  overN : Nat := 0
  /-- OVER_LIMIT raised, BELOW_LIMIT not yet (02 R56) -/
  overRaised : Bool := false
  /-- I_feed of the last 1 ms block, mA (02 R54) DESIGN CHOICE of the reset value: log entry 3. -/
  iMa : Nat := 0
  deriving DecidableEq, Repr, Inhabited

/-- A budget reservation (R54, R55). -/
structure Resv where
  /-- grant order (02 R54) -/
  id : Nat := 0
  /-- feed (02 R54) -/
  feed : Nat := 0
  /-- reserved current, mA (02 Table 2.14) -/
  dI : Nat := 0
  /-- reserved dissipation, mW (02 Table 2.14) -/
  dP : Nat := 0
  deriving DecidableEq, Repr, Inhabited

/-- The power budget manager (R54 to R57). -/
structure Budget where
  /-- P_module of the last 1 ms block, mW (02 R54) DESIGN CHOICE of the reset value: log entry 3. -/
  pMw : Nat := 0
  /-- consecutive values above DISS_LIMIT (02 R56) -/
  overN : Nat := 0
  /-- OVER_LIMIT raised for the dissipation (02 R56) -/
  overRaised : Bool := false
  /-- reservations in force, oldest first (02 R54) -/
  resv : List Resv := []
  /-- next reservation (02 R54) -/
  nextId : Nat := 0
  /-- clamp energy of the turn-offs of the present millisecond, µJ (02 R54) -/
  clampUj : Nat := 0
  deriving DecidableEq, Repr, Inhabited

/-- The SAFE_DELAY count of one output (R22, R104). -/
structure Safe where
  /-- the count runs (01 R22) -/
  running : Bool := false
  /-- instant the count started (01 R22) -/
  start : Nat := 0
  /-- the safe state was reached since a trigger came into force (01 R22) -/
  reached : Bool := false
  /-- the SAFE action of a stall waits for the end of its cross-check (06 Table 6.20) -/
  due : Bool := false
  deriving DecidableEq, Repr, Inhabited

/-- One stall as its halter holds it (R21, R140, R141). -/
structure Stall where
  /-- protection state (06 Table 6.1) -/
  st : PState := .off
  /-- requested state (06 R145) -/
  req : Bool := false
  /-- PWM duty in force; 0 or 0x10000: no PWM (05 R129) -/
  duty : Nat := 0
  /-- duty to apply from the next row wrap (05 R130) -/
  dutyNew : Option Nat := none
  /-- PWM phase in force: the reset phase of R129 is loaded at halter power-on (05 R129) -/
  phase : Nat := 0
  /-- phase to apply from the next row wrap (05 R130) -/
  phaseNew : Option Nat := none
  /-- the output is driven on (01 R19) -/
  out : Bool := false
  /-- a turn-off is in progress (06 R147) -/
  falling : Bool := false
  /-- the turn-off uses 10 V/us (06 Table 6.2) -/
  fast : Bool := false
  /-- ATT (06 R141) -/
  att : Nat := 0
  /-- TH (06 R141) -/
  th : Nat := 0
  /-- FB (06 R141) -/
  fb : Bool := false
  /-- the first attempt of the episode is in progress or due (05 R118) -/
  first : Bool := false
  /-- SLEW_FIRST of the episode (05 R118) -/
  slewFirst : Bool := false
  /-- a turn-on episode is open (05 R113) -/
  episode : Bool := false
  /-- the episode has passed its window: a later retry applies the curve again (05 R114) -/
  wasOn : Bool := false
  /-- curve of the episode (T_US, MULT), empty for NONE (05 R117) -/
  curve : List (Nat × Nat) := []
  /-- instant the output started to rise (05 R114) -/
  tOn : Nat := 0
  /-- LATCH_RETRY (06 R141) -/
  latchRetry : Bool := false
  /-- LATCH_TH (06 R141) -/
  latchTh : Bool := false
  /-- LATCH_WIRE (06 R141) -/
  latchWire : Bool := false
  /-- instant the pause timer expires (06 R141) -/
  pauseEnd : Nat := 0
  /-- limit cap the attempt started with, 0.1 A; 1023 none (06 R148) -/
  limCap : Nat := 1023
  /-- ceiling cap the attempt started with (06 R148) -/
  ceilCap : Nat := 1023
  /-- retry cap the attempt started with (06 R148) -/
  retryCap : Nat := 15
  /-- STALL_PROT fields RETRY_N, TH_M, OC_FILT in force for the attempt (06 Table 6.13) -/
  protA : Nat := 0x000A0187
  /-- L(t) of the last sense sample, mA (05 R115) DESIGN CHOICE of the reset value: log entry 3. -/
  limNow : Nat := 0
  /-- sensed current, mA (05 R133) DESIGN CHOICE of the reset value: log entry 3. -/
  iMa : Int := 0
  /-- sensed output voltage, mV (05 R133) DESIGN CHOICE of the reset value: log entry 3. -/
  vMv : Int := 0
  /-- junction temperature, m°C (05 R133) DESIGN CHOICE of the reset value: log entry 3. -/
  tj : Int := 25000
  /-- consecutive samples at or above the static threshold (06 Table 6.2) -/
  tHot : Nat := 0
  /-- consecutive samples at or above the dynamic threshold (06 Table 6.2) -/
  tDyn : Nat := 0
  /-- wire model rise, K (05 R121) -/
  rise : Rat := 0
  /-- rise at the wire trip, while the model has not re-armed (05 R122) -/
  wireWait : Option Rat := none
  /-- OPEN_LOAD (06 Table 6.16) -/
  openLoad : Bool := false
  /-- SHORT_VBAT (06 Table 6.16) -/
  shortVbat : Bool := false
  /-- ON_LOW_CURRENT (06 Table 6.16) -/
  onLow : Bool := false
  /-- SHORT_GND (06 Table 6.16) -/
  shortGnd : Bool := false
  /-- verdict of the latest off-state measurements: 0 NORMAL, 1 OPEN_LOAD, 2 SHORT_VBAT (06 R149) -/
  dgKind : Nat := 0
  /-- consecutive measurements that agreed (06 R149) -/
  dgCnt : Nat := 0
  /-- cross table entries, bit n for stall n (06 R153) -/
  cross : Nat := 0
  /-- TRIPS (06 Table 6.17) -/
  trips : Nat := 0
  /-- THERMAL (06 Table 6.17) -/
  thermal : Nat := 0
  /-- cause of the last trip (06 Table 6.9) -/
  lastCause : Nat := 0
  /-- MTIME of the last trip (06 Table 6.9) -/
  lastT : Nat := 0
  /-- off-state diagnosis stopped by a running cross-check (06 R152) -/
  crossTest : Bool := false
  /-- an intrusive self-test runs on the stall (15 R349) -/
  testing : Bool := false
  /-- wear units since the halter was cleared or last committed (15 R341) -/
  wear : Nat := 0
  /-- AGE_CAP raised for the present limit (bit 0), retry (1) and thermal cap (2) (06 R148) -/
  capSeen : Nat := 0
  /-- pending STALL_SET, or STALL_PWM that acts as one (05 R135) -/
  job : Option Nat := none
  /-- the pending descriptor is a STALL_PWM (05 R135) -/
  jobPwm : Bool := false
  /-- STALL_PWM waiting for their duty to take effect (05 R135) -/
  jobsP : List Nat := []
  /-- the duty to apply was raised under the TMIN rule (05 R131) -/
  clampP : Bool := false
  /-- the last attempt used the fall-back turn-on (05 Table 5.7) -/
  rampUsed : Bool := false
  /-- a slot change deferred until the stall is off (05 R117) -/
  slotNew : Option Nat := none
  /-- off time of a feed cycle (12 R283) -/
  cycling : Bool := false
  /-- in PWM, the output stays on from the ramp until the next period start (05 R120) -/
  rampHold : Bool := false
  /-- in PWM, the attempt's turn-on waits for its pulse (05 R130) -/
  pulseDue : Bool := false
  /-- STALL_DIAG that wait for their measurement: job, record address (06 Table 6.8) -/
  diagJobs : List (Nat × Nat) := []
  /-- configuration signature held in the halter (03 R69) -/
  sig : Nat := 0
  /-- turn-offs that wait for the output to fall, and whether each is a STALL_PWM (05 R135) -/
  offJobs : List (Nat × Bool) := []
  /-- verdict reported last, none after a clear of the flags (06 R151) -/
  dgRep : Option Nat := none
  /-- limit cap received from CTL, 0.1 A (06 R148) -/
  kLim : Nat := 1023
  /-- ceiling cap received from CTL, 0.1 A (06 R148) -/
  kCeil : Nat := 1023
  /-- thermal cap received from CTL, °C (06 R148) -/
  kTsd : Nat := 255
  /-- retry cap received from CTL (06 R148) -/
  kRetry : Nat := 15
  /-- temperature about which Tj has stayed within ±1 K, m°C (15 Table 15.1) (15 Table 15.1) DESIGN CHOICE of the reset value: log entry 3. -/
  tjRef : Int := 25000
  /-- instant since which it has (15 Table 15.1) -/
  tjT : Nat := 0
  deriving DecidableEq, Repr, Inhabited

/-- One row's PWM period counter (R128). -/
structure Row where
  /-- aligned by a GSTART since the last CTL absence (05 R128) -/
  aligned : Bool := false
  /-- instant of the last wrap or restart (05 R128) -/
  start : Nat := 0
  /-- sense-reference temperature, m°C (06 Table 6.2) DESIGN CHOICE of the reset value: log entry 3. -/
  ref : Int := 25000
  /-- ROW_CFG in force: PERIOD, PAIR and QUAD applied so far (05 Table 5.19) -/
  cfg : Nat := 0x1388
  deriving DecidableEq, Repr, Inhabited

/-- A running STALL_CROSSCHECK (R152). -/
structure Cross where
  /-- descriptor (06 R152) -/
  job : Nat := 0
  /-- MASK (06 Table 6.10) -/
  mask : Nat := 0
  /-- stalls not yet pulsed, ascending (06 R152) -/
  todo : List Nat := []
  /-- stalls pulsed (06 R152) -/
  pulsed : Nat := 0
  /-- CROSS(i, j) (06 R152) -/
  found : List (Nat × Nat) := []
  /-- stalls not pulsed, or whose pulse ended in a trip (06 Table 6.10) -/
  missed : Nat := 0
  /-- step 1 passed (06 R152) -/
  started : Bool := false
  deriving DecidableEq, Repr, Inhabited

/-- One valve channel (R163 to R181). -/
structure Valve where
  /-- phase (07 Table 7.2) -/
  phase : VPhase := .idle
  /-- peak target of the fire, 10 mA (07 Table 7.6) -/
  ipk : Nat := 0
  /-- hold target of the fire, 10 mA (07 Table 7.6) -/
  ihold : Nat := 0
  /-- HOLD_MS of the fire (07 Table 7.6) -/
  holdMs : Nat := 0
  /-- pending VALVE_FIRE, or VALVE_SEQ and its step (07 R178, R179) -/
  who : Option (Nat × Option Nat) := none
  /-- RELEASE waiting for the end of END (07 R178) -/
  relWho : List (Nat × Option Nat) := []
  /-- VALVE_CHOP of the fire (07 R181) -/
  chop : Nat := 0x000A0A14
  /-- the fire names its I_PEAK (07 R172) -/
  expl : Bool := false
  /-- I_PEAK has been reached (07 R165) -/
  reached : Bool := false
  /-- instant of the request (07 R171) -/
  tReq : Nat := 0
  /-- instant of admission (07 R168) -/
  tAdm : Nat := 0
  /-- T_RISE, 10 us (07 Table 7.6) -/
  tRise : Nat := 0
  /-- the fire met PEAK_TIMEOUT (07 R168) -/
  pkTmo : Bool := false
  /-- ended by RELEASE (07 Table 7.6) -/
  released : Bool := false
  /-- DEFER_WAIT, us (07 Table 7.6) -/
  waited : Nat := 0
  /-- status the fire completes with when END finishes (07 R178) -/
  endSt : Nat := 0
  /-- END uses fast decay (07 R167) -/
  fastEnd : Bool := false
  /-- I_PEAK clamped to PEAK_BUDGET (07 R172) -/
  clamped : Bool := false
  /-- channel latch (07 Table 7.11) -/
  latched : Bool := false
  /-- LATCH_CAUSE (07 Table 7.11) -/
  latchCause : Nat := 0
  /-- OPEN_LOAD (07 Table 7.11) -/
  openLoad : Bool := false
  /-- SHORT_GND (07 Table 7.11) -/
  shortGnd : Bool := false
  /-- SHORT_VBAT (07 Table 7.11) -/
  shortVbat : Bool := false
  /-- verdict of the latest off-state measurements (07 R175) -/
  dgKind : Nat := 0
  /-- consecutive measurements that agreed (07 R175) -/
  dgCnt : Nat := 0
  /-- active time per bin, ns, newest first (07 R173) -/
  bins : List Nat := []
  /-- instant up to which active time is in the bins (07 R173) -/
  actT : Nat := 0
  /-- coil current, mA (07 R180) DESIGN CHOICE of the reset value: log entry 3. -/
  iMa : Int := 0
  /-- an intrusive self-test runs (15 R349) -/
  testing : Bool := false
  /-- wear units (15 R341) -/
  wear : Nat := 0
  /-- signature held in the halter (03 R69) -/
  sig : Nat := 0
  /-- VALVE_DUTY of the fire (07 R181) -/
  dutyCfg : Nat := 0x0000640A
  /-- the fire has been admitted to PEAK (07 R170) -/
  adm : Bool := false
  /-- the low side is on (07 R164) -/
  ls : Bool := false
  /-- instant of the low side's latest switching (07 R166) -/
  lsT : Nat := 0
  /-- VALVE_POLICY of the fire (07 R181) -/
  pol : Nat := 0x00022000
  deriving DecidableEq, Repr, Inhabited

/-- One valve group (R170, R175). -/
structure VGroup where
  /-- HS_ON (07 Table 7.12) -/
  hsOn : Bool := false
  /-- GRP_LATCH (07 Table 7.12) -/
  latch : Bool := false
  /-- deferred channels, oldest first (07 R171) -/
  queue : List Nat := []
  deriving DecidableEq, Repr, Inhabited

/-- A step of a running VALVE_SEQ (Table 7.8). -/
structure VStep where
  /-- CHANNEL (07 Table 7.8) -/
  ch : Nat := 0
  /-- RELEASE (07 Table 7.8) -/
  rel : Bool := false
  /-- HOLD_MS (07 Table 7.8) -/
  hold : Nat := 0
  /-- DELAY_US (07 Table 7.8) -/
  delay : Nat := 0
  /-- the step's instant has come (07 R179) -/
  fired : Bool := false
  /-- status recorded (07 R179) -/
  st : Option Nat := none
  /-- the step's fire was admitted, or its RELEASE taken (07 R179) -/
  done : Bool := false
  deriving DecidableEq, Repr, Inhabited

/-- A running VALVE_SEQ, held in CTL (R179). -/
structure VSeq where
  /-- descriptor (07 R179) -/
  job : Nat := 0
  /-- steps (07 R179) -/
  steps : List VStep := []
  /-- TRIG_TC when TRIG_EN = 1 (07 R179) -/
  trig : Option Nat := none
  /-- execution instant (07 R179) -/
  t0 : Nat := 0
  /-- MTIME of the zero steps of TRIG_TC since execution, oldest first (07 R179) -/
  zeros : List Nat := []
  deriving DecidableEq, Repr, Inhabited

/-- One Bridle loop and its bridge (R183 to R205). -/
structure Loop where
  /-- state (08 Table 8.2) -/
  st : LState := .idle
  /-- state to which HOLD with RESUME returns (08 R194) DESIGN CHOICE of the reset value: log entry 3. -/
  prev : LState := .moving
  /-- MODE of the move (08 Table 8.6) -/
  mode : Nat := 0
  /-- END of the move (08 Table 8.6) -/
  endAct : Nat := 0
  /-- REF of the move (08 Table 8.6) -/
  ref : Bool := false
  /-- TARGET (08 Table 8.6) -/
  target : Int := 0
  /-- VMAX of the move, counts/s (08 Table 8.6) -/
  vmax : Nat := 0
  /-- TOL (08 Table 8.6) -/
  tol : Nat := 2
  /-- SETTLE (08 Table 8.6) -/
  settle : Nat := 10
  /-- consecutive settled samples (08 R202) -/
  settled : Nat := 0
  /-- profile_done (08 R191) -/
  profDone : Bool := false
  /-- the profile has reached constant velocity (08 R199) -/
  cruise : Bool := false
  /-- profile position, counts with 16 fractional bits (08 R188) -/
  p : Int := 0
  /-- profile velocity, counts/s with 16 fractional bits (08 R188) -/
  v : Int := 0
  /-- profile acceleration, counts/s^2 with 16 fractional bits (08 R188) -/
  a : Int := 0
  /-- i_acc, Q16.16 (08 R189) -/
  iAcc : Int := 0
  /-- d, Q16.16 (08 R189) -/
  d : Int := 0
  /-- e_prev, Q16.16 (08 R189) -/
  ePrev : Int := 0
  /-- duty of the last sample, Q16.16 (08 R189) -/
  duty : Int := 0
  /-- duty applied at the bridge (08 R187) -/
  dutyOut : Int := 0
  /-- u of the last sample, Q16.16 (08 R189) -/
  u : Int := 0
  /-- the next sample presets i_acc (08 R194) -/
  bumpless : Bool := false
  /-- sticky flags SAT_P, I, D, FF, OUT, MODEL from bit 0 (08 R190) -/
  sat : Nat := 0
  /-- t_prev: instant of the last sample, or of the start (08 R189) -/
  tPrev : Nat := 0
  /-- a sample is in progress (08 R186) -/
  sample : Bool := false
  /-- a duty is on its way to the bridge (08 R187) -/
  sent : Bool := false
  /-- sample instant (08 R186) -/
  sampT : Nat := 0
  /-- MISSED (08 Table 8.12) -/
  missed : Nat := 0
  /-- LATE (08 Table 8.12) -/
  late : Nat := 0
  /-- a sample was missed since the last taken one (08 R203) -/
  missRun : Bool := false
  /-- position count (08 R196) -/
  pos : Int := 0
  /-- POS_UNCERTAIN (08 R197) -/
  posUnc : Bool := false
  /-- consecutive filled counts (08 R197) -/
  fills : Nat := 0
  /-- ILIM_ACTIVE (08 R184) -/
  ilimAct : Bool := false
  /-- CURRENT_LIMIT raised for the present limiting (08 R203) -/
  limRaised : Bool := false
  /-- bridge current of the sample, mA (08 R186) DESIGN CHOICE of the reset value: log entry 3. -/
  iMa : Int := 0
  /-- bridge current of the sample before, mA (08 R195) DESIGN CHOICE of the reset value: log entry 3. -/
  iPrev : Int := 0
  /-- terminal voltage of the sample, mV (08 R186) DESIGN CHOICE of the reset value: log entry 3. -/
  vtMv : Int := 0
  /-- supply voltage of the sample, mV (08 R186) DESIGN CHOICE of the reset value: log entry 3. -/
  vbMv : Int := 0
  /-- measured velocity, counts/s (08 R196) DESIGN CHOICE of the reset value: log entry 3. -/
  wMeas : Int := 0
  /-- residual r, counts/s (08 R195) -/
  resid : Int := 0
  /-- consecutive failing samples (08 R195) -/
  badRun : Nat := 0
  /-- consecutive pinch samples (08 R199) -/
  pinchRun : Nat := 0
  /-- the pinch brake or reverse is running (08 R199) -/
  pinched : Bool := false
  /-- the pinch reverse is moving (08 R199) -/
  reversing : Bool := false
  /-- the running brake is the 20 ms one (08 R199) -/
  brakeShort : Bool := false
  /-- the running brake ends in FAULT (08 R195) -/
  toFault : Bool := false
  /-- STOP RAMP decelerates (08 Table 8.7) -/
  stopping : Bool := false
  /-- winding rise, K (08 R195) -/
  tw : Rat := 0
  /-- coefficients in use (08 Table 8.4) -/
  coefs : UMap Nat := []
  /-- queued pairs: index, value, descriptor (08 R193) -/
  coefQ : List (Nat × Nat × Nat) := []
  /-- SEQ of the sample that applied the first pair (08 Table 8.8) -/
  coefFirst : Nat := 0
  /-- ref[b], 10 mA (08 R200) -/
  tabRef : List Nat := []
  /-- V_learn[b], 10 mV (08 R200) -/
  tabV : List Nat := []
  /-- TABLE_VALID (08 Table 8.12) -/
  tabValid : Bool := false
  /-- per bin of the run: sum of |I| mA, sum of vb mV, samples (08 R200) -/
  binSum : UMap (Int × Int × Nat) := []
  /-- step of a LEARN RUN (08 R200) -/
  learnPh : Nat := 0
  /-- FAULT_CAUSE (08 Table 8.12) -/
  fault : Nat := 0
  /-- latch held in the YD halter (08 R184) -/
  latch : Bool := false
  /-- pending MOVE or LEARN (08 R202) -/
  job : Option Nat := none
  /-- pending STOP: descriptor, result (08 R202) -/
  stopJobs : List (Nat × Nat) := []
  /-- COEF_WRITE of the pair applied last (08 Table 8.8) -/
  coefCur : Option Nat := none
  /-- index of the pair applied in the sample (08 Table 8.11) -/
  coefIdx : Option Nat := none
  /-- counted steps, fills not included (08 R197) -/
  cnt : Int := 0
  /-- counted steps at the sample (08 R196) -/
  cntS : Int := 0
  /-- counted steps at the sample before (08 R196) -/
  cntP : Int := 0
  /-- position at the sample (08 R186) -/
  posS : Int := 0
  /-- estimated velocity, Q16.16 kcounts/s (08 R197) -/
  wEst : Int := 0
  /-- coast run-on since the loop became IDLE, counts (08 R197) -/
  runOn : Rat := 0
  /-- the MOVE closes (08 R199) -/
  closing : Bool := false
  /-- last learned ref[b], 10 mA (08 R200) -/
  tabLearn : List Nat := []
  /-- samples since CTL start (08 Table 8.11) -/
  seq : Nat := 0
  /-- next telemetry record (08 R204) -/
  tlmIdx : Nat := 0
  /-- an intrusive self-test runs (15 R349) -/
  testing : Bool := false
  /-- signature held in the halter (03 R69) -/
  sig : Nat := 0
  /-- TARGET of the MOVE, of which ERR is reckoned (08 Table 8.6) -/
  moveTgt : Int := 0
  /-- a sample has been taken since CTL start (08 R186) -/
  sampled : Bool := false
  /-- the DUTY MOVE whose duty is on its way to the bridge (08 R202) -/
  dutyJob : Option Nat := none
  /-- MTIME of the last sample, or of the start (08 R186) -/
  missT : Nat := 0
  /-- samples missed since then (08 R186) -/
  missK : Nat := 0
  /-- instant of the last counted edge, ns (08 R196) -/
  edgeT : Nat := 0
  /-- interval of the last two counted edges with its sign, ns; 0: fewer than two (08 R196) -/
  edge : Int := 0
  /-- instant at which ILIM_ACTIVE was last seen, ns (08 R184) -/
  ilimT : Nat := 0
  deriving DecidableEq, Repr, Inhabited

/-- One boost stage (R208 to R212). -/
structure Boost where
  /-- set-point, mV (09 R208) DESIGN CHOICE of the reset value: log entry 3. -/
  vset : Int := 0
  /-- output voltage, mV (09 Table 9.12) DESIGN CHOICE of the reset value: log entry 3. -/
  vout : Int := 0
  /-- input current, mA (09 Table 9.12) DESIGN CHOICE of the reset value: log entry 3. -/
  iin : Int := 0
  /-- RUNNING (09 Table 9.12) -/
  running : Bool := false
  /-- share factor in 1/256 (09 R211) -/
  k : Nat := 256
  /-- INLIM (09 Table 9.12) -/
  inlim : Bool := false
  /-- AT_CEILING (09 Table 9.12) -/
  ceil : Bool := false
  /-- ms for which the demand has been clamped (09 R209) -/
  clampMs : Nat := 0
  /-- OV (09 Table 9.12) -/
  ov : Bool := false
  /-- BOOST_SHORT (09 Table 9.12) -/
  short : Bool := false
  /-- BOOST_CFG in force since the last start (09 Table 9.12) -/
  cfg : Nat := 0x00181882
  /-- included sinks of the last update (09 R208) -/
  incl : Nat := 0
  /-- signature held in the halter (03 R69) -/
  sig : Nat := 0
  /-- the stage switches (09 R208) -/
  sw : Bool := false
  /-- BOOST_POLICY in force since the last start (09 R233) -/
  pol : Nat := 0
  deriving DecidableEq, Repr, Inhabited

/-- One LED sink (R213 to R217). -/
structure Sink where
  /-- I_SET in force (09 R213) -/
  iSet : Nat := 0
  /-- DIM in force (09 R215) -/
  dim : Nat := 0
  /-- I_SET and DIM to apply from the next period (09 R215) -/
  new : Option (Nat × Nat) := none
  /-- requested on (02 Table 2.13) -/
  req : Bool := false
  /-- ON (09 Table 9.12) -/
  on : Bool := false
  /-- turned off by shedding, restore due (02 Table 2.13) -/
  shed : Bool := false
  /-- off by the thermal rule (09 R214) -/
  hot : Bool := false
  /-- OPEN_STRING (09 R210) -/
  openS : Bool := false
  /-- on-time with both conditions, us (09 R210) -/
  openUs : Nat := 0
  /-- last headroom sample, mV (09 R208) DESIGN CHOICE of the reset value: log entry 3. -/
  head : Int := 0
  /-- instant of the headroom sample (09 R208) -/
  headT : Nat := 0
  /-- f_T in 1/256 (09 R216) -/
  fT : Nat := 256
  /-- derating temperature, m°C; TEMP resets to 0, which stands for -50 °C (09 Table 9.12) -/
  temp : Int := -50000
  /-- NTC_FAULT (09 Table 9.12) -/
  ntcFault : Bool := false
  /-- VF_NOCAL (09 Table 9.12) -/
  nocal : Bool := false
  /-- carry of the partial pulse, us (09 R215) -/
  carry : Rat := 0
  /-- pulses laid out for the period: start and on-time, us (09 R215) -/
  pattern : List (Rat × Rat) := []
  /-- VF0, mV (09 Table 9.12) -/
  vf0 : Nat := 0
  /-- RS, mOhm (09 Table 9.12) -/
  rs : Nat := 0
  /-- T_CAL, °C (09 Table 9.12) -/
  tCal : Int := 0
  /-- VALID (09 Table 9.12) -/
  valid : Bool := false
  /-- running calibration (09 R217) -/
  calJob : Option Nat := none
  /-- pending SINK_SET, oldest first (09 R231) -/
  jobs : List Nat := []
  /-- SINK_CFG in force since the last turn-on (09 Table 9.12) -/
  cfg : Nat := 0x0002000F
  /-- SINK_DERATE in force since the last turn-on (09 Table 9.12) -/
  derate : Nat := 0x00407D55
  /-- an intrusive self-test runs (15 R349) -/
  testing : Bool := false
  /-- signature held in the halter (03 R69) -/
  sig : Nat := 0
  /-- SINK_POLICY in force since the last turn-on (09 R233) -/
  pol : Nat := 0
  /-- SINK_VF in force since the last turn-on or calibration (09 R233) -/
  vfCfg : Nat := 0x0280F830
  /-- pulses of the running calibration, 200 us each: start in us, code (09 R217) -/
  calPulses : List (Nat × Nat) := []
  deriving DecidableEq, Repr, Inhabited

/-- One NTC input (R216). -/
structure Ntc where
  /-- temperature, m°C; TEMP resets to 0, which stands for -50 °C (09 Table 9.12) -/
  temp : Int := -50000
  /-- OPEN (09 Table 9.12) -/
  open_ : Bool := false
  /-- SHORT (09 Table 9.12) -/
  short : Bool := false
  deriving DecidableEq, Repr, Inhabited

/-- The LED matrix (R218, R219). -/
structure Matrix where
  /-- frame shown (09 R219) -/
  frame : List Nat := []
  /-- frame to show from the next ML0 slot (09 R219) -/
  next : Option (List Nat) := none
  /-- pending MATRIX_FRAME, oldest first (09 R231) -/
  nextJobs : List Nat := []
  /-- MX_CFG in force since the last new frame (09 Table 9.12) -/
  cfg : Nat := 0x140800F2
  /-- a slot has started since scanning began (09 R218) -/
  started : Bool := false
  /-- SCANNING (09 Table 9.12) -/
  scanning : Bool := false
  /-- BLANKED (09 Table 9.12) -/
  blanked : Bool := false
  /-- blanked by shedding, restore due (02 Table 2.13) -/
  shed : Bool := false
  /-- LINE_SHORT (09 Table 9.12) -/
  short : Bool := false
  /-- LINE (09 Table 9.12) -/
  shortLine : Nat := 0
  /-- line of the present slot (09 R218) -/
  line : Nat := 0
  /-- COLOPEN (09 Table 9.12) -/
  colOpen : Nat := 0
  /-- columns that held ICOL in some pulse of the frame (09 R219) -/
  held : Nat := 0
  /-- columns with a non-zero pulse in the frame (09 R219) -/
  used : Nat := 0
  /-- signature held in the halter (03 R69) -/
  sig : Nat := 0
  /-- MX_POLICY in force since the last new frame (09 R233) -/
  pol : Nat := 0x00022000
  /-- instant at which the present line slot began (09 R218) -/
  slotT : Nat := 0
  /-- columns that conduct in the present slot, with their on-times from the start of its active time, us (09 R218) -/
  pulses : List (Nat × Rat) := []
  deriving DecidableEq, Repr, Inhabited

/-- One Lantern port (R220 to R229). -/
structure Port where
  /-- node table: descriptor word, last status word (09 R225) -/
  table_ : List (Nat × Nat) := []
  /-- TABLE_VALID (09 Table 9.12) -/
  valid : Bool := false
  /-- BREAK (09 Table 9.12) -/
  brk : Bool := false
  /-- BREAK_AT (09 Table 9.12) -/
  brkAt : Nat := 0
  /-- CRC_ERR (09 Table 9.12) -/
  crcErr : Nat := 0
  /-- RET_ERR (09 Table 9.12) -/
  retErr : Nat := 0
  /-- LOAD buffer: START and bytes (09 R227) -/
  load : Option (Nat × List Nat) := none
  /-- LAMP_FRAME waiting for LOAD (09 R227) -/
  frameQ : List Nat := []
  /-- changes of the node table (09 Table 9.7) -/
  ver : Nat := 0
  /-- LAMP_FRAME whose DMA fills LOAD (09 R227) -/
  loadJob : Option Nat := none
  /-- SEND buffer (09 R227) -/
  send : Option (Nat × List Nat) := none
  /-- LAMP_FRAME being sent (09 R227) -/
  sendJob : Option Nat := none
  /-- TX_BUSY (09 Table 9.12) -/
  txBusy : Bool := false
  /-- displayed frame: the last frame followed by a latch (09 R227) -/
  shown : Option (Nat × List Nat) := none
  /-- a frame has been sent and not latched (09 R227) -/
  sentUnl : Bool := false
  /-- waiting LAMP_LATCH (09 R229) -/
  latchJob : Option Nat := none
  /-- a LATCH is due (09 R229) -/
  latchWait : Bool := false
  /-- target of the LATCH, with AT_TIME (09 R223) -/
  latchAt : Option Nat := none
  /-- the LATCH misses its start (09 R229) -/
  latchLate : Bool := false
  /-- a status frame is awaited (09 R224) -/
  statWait : Bool := false
  /-- running LAMP_ENUM (09 R225) -/
  enumJob : Option Nat := none
  /-- 0 FULL, 1 REDISCOVER, 3 FULL after a feed return (09 R225) -/
  enumOp : Nat := 0
  /-- address asked for (09 R225) -/
  enumAt : Option Nat := none
  /-- TRUNCATED (09 R225) -/
  trunc : Bool := false
  /-- table being built (09 R225) -/
  enumTab : List (Nat × Nat) := []
  /-- the feeding stall has left ON (09 R228) -/
  feedLost : Bool := false
  /-- LAMP_LATCHes behind the waiting one, with their targets (09 R229) -/
  latchQ : List (Nat × Option Nat) := []
  /-- enumerations that wait for the line: descriptor and kind (09 R225) -/
  enumQ : List (Option Nat × Nat) := []
  /-- the frame on the line is a repeat of the displayed frame (09 R227) -/
  rep : Bool := false
  /-- time on the line of the frame in SEND, ns (09 R220) -/
  txNs : Nat := 0
  /-- PORT_CFG in force since the last frame or enumeration (09 R233) -/
  cfg : Nat := 0x00010A02
  /-- PORT_SLOW in force since the last frame or enumeration (09 R233) -/
  slowN : Nat := 0
  /-- PORT_FEED in force since the last frame or enumeration (09 R233) -/
  feed : Nat := 0
  deriving DecidableEq, Repr, Inhabited

/-- A LAMP_LATCH in progress (R229). -/
structure LatchReq where
  /-- descriptor (09 R229) -/
  job : Nat := 0
  /-- ports not yet finished (09 Table 9.8) -/
  ports : List Nat := []
  /-- UNIT (09 Table 9.8) -/
  unit : Nat := 0
  /-- NODES (09 Table 9.8) -/
  nodes : Nat := 0
  /-- latest commit instant of its ports (09 R229) -/
  t : Nat := 0
  /-- LATE (09 Table 9.8) -/
  late : Bool := false
  /-- BREAK (09 Table 9.8) -/
  brk : Bool := false
  /-- RET_ERR (09 Table 9.8) -/
  ret : Bool := false
  deriving DecidableEq, Repr, Inhabited

/-- One switch input (R235 to R241). -/
structure Si where
  /-- CODE (10 Table 10.9) -/
  code : Nat := 0
  /-- a CODE has been adopted since the halter was cleared (10 Table 10.9) -/
  known : Bool := false
  /-- raw code of the last sample (10 Table 10.9) -/
  raw : Nat := 0
  /-- LOWV (10 Table 10.9) -/
  lowv : Bool := false
  /-- MEAS (10 Table 10.9) -/
  meas : Nat := 0
  /-- CHANGES (10 Table 10.9) -/
  changes : Nat := 0
  /-- code on which samples agree (10 R237) -/
  cand : Nat := 0
  /-- consecutive samples that agree (10 R237) -/
  cnt : Nat := 0
  /-- MTIME of the first of them (10 R237) -/
  candT : Nat := 0
  /-- wetting current of WET = 1 applied (10 R238) -/
  wet : Bool := false
  /-- WNA's confirmed code (10 R240) -/
  parkCode : Nat := 0
  /-- code on which polls agree (10 R240) -/
  parkCand : Nat := 0
  /-- consecutive polls that agree (10 R240) -/
  parkCnt : Nat := 0
  /-- MTIME of the first agreeing poll (10 R240) -/
  parkT : Nat := 0
  /-- an intrusive self-test runs (15 R349) -/
  testing : Bool := false
  /-- current the sink drew at the last sample, mA; HALL2, which does not regulate: 0 (10 R235, R238) -/
  sinkMa : Nat := 0
  deriving DecidableEq, Repr, Inhabited

/-- One analog input (R244). -/
structure Ain where
  /-- VALUE (10 Table 10.9) DESIGN CHOICE of the reset value: log entry 3. -/
  val : Nat := 0
  /-- BELOW (10 Table 10.9) -/
  below : Bool := false
  /-- ABOVE (10 Table 10.9) -/
  above : Bool := false
  /-- the value has left the window and not yet returned by 16 LSB (10 R244) -/
  outW : Bool := false
  deriving DecidableEq, Repr, Inhabited

/-- One signal output (R245 to R249). -/
structure DOut where
  /-- requested state (10 R248) -/
  req : Bool := false
  /-- ON (10 Table 10.9) -/
  on : Bool := false
  /-- LATCHED (10 Table 10.9) -/
  latched : Bool := false
  /-- LIMITING (10 Table 10.9) -/
  limiting : Bool := false
  /-- OPEN_LOAD (10 Table 10.9) -/
  openLoad : Bool := false
  /-- THERMAL (10 Table 10.9) -/
  thermal : Bool := false
  /-- ATT (10 Table 10.9) -/
  att : Nat := 0
  /-- instant of the last trip (10 R246) -/
  tripT : Nat := 0
  /-- waits for its retry (10 R246) -/
  waiting : Bool := false
  /-- I_MEAS, mA (10 Table 10.9) DESIGN CHOICE of the reset value: log entry 3. -/
  iMa : Int := 0
  /-- junction temperature, m°C (10 R250) DESIGN CHOICE of the reset value: log entry 3. -/
  tj : Int := 25000
  /-- the first attempt of the pending turn-on tripped (10 Table 10.6) -/
  tripped : Bool := false
  /-- PAIR in force, at the even output (10 R245) -/
  pair : Bool := false
  /-- pending DO_SET, oldest first (10 R249) -/
  jobs : List Nat := []
  /-- the output has reached 90 % of the feed (10 R249) -/
  up : Bool := false
  /-- the output has not yet fallen below 10 % (10 R249) -/
  falling : Bool := false
  /-- an intrusive self-test runs (15 R349) -/
  testing : Bool := false
  /-- wear units (15 R341) -/
  wear : Nat := 0
  /-- signature held in the halter (03 R69) -/
  sig : Nat := 0
  /-- PAIR is in force but refused, its members lying in two worlds (10 R245) -/
  pairNo : Bool := false
  deriving DecidableEq, Repr, Inhabited

/-- One timer channel (R253 to R258). -/
structure Timer where
  /-- COUNT (11 Table 11.6) -/
  count : Nat := 0
  /-- reload value in force (11 R254) -/
  reload : Nat := 9999
  /-- reload buffer write: CLK_TMR edges left, value (11 R254) -/
  reloadAt : Option (Nat × Nat) := none
  /-- compare value in force (11 R256) -/
  cmp : Nat := 0xFFFFFFFF
  /-- compare write: edges left, value (11 R256) -/
  cmpAt : Option (Nat × Nat) := none
  /-- CLK_TMR edges since the last step (11 R253) -/
  psc : Nat := 0
  /-- TMR_CFG fields in force since the last start (11 R269) -/
  cfg : Nat := 1
  /-- RUNNING (11 Table 11.6) -/
  running : Bool := false
  /-- ARMED (11 Table 11.6) -/
  armed : Bool := false
  /-- COMPARE_LATE (11 Table 11.6) -/
  late : Bool := false
  /-- LF (11 Table 11.6) -/
  lf : Bool := false
  /-- ZEROS (11 Table 11.6) -/
  zeros : Nat := 0
  /-- reload value of the present period, from a zero step on that of the next (11 R254) -/
  next : Nat := 9999
  /-- fraction of a step carried in low-frequency mode, in 1/64 CLK_TMR edges (11 R265) -/
  frac : Int := 0
  /-- MTIME of the last captured edge (11 R257) -/
  capT : Nat := 0
  /-- an edge has been captured (11 R257) -/
  capSeen : Bool := false
  /-- interval of the last capture, 5 ns (11 R257) -/
  capIv : Nat := 0
  deriving DecidableEq, Repr, Inhabited

/-- Module time and its discipline (R261 to R265). -/
structure Mt where
  /-- MTIME, ns (11 R261) -/
  val : Nat := 0
  /-- fraction of a nanosecond carried, 1e-9 ns (11 R265) -/
  frac : Int := 0
  /-- where MTIME runs (11 R261) -/
  src : TSrc := .off
  /-- rate correction, ppb (11 R263) -/
  rate : Int := 0
  /-- STATE (11 Table 11.6) -/
  st : Nat := 0
  /-- GM_BEHIND (11 Table 11.6) -/
  behind : Bool := false
  /-- SLAVE_VALID (11 Table 11.6) -/
  slaveOk : Bool := false
  /-- SLAVE_PORT (11 Table 11.6) -/
  slavePort : Nat := 0
  /-- last offset, ns (11 R263) -/
  offset : Int := 0
  /-- grandmaster identity selected (11 R262) -/
  gm : Option Nat := none
  /-- its priority1 (11 R262) -/
  gmPrio : Nat := 255
  /-- its system identity between priority1 and clock identity, as one number (11 R262) -/
  gmQual : Nat := 0
  /-- the first lock since AON power-on has stepped, or was reached without a step (11 R263) -/
  firstSync : Bool := false
  /-- measured path delay of BB0, ns (11 R262) DESIGN CHOICE of the reset value: log entry 3. -/
  delay0 : Nat := 0
  /-- measured path delay of BB1, ns (11 R262) DESIGN CHOICE of the reset value: log entry 3. -/
  delay1 : Nat := 0
  /-- sync and pdelay intervals asked for on BB0 by signalling, log2 s; none: TIME_CFG's (11 R262) -/
  asked0 : Option Int × Option Int := (none, none)
  /-- sync and pdelay intervals asked for on BB1 by signalling, log2 s; none: TIME_CFG's (11 R262) -/
  asked1 : Option Int × Option Int := (none, none)
  deriving DecidableEq, Repr, Inhabited

/-- A posted receive buffer (R289). -/
structure RxBuf where
  /-- descriptor (12 R289) -/
  job : Nat := 0
  /-- ADDR (12 Table 12.8) -/
  addr : Nat := 0
  /-- LEN (12 Table 12.8) -/
  len : Nat := 0
  /-- bytes written (12 R289) -/
  used : Nat := 0
  /-- records written (12 Table 12.8) -/
  recs : Nat := 0
  /-- FLUSH_US (12 Table 12.8) -/
  flush : Nat := 0
  deriving DecidableEq, Repr, Inhabited

/-- A frame waiting to be sent on a segment (R279, R288). -/
structure TxFrame where
  /-- NET_TX descriptor, none for a gateway frame (12 R288) -/
  job : Option Nat := none
  /-- the frame (12 Table 12.6) -/
  frm : NetFrm := {}
  /-- traffic class at a backbone egress (12 R276) -/
  cls : Nat := 0
  /-- MTIME of its transmit timeout (12 R288) -/
  due : Nat := 0
  /-- in the hold queue of a waking destination (12 R279) -/
  hold : Bool := false
  /-- retransmissions (12 Table 12.7) -/
  retries : Nat := 0
  deriving DecidableEq, Repr, Inhabited

/-- One network segment's manager (R280 to R286). -/
structure Seg where
  /-- state (12 Table 12.3) -/
  st : SegSt := .off
  /-- HOST_REQ (12 Table 12.9) -/
  hostReq : Bool := false
  /-- MAX_AWAKE count up to the last stop, ns (12 R282) -/
  awakeAcc : Nat := 0
  /-- instant since which the MAX_AWAKE count runs (12 R282) -/
  awakeAt : Option Nat := none
  /-- WAKE_VALIDATE runs (12 Table 12.4) -/
  valWait : Bool := false
  /-- instant READY_SLEEP last started (12 Table 12.4) -/
  readyT : Nat := 0
  /-- ISO_HOLD runs in WNA (12 R283) -/
  holdLeft : Bool := false
  /-- a wake was detected while OFF (12 Table 12.4) -/
  wakeOff : Bool := false
  /-- FALSE_WAKES (12 Table 12.12) -/
  falseWakes : Nat := 0
  /-- ISOLATIONS (12 Table 12.12) -/
  isolations : Nat := 0
  /-- WNA holds the transceiver in normal mode (12 R286) -/
  xcvr : Bool := false
  /-- the wake signal is being sent (12 R290) -/
  signalling : Bool := false
  /-- pending NM_CMD REQUEST (12 R290) -/
  nmJob : Option Nat := none
  /-- frames waiting (12 R279) -/
  txq : List TxFrame := []
  /-- posted buffers, oldest first (12 R289) -/
  rx : List RxBuf := []
  /-- frames dropped since the previous completion (12 Table 12.8) -/
  drops : Nat := 0
  /-- RX_DROP (12 Table 12.12) -/
  rxDrop : Nat := 0
  /-- TX_FAIL (12 Table 12.12) -/
  txFail : Nat := 0
  /-- a drop since the last delivered frame (12 R289) -/
  dropRun : Bool := false
  /-- the feeding stall is being cycled (12 R283) -/
  cycleAsk : Bool := false
  /-- frames that could not be forwarded to it (12 R279) -/
  gwDrops : Nat := 0
  /-- an intrusive self-test runs (15 R349) -/
  testing : Bool := false
  deriving DecidableEq, Repr, Inhabited

/-- Controller state of one CAN (Table 12.12). -/
structure Can where
  /-- FSTATE (12 Table 12.12) -/
  fstate : Nat := 0
  /-- WUF_FEC (12 Table 12.12) -/
  fec : Bool := false
  /-- TEC (12 Table 12.12) -/
  tecE : Nat := 0
  /-- REC (12 Table 12.12) -/
  recE : Nat := 0
  /-- bus-off recovery runs (12 R271) -/
  recovering : Bool := false
  deriving DecidableEq, Repr, Inhabited

/-- Commander state of one LIN (R273). -/
structure Lin where
  /-- RUNNING (12 Table 12.12) -/
  running : Bool := false
  /-- active table (12 Table 12.12) -/
  sched : Nat := 0
  /-- NO_RESP (12 Table 12.12) -/
  noResp : Nat := 0
  /-- CHK_ERR (12 Table 12.12) -/
  chkErr : Nat := 0
  /-- frame IDs whose responder last did not answer (12 R273) -/
  silent : List Nat := []
  /-- publish buffers by frame ID (12 R279) -/
  pub : UMap (List Nat) := []
  /-- slot of the active table that comes due next (12 R273) -/
  pos : Nat := 0
  deriving DecidableEq, Repr, Inhabited

/-- One T1S PHY (R274). -/
structure T1s where
  /-- PLCA_UP (12 Table 12.12) -/
  plcaUp : Bool := false
  /-- COLL (12 Table 12.12) -/
  coll : Nat := 0
  /-- T1S_CFG in force since EN was last set (12 R292) -/
  cfg : Nat := 0x70200800
  deriving DecidableEq, Repr, Inhabited

/-- One backbone port (R275, R277). -/
structure Bb where
  /-- LINK (12 Table 12.12) -/
  link : Bool := false
  /-- TC10_SLEEP (12 Table 12.12) -/
  tc10 : Bool := false
  /-- SQI (12 Table 12.12) DESIGN CHOICE of the reset value: log entry 3. -/
  sqi : Nat := 0
  /-- LINK_DOWNS (12 Table 12.12) -/
  downs : Nat := 0
  /-- gate mask in force (12 R277) -/
  gate : Nat := 0xFF
  /-- entry in force (12 R277) -/
  entry : Nat := 0
  /-- a first cycle has started (12 R277) -/
  cycling : Bool := false
  /-- PHY equaliser step (15 Table 15.3) DESIGN CHOICE of the reset value: log entry 3. -/
  eqStep : Nat := 0
  /-- MTIME at which the first cycle of the gate control list starts (12 R277) -/
  qbvT : Nat := 0
  deriving DecidableEq, Repr, Inhabited

/-- A gateway route (Table 12.2). -/
structure Route where
  /-- SRC (12 Table 12.2) -/
  src : Nat := 0
  /-- ID (12 Table 12.2) -/
  id : Nat := 0
  /-- MASK (12 Table 12.2) -/
  mask : Nat := 0
  /-- FMT: 0 any, 1 classical, 2 FD, 3 XL (12 Table 12.2) -/
  fmt : Nat := 0
  /-- CLASS (12 Table 12.2) -/
  cls : Nat := 7
  /-- DST, bit 16 the host (12 Table 12.2) -/
  dst : Nat := 0
  /-- WAKE (12 Table 12.2) -/
  wake : Bool := false
  /-- CONV: 0 keep, 1 to FD with BRS, 2 to classical (12 Table 12.2) -/
  conv : Nat := 0
  deriving DecidableEq, Repr, Inhabited

/-- An address table entry (R276). -/
structure Mac where
  /-- MAC address (12 R276) -/
  addr : Nat := 0
  /-- VLAN (12 R276) -/
  vlan : Nat := 0
  /-- port (12 R276) -/
  port : Nat := 0
  /-- static entry (12 R276) -/
  fixed : Bool := false
  /-- instant last seen (12 R276) -/
  age : Nat := 0
  deriving DecidableEq, Repr, Inhabited

/-- Network state shared by segments (R276 to R285). -/
structure Net where
  /-- address table (12 R276) -/
  mac : List Mac := []
  /-- MAC_TABLE_FULL raised (12 R276) -/
  macFull : Bool := false
  /-- DROPS (12 Table 12.12) -/
  drops : Nat := 0
  /-- QBV_OVERRUN (12 Table 12.12) -/
  overrun : Nat := 0
  /-- route table (12 R278) -/
  routes : List Route := []
  /-- NM_WAKE.SOURCE (12 Table 12.12) -/
  wakeSrc : Nat := 0
  /-- NM_WAKE.VALID (12 Table 12.12) -/
  wakeValid : Bool := false
  /-- NM_WAKE.FALSE (12 Table 12.12) -/
  wakeFalse : Bool := false
  /-- NM_WAKE.RETURNED (12 Table 12.12) -/
  returned : Bool := false
  /-- LIN schedule tables, key 16*channel + table: frame ID of each slot, and whether the module publishes it (12 R273) -/
  scheds : UMap (List (Nat × Bool)) := []
  deriving DecidableEq, Repr, Inhabited

/-- An enrolled token (R311, R312). -/
structure Token where
  /-- TID (13 Table 13.5) -/
  tid : Nat := 0
  /-- FN_MASK (13 Table 13.5) -/
  fnMask : Nat := 0
  /-- stored counter S (13 R300) -/
  ctr : Nat := 0
  /-- K_T (13 R312) -/
  key : List Nat := []
  deriving DecidableEq, Repr, Inhabited

/-- A pending resynchronisation record (R300). -/
structure PendRec where
  /-- TID (13 Table 13.3) -/
  tid : Nat := 0
  /-- CNT (13 Table 13.3) -/
  ctr : Nat := 0
  /-- access second (13 Table 13.3) -/
  sec : Nat := 0
  deriving DecidableEq, Repr, Inhabited

/-- One access function (R294, R307, R308). -/
structure AccFn where
  /-- a grant is valid: slot of the token it names (13 R307) -/
  grant : Option Nat := none
  /-- access second at which the grant ends (13 R307) -/
  grantEnd : Nat := 0
  /-- LOCKED_OUT (13 Table 16.7) -/
  locked : Bool := false
  /-- access second at which the lock-out ends (13 R308) -/
  lockEnd : Nat := 0
  /-- length of the running lock-out, s (13 R308) -/
  lockLen : Nat := 0
  /-- L (13 R308) -/
  level : Nat := 0
  /-- access seconds of the failures in the window (13 R308) -/
  fails : List Nat := []
  deriving DecidableEq, Repr, Inhabited

/-- The set-up registers that a poll or an RKE frame took over when it began (R359). -/
structure AccSet where
  /-- ACC_CFG (16 Table 16.7) -/
  cfg : Nat := 0x00C800F4
  /-- ACC_TIME (16 Table 16.7) -/
  time : Nat := 0x00C8001E
  /-- TPC_CFG (16 Table 16.7) -/
  tpc : Nat := 0x00000028
  /-- TACK_CFG (16 Table 16.7) -/
  tack : Nat := 0x140FAF30
  /-- ANCHOR_ID and ANCHOR_OFS of anchors 0 to 7 (16 Table 16.7) -/
  anchor : List (Nat × Nat) := []
  deriving DecidableEq, Repr, Inhabited

/-- A verified token being ranged in a poll (R302, R303). -/
structure Ranged where
  /-- token slot (13 R302) -/
  slot : Nat := 0
  /-- CNT of the verified reply (13 R302) -/
  cnt : Nat := 0
  /-- good exchanges: anchor, distance in cm (13 R303) -/
  good : List (Nat × Rat) := []
  /-- an STS failure (13 R303) -/
  stsFail : Bool := false
  /-- anchors lost (13 R304) -/
  lost : List Nat := []
  /-- MTIME of its first ranging slot, ms (13 R302) -/
  start : Nat := 0
  /-- anchors of the exchanges made (13 R302) -/
  tried : List Nat := []
  /-- STS key (13 Table 13.4) -/
  key : List Nat := []
  deriving DecidableEq, Repr, Inhabited

/-- A token of an RKE frame that is ranged before its functions decide (R309). -/
structure RkeTok where
  /-- CMD (13 Table 13.2) -/
  cmd : Nat := 0
  /-- the token's exchanges (13 R303) -/
  tok : Ranged := {}
  /-- functions that wait for its distance, with their set-up (13 R309) -/
  fns : List (Nat × AccSet) := []
  deriving DecidableEq, Repr, Inhabited

/-- A running ACCESS_POLL (R298, R306). -/
structure Poll where
  /-- descriptor (13 R306) -/
  job : Nat := 0
  /-- function (13 R306) -/
  fn : Nat := 0
  /-- rounds run (13 R298) -/
  rounds : Nat := 0
  /-- the round had a collision (13 R298) -/
  coll : Bool := false
  /-- NONCE of the round (13 R297) -/
  nonce : Nat := 0
  /-- SEED of the round (13 R297) -/
  seed : Nat := 0
  /-- TIDs evaluated (13 R298) -/
  seen : List Nat := []
  /-- valid tokens (13 R302) -/
  valid : List Ranged := []
  /-- failures found (13 R308) -/
  fails : Nat := 0
  /-- a token was measured over its bound (13 R305) -/
  overBound : Bool := false
  /-- a pending record was made or replaced (13 R306) -/
  resync : Bool := false
  /-- TPC exchanges made (13 R305) -/
  tries : Nat := 0
  /-- slot of an IMMOBILISER or RKE token judged within its bound (13 R305, R309) -/
  within : Option Nat := none
  /-- valid tokens verified at the coil (13 R313) -/
  count : Nat := 0
  /-- set-up in force for this poll (16 R359) -/
  set : AccSet := {}
  /-- MTIME at which the present round began (13 R298) -/
  roundT : Nat := 0
  /-- a TPC downlink has been sent and its uplink is awaited (13 R305) -/
  coil : Bool := false
  deriving DecidableEq, Repr, Inhabited

/-- The Tack Room and its front ends (R294 to R313). -/
structure Acc where
  /-- functions (13 R294) -/
  fns : UMap AccFn := []
  /-- tokens by slot (13 R311) -/
  tokens : UMap Token := []
  /-- SLOTS (13 Table 16.7) -/
  used : Nat := 0
  /-- enrolment count (13 R311) -/
  count : Nat := 0
  /-- PROVISIONED (13 R312) -/
  prov : Bool := false
  /-- VID (13 R312) -/
  vid : Nat := 0
  /-- KV_ENC (13 R312) -/
  kvEnc : List Nat := []
  /-- KV_MAC (13 R312) -/
  kvMac : List Nat := []
  /-- KL (13 R312) -/
  kl : List Nat := []
  /-- pending records, in SRAM (13 R300) -/
  pend : List PendRec := []
  /-- running poll (13 R306) -/
  poll : Option Poll := none
  /-- ACCESS_POLL, ENROL and REVOKE waiting (13 R311) -/
  queue : List Nat := []
  /-- ns for which access seconds have been frozen (13 R307) -/
  frozen : Nat := 0
  /-- instant since which they are frozen (13 R307) -/
  frozenAt : Option Nat := none
  /-- tokens of RKE frames being ranged (13 R309) -/
  rke : List RkeTok := []
  /-- antennas left out after LF_FAULT (13 R314) -/
  lfBad : Nat := 0
  /-- instant of the last LF search frame (13 R310) -/
  lfSearchT : Option Nat := none
  deriving DecidableEq, Repr, Inhabited

/-- One key slot (R324). -/
structure Key where
  /-- SHA-256 of the public key (14 R324) -/
  hash : Nat := 0
  /-- PROGRAMMED (14 Table 14.5) -/
  prog : Bool := false
  /-- REVOKED (14 Table 14.5) -/
  revoked : Bool := false
  /-- DEBUG permission (14 Table 14.5) -/
  debug : Bool := false
  deriving DecidableEq, Repr, Inhabited

/-- The swap journal record in force (R330). -/
structure Journal where
  /-- SEQ (14 R330) -/
  seq : Nat := 0
  /-- STATE (14 Table 14.6) -/
  st : Nat := 0
  /-- SECTOR (14 R330) -/
  sector : Nat := 0
  /-- STEP: 0 none, 1 A, 2 B, 3 C (14 R330) -/
  step : Nat := 0
  /-- NSECT (14 R330) -/
  nsect : Nat := 0
  /-- BOOTS (14 R330) -/
  boots : Nat := 0
  /-- RUN_S (14 R330) -/
  runS : Nat := 0
  /-- BUILD_ID of the execution slot (14 R330) -/
  bidExec : Nat := 0
  /-- BUILD_ID of the staging slot (14 R330) -/
  bidStage : Nat := 0
  deriving DecidableEq, Repr, Inhabited

/-- One copy of the settings store (R335). -/
structure Settings where
  /-- its SHA-256 holds (14 R335) -/
  valid : Bool := false
  /-- SET_FMT (14 R335) -/
  fmt : Nat := 0
  /-- sequence number (14 R335) -/
  seq : Nat := 0
  /-- register values, by BAR0 offset (14 R335) -/
  words : List (Nat × Nat) := []
  /-- route table (12 R278) -/
  routes : List Route := []
  /-- static address entries (12 R276) -/
  macs : List Mac := []
  /-- anti-pinch tables by loop: ref, V_learn, last learned ref (08 R200) -/
  tabs : UMap (List Nat × List Nat × List Nat) := []
  /-- calibrations of LS5 (5) and LS11 (11): VF0, RS, T_CAL (09 R217) -/
  vfCal : UMap (Nat × Nat × Int) := []
  /-- user curves, key 2*yard + user slot: those the halters get at an adoption after a start (05 R116, R137) -/
  curves : UMap (List (Nat × Nat)) := []
  /-- LIN schedule tables (12 R273) -/
  scheds : UMap (List (Nat × Bool)) := []
  deriving DecidableEq, Repr, Inhabited

/-- Boot, update and keys (R324 to R338). -/
structure Upd where
  /-- slots 1 to 3 written so far (14 R324) -/
  keys : UMap Key := []
  /-- slot 0, programmed at test (14 Table 14.5) -/
  key0 : Key := { prog := true, debug := true }
  /-- KEY_ERR (14 Table 14.5) -/
  keyErr : Bool := false
  /-- MIN_SVN (14 Table 14.5) -/
  minSvn : Nat := 0
  /-- journal (14 R330) -/
  jr : Journal := {}
  /-- the other copy: the record before (14 R330) -/
  jrOld : Journal := {}
  /-- REVERTED (14 Table 14.5) -/
  reverted : Bool := false
  /-- REVERT_REASON (14 Table 14.5) -/
  revReason : Nat := 0
  /-- SETTINGS_RESET (14 Table 14.5) -/
  setReset : Bool := false
  /-- copy A (14 R335) -/
  setA : Settings := {}
  /-- copy B (14 R335) -/
  setB : Settings := {}
  /-- SET_FMT of the settings in use (14 Table 14.5) -/
  setFmt : Nat := 0
  /-- EXEC_SLOT (14 Table 14.5) -/
  execSlot : Nat := 0
  /-- causes of source 239 due once firmware runs (14 R331) -/
  pendEv : List Nat := []
  /-- instant of RUN from which RUN_S is not yet counted (14 R333) -/
  runFrom : Nat := 0
  /-- the start follows an AON power-on or a CTL reset (14 R333) -/
  noteB : Bool := false
  deriving DecidableEq, Repr, Inhabited

/-- Margin-plan and host caps of one stall (R148, R342, R343). -/
structure Cap where
  /-- plan limit cap, 0.1 A; 1023 none (15 R342) -/
  lim : Nat := 1023
  /-- plan ceiling cap (15 R342) -/
  ceil : Nat := 1023
  /-- plan thermal cap, °C; 255 none (15 R342) -/
  tsd : Nat := 255
  /-- plan retry cap; 15 none (15 R342) -/
  retry : Nat := 15
  /-- host limit cap (15 R343) -/
  hLim : Nat := 1023
  /-- host ceiling cap (15 R343) -/
  hCeil : Nat := 1023
  /-- host thermal cap (15 R343) -/
  hTsd : Nat := 255
  /-- host retry cap (15 R343) -/
  hRetry : Nat := 15
  /-- END_OF_LIFE raised (15 R342) -/
  eol : Bool := false
  /-- WEAR_WARN raised for d, z, u (15 R342) -/
  warned : Nat := 0
  /-- agreed Rds(on) drift, 0.1 % (15 R340) -/
  d : Int := 0
  /-- agreed Zth rise, 0.1 % (15 R340) -/
  z : Int := 0
  /-- drift results: value, RUN period (15 R340) -/
  dHist : List (Int × Nat) := []
  /-- Zth results (15 R340) -/
  zHist : List (Int × Nat) := []
  /-- wear units committed (15 R341) -/
  used : Nat := 0
  /-- on-resistance at 25 °C, 0.1 mOhm (15 R342) DESIGN CHOICE of the reset value: log entry 5. -/
  rds : Nat := 0
  /-- instant of the last measurement (15 R340) -/
  rdsT : Nat := 0
  deriving DecidableEq, Repr, Inhabited

/-- A queued self-test request (R348). -/
structure SelfT where
  /-- descriptor (15 R348) -/
  job : Nat := 0
  /-- block (15 R348) -/
  blk : Nat := 0
  /-- unit (15 R348) -/
  unit : Nat := 0
  /-- TEST (15 Table 15.4) -/
  test : Nat := 0
  /-- deadline (15 R348) -/
  deadline : Nat := 0
  /-- the test runs (15 R349) -/
  running : Bool := false
  deriving DecidableEq, Repr, Inhabited

/-- Ageing, adaptive loops and self-test (R340 to R352). -/
structure Age where
  /-- margin plan of the stalls (15 R342) -/
  caps : UMap Cap := []
  /-- on-resistances of VG, V, MB6-9, DO, 0.1 mOhm (15 Table 15.6) DESIGN CHOICE of the reset value: log entry 5. -/
  rdsX : UMap Nat := []
  /-- their measurement results (15 R340) -/
  histX : UMap (List (Int × Nat)) := []
  /-- wear units committed of valves (0-15) and DO (16-27) (15 R341) -/
  wearX : UMap Nat := []
  /-- PLAN_SEQ (15 Table 15.8) -/
  planSeq : Nat := 0
  /-- MTIME of the last plan change (15 Table 15.6) -/
  planT : Nat := 0
  /-- ADAPT_STATUS[5:0] (15 Table 15.8) -/
  adapt : Nat := 0
  /-- loops at present clamped: 256 x ADAPT_STATUS bit + instance (15 R344) -/
  clamped : List Nat := []
  /-- CORE_MARGIN, % (15 Table 15.8) DESIGN CHOICE of the reset value: log entry 3. -/
  margin : Nat := 0
  /-- AVS voltage, 5 mV above 0.70 V (15 Table 15.6) DESIGN CHOICE of the reset value: log entry 3. -/
  avs : Nat := 20
  /-- sense trims by event source: offset, gain, 0.1 % (15 Table 15.3) DESIGN CHOICE of the reset value: log entry 3. -/
  trims : UMap (Int × Int) := []
  /-- writes per 64 KiB MRAM sector (15 Table 15.1) -/
  mramW : UMap Nat := []
  /-- sectors for which MRAM_WEAR was raised (15 R351) -/
  mramWarn : List Nat := []
  /-- RUN period (15 R340) -/
  runId : Nat := 0
  /-- requests, in execution order (15 R348) -/
  tests : List SelfT := []
  /-- instants of the latest measurement of VG, V, MB6-9, DO, by source (15 Table 15.1) -/
  rdsXT : UMap Nat := []
  deriving DecidableEq, Repr, Inhabited

/-- What the halters and yard logic hold of their outputs and inputs (R21). -/
structure Halt where
  /-- stalls (01 R21) -/
  stalls : UMap Stall := []
  /-- rows (05 R128) -/
  rows : UMap Row := []
  /-- user curves, key 2*yard + user slot (05 R116) -/
  curves : UMap (List (Nat × Nat)) := []
  /-- valve channels (07 R163) -/
  valves : UMap Valve := []
  /-- valve groups (07 R163) -/
  vgs : UMap VGroup := []
  /-- over-voltage cut in force (07 R169) -/
  ovCut : Bool := false
  /-- bridges (and, in CTL, their loops) (08 R183) -/
  loops : UMap Loop := []
  /-- boost stages (09 R208) -/
  boosts : UMap Boost := []
  /-- sinks (09 R213) -/
  sinks : UMap Sink := []
  /-- NTC inputs (09 R216) -/
  ntcs : UMap Ntc := []
  /-- matrix (09 R218) -/
  mx : Matrix := {}
  /-- switch inputs (10 R235) -/
  sis : UMap Si := []
  /-- ENC_COUNT (10 R243) -/
  encs : UMap Nat := []
  /-- level after the last edge (10 R243) DESIGN CHOICE of the reset value: log entry 3. -/
  encLv : UMap Bool := []
  /-- SI_SNAPSHOT with FRESH that wait for a sample: job, address (10 R242) -/
  snaps : List (Nat × Nat) := []
  /-- analog inputs (10 R244) -/
  ains : UMap Ain := []
  /-- signal outputs (10 R245) -/
  dos : UMap DOut := []
  /-- LANTERN_CFG in force since the last turn-on of a sink (09 R233) -/
  lantCfg : Nat := 0x00081388
  /-- start of the present dimming period: its MTIME, or, free-running, its instant (09 R215) -/
  dimStart : Nat := 0
  /-- the dimming periods start on multiples of T in MTIME (09 R215) -/
  dimLocked : Bool := false
  deriving DecidableEq, Repr, Inhabited

/-- Power, reset, boot, clock and debug state (R38 to R77). -/
structure Sys where
  /-- power state (02 R41) -/
  power : Power := .off
  /-- where CTL stands in its start-up (03 R67) -/
  ctl : CtlPh := .off
  /-- the module is an EZ9480-Y3 (00 R1) DESIGN CHOICE of the reset value: log entry 4. -/
  y3 : Bool := false
  /-- the running image names yard YC (02 R30) DESIGN CHOICE of the reset value: log entry 4. -/
  ycUse : Bool := true
  /-- WNA is out of power-on (03 R67) -/
  aon : Bool := false
  /-- the pre-regulator runs (03 R67) -/
  prereg : Bool := false
  /-- the pre-regulator is in boost mode (02 R35) -/
  boost : Bool := false
  /-- RST_CAUSE[8:0]; AON power-on sets bit 0 (03 Table 3.2) -/
  causes : Nat := 0
  /-- COUNT (03 Table 3.2) -/
  count : Nat := 0
  /-- boot lock (14 R319) -/
  lock : Bool := false
  /-- XTAL40_OK (16 Table 16.2) -/
  xtal40 : Bool := false
  /-- XTAL32K_OK (16 Table 16.2) -/
  xtal32 : Bool := false
  /-- CLK_WNA runs from the internal RC (03 R75) -/
  wnaRc : Bool := false
  /-- the CLK_LF RC is calibrated (03 R75) -/
  lfCal : Bool := false
  /-- CTL_HOT raised, CTL_COOL not yet (03 R66) -/
  hot : Bool := false
  /-- consecutive measurements at or above 145 °C (03 R66) -/
  hotRun : Nat := 0
  /-- WNA holds CTL in reset (03 R66) -/
  thermHold : Bool := false
  /-- THERMAL_RESTART is due (03 R66) -/
  thermEv : Bool := false
  /-- CTL junction temperature, m°C (03 R66) DESIGN CHOICE of the reset value: log entry 3. -/
  ctlT : Int := 25000
  /-- baseplate temperature, m°C (18 R386) DESIGN CHOICE of the reset value: log entry 3. -/
  tbp : Int := 25000
  /-- HALTED (03 Table 3.9) -/
  halted : Bool := false
  /-- SEC_UNLOCKED (03 Table 3.9) -/
  unlocked : Bool := false
  /-- the present unlock nonce (14 R323) DESIGN CHOICE of the reset value: log entry 1. -/
  nonce : Nat := 0
  /-- unlock attempts are refused (14 R323) -/
  refuse : Bool := false
  /-- device UID (16 Table 16.2) DESIGN CHOICE of the reset value: log entry 4. -/
  uid : Nat := 1
  /-- WAKE# asserted (02 R44) -/
  wakePin : Bool := false
  /-- wake detectors armed by a sleep commit (02 R43) -/
  armed : Bool := false
  /-- PARK or WATCH being committed (02 R43) -/
  sleepTo : Option Power := none
  /-- the POWER_STATE of that commit (02 R43) -/
  sleepJob : Option Nat := none
  /-- wakes recorded by WNA, event sources, oldest first (02 R44) -/
  wakeRec : List Nat := []
  /-- wake records kept in WNA until posted (04 R391) -/
  wakeEv : List Ev := []
  /-- state left by the last wake (02 Table 2.7) DESIGN CHOICE of the reset value: log entry 3. -/
  left : Power := .park
  /-- STANDBY was reached by a wake (12 R284) -/
  wokeUp : Bool := false
  /-- a wake from another source since that wake (12 R284) -/
  otherWake : Bool := false
  /-- the present start follows a wake (11 R266) -/
  fromWake : Bool := false
  /-- the PCIe link is in L0 (03 R61) -/
  link : Bool := false
  /-- the endpoint is ready for link training (03 R61) -/
  ready : Bool := false
  /-- PERST# asserted (03 R61) -/
  perst : Bool := false
  /-- the loader failed: CTL stays in the boot ROM (14 R325) -/
  romFail : Bool := false
  /-- WNA declares CTL absent (01 R25) -/
  wnaAbsent : Bool := false
  /-- WNA's copy of SHED_HYS_D.DWELL (02 R32) -/
  dwellD : Nat := 5
  /-- VIOLATIONS (14 Table 14.5) -/
  violations : Nat := 0
  /-- a wake has arrived since WNA declared CTL absent (01 R25) -/
  wnaWoke : Bool := false
  /-- VBAT_AON changed band while nothing could report it (02 R58) -/
  aonMissed : Bool := false
  /-- clock failures whose event waits for firmware (03 R75) -/
  clkEv : Nat := 0
  /-- instant of the bad signature (14 R323) -/
  refuseT : Nat := 0
  /-- SRAM regions assigned by the loader: base and limit word of SRAM_RGN (14 R321) -/
  sram : UMap (Nat × Nat) := []
  /-- MRAM partitions assigned by the loader: 1 secure, 2 secure write and non-secure read, 3 secure and read-only (14 R321) -/
  parts : UMap Nat := []
  deriving DecidableEq, Repr, Inhabited

/-- Everything of the module but its queue of commands, its set-up registers and its MRAM slots. -/
structure Chip where
  /-- ns elapsed: the model's own clock (the model's own) DESIGN CHOICE of the reset value: log entry 2. -/
  now : Nat := 0
  /-- counter of free values: the model's own field (the model's own) DESIGN CHOICE of the reset value: log entry 1. -/
  free : Nat := 0
  /-- power, reset, boot (02 R41) -/
  sys : Sys := {}
  /-- module time (11 R261) -/
  mt : Mt := {}
  /-- PF0 (04 R82) -/
  ring0 : Ring := {}
  /-- PF1 (04 R82) -/
  ring1 : Ring := {}
  /-- arbitration by priority class (04 R92) -/
  arb : UMap Arb := []
  /-- fetched descriptors that have not completed, oldest first (04 R95) -/
  jobs : List Job := []
  /-- next fetch order (04 R95) -/
  nextJob : Nat := 0
  /-- yards (01 R16) -/
  yards : UMap Yard := []
  /-- feeds (02 R29) -/
  feeds : UMap Feed := []
  /-- power budget manager (02 R54) -/
  budget : Budget := {}
  /-- SAFE_DELAY counts by output (01 R22) -/
  safes : UMap Safe := []
  /-- outputs and inputs (01 R21) -/
  halt : Halt := {}
  /-- status mirror in transit, by yard (01 R19) -/
  img : UMap Halt := []
  /-- CTL's copy of the status mirrors (16 R356) -/
  copy : Halt := {}
  /-- user curves as CTL wrote them last, key 2*yard + user slot (05 R137) -/
  curves : UMap (List (Nat × Nat)) := []
  /-- cross-checks, the running one first (06 R152) -/
  cross : List Cross := []
  /-- running valve sequences (07 R179) -/
  seqs : List VSeq := []
  /-- Lantern ports (09 R220) -/
  ports : UMap Port := []
  /-- LAMP_LATCH in progress (09 R229) -/
  latches : List LatchReq := []
  /-- timer channels (11 R253) -/
  timers : UMap Timer := []
  /-- scheduled common starts: T0, TIMERS, ROWS, descriptor (11 R260) -/
  gstart : List (Nat × Nat × Nat × Nat) := []
  /-- segments (12 R280) -/
  segs : UMap Seg := []
  /-- CAN controllers (12 R271) -/
  cans : UMap Can := []
  /-- LIN commanders (12 R273) -/
  lins : UMap Lin := []
  /-- T1S PHYs (12 R274) -/
  t1ss : UMap T1s := []
  /-- backbone ports (12 R275) -/
  bbs : UMap Bb := []
  /-- receive buffers of BACKBONE unit 2 (12 R276) -/
  hostPort : Seg := {}
  /-- switch, gateway, wake record (12 R276) -/
  net : Net := {}
  /-- Tack Room (13 R294) -/
  acc : Acc := {}
  /-- boot and update (14 R324) -/
  upd : Upd := {}
  /-- ageing and self-test (15 R340) -/
  age : Age := {}
  /-- what the module has sent to the outside, latest first (the model's own) DESIGN CHOICE of the reset value: log entry 2. -/
  out : List Out := []
  deriving DecidableEq, Repr, Inhabited

/-- The set-up registers (16 R353, R356): what was last written by the host or by firmware, and the configuration the halters and
WNA hold (01 R21). Each lists only the registers that differ from their reset value. -/
structure Regs where
  /-- The value last written to each set-up register (16 R356). -/
  ctl : RegFile := []
  /-- The configuration in force in the halters and WNA (01 R21, 02 R52). -/
  halt : RegFile := []
  deriving DecidableEq, Repr, Inhabited

/-- The byte-addressed parts of MRAM that commands write (14 R327, Table 14.2). -/
structure Mram where
  /-- The execution slot. -/
  exec : ByteMem := []
  /-- The staging slot. -/
  stage : ByteMem := []
  /-- The swap sector buffer. -/
  scratch : ByteMem := []
  deriving DecidableEq, Repr, Inhabited

/-- The whole block: the commands that wait, MRAM's slots, the set-up registers and everything else. -/
structure State where
  /-- The commands that wait, first in, first out (the row's cut). -/
  pending : List Instr := []
  /-- MRAM's image slots (14 R327). -/
  mram : Mram := {}
  /-- The set-up registers (16 R353). -/
  regs : Regs := {}
  /-- Everything else. -/
  chip : Chip := {}
  deriving DecidableEq, Repr, Inhabited

/-- The machine right after reset: the module OFF with no battery connected (02 R41), nothing waiting, every register at its
reset value. -/
def State.reset : State := {}

end Sys2Proof.Machine
end

