-- ==== Sys2Proof/Machine/RegTable.lean ====
section
/-!
DEFINITION. Sys2Proof/Machine/RegTable.lean: the set-up registers of BAR0 (16 R353, R358): where each lies, its value at reset, which
of its bits take a write under which access code (00 Table 0.4), which world or unit owns it, and whether its configuration lies in a
halter (16 R356). One row for each register or run of equal registers.
-/

namespace Sys2Proof.Machine

/-- Who owns a register (14 R316, R392; 16 Table 16.1): everyone, one function's ring page (04 R80), the secure world, a block, the
stall of its page (05 R139) or the signal output of its page (10 R251). -/
inductive Owner | all | page (pf : Nat) | sec | blk (b : Nat) | stall | dout
  deriving DecidableEq, Repr

/-- Which halter holds a register's configuration (01 R21, 16 R356): none; that of the stall's yard; that of the row's yard; YD; that of
the supply register's feed; every halter and WNA. -/
inductive Resident | none_ | stall | row | yd | feed | all
  deriving DecidableEq, Repr

/-- How a run of registers starts: one value, one value for each kind of row (05 Table 5.11), or a value by number. -/
inductive Rst
  | k (v : Nat)
  | byRow (a0 a1 a2 c0 c1 : Nat)
  | lin (base step period : Nat)
  | pick (units : List Nat) (v other : Nat)
  deriving DecidableEq, Repr

/-- The reset value of register `i` of a run. -/
def Rst.at (i : Nat) : Rst → Nat
  | .k v => v
  | .byRow a0 a1 a2 c0 c1 =>
    match i / 8 with
    | 0 => a0 | 1 => a1 | 2 => a2 | 3 => a0 | 4 => a1 | 5 => a2 | 6 => c0 | _ => c1
  | .lin base step period => base + step * (i % period)
  | .pick units v other => if units.contains i then v else other

/-- A run of `count` registers from `base` on, `stride` bytes apart. `rw`, `rwl`, `rws`, `w1c` and `wo` mask the bits of each access
code; a bit in both `rwl` and `rws` is a field that is both (00 R7). -/
structure RegRow where
  base : Nat
  stride : Nat
  count : Nat
  rst : Rst
  owner : Owner
  res : Resident
  rw : Nat := 0
  rwl : Nat := 0
  rws : Nat := 0
  w1c : Nat := 0
  wo : Nat := 0
  deriving DecidableEq, Repr

namespace Reg
/-- SYS_ID (16 R357). -/
def SYS_ID : Nat := 0x00000
/-- SYS_REV (16 R357). -/
def SYS_REV : Nat := 0x00004
/-- SYS_VARIANT (16 R357). -/
def SYS_VARIANT : Nat := 0x00008
/-- SYS_UID_LO (16 R357). -/
def SYS_UID_LO : Nat := 0x0000C
/-- SYS_UID_HI (16 R357). -/
def SYS_UID_HI : Nat := 0x00010
/-- SYS_STATE (16 R357). -/
def SYS_STATE : Nat := 0x00014
/-- RST_CAUSE (03 R62). -/
def RST_CAUSE : Nat := 0x00040
/-- RST_CMD (03 R72). -/
def RST_CMD : Nat := 0x00044
/-- ADOPT_STATUS (03 R71). -/
def ADOPT_STATUS : Nat := 0x00048
/-- WT of number i (14 R318). -/
def WT (i : Nat) : Nat := 0x08000 + 0x4 * i
/-- WIN_BASE_LO of number i (14 R320). -/
def WIN_BASE_LO (i : Nat) : Nat := 0x08200 + 0x10 * i
/-- WIN_BASE_HI of number i (14 R320). -/
def WIN_BASE_HI (i : Nat) : Nat := 0x08204 + 0x10 * i
/-- WIN_LIM_LO of number i (14 R320). -/
def WIN_LIM_LO (i : Nat) : Nat := 0x08208 + 0x10 * i
/-- WIN_LIM_HI of number i (14 R320). -/
def WIN_LIM_HI (i : Nat) : Nat := 0x0820C + 0x10 * i
/-- WORLD_STATUS (14 R339). -/
def WORLD_STATUS : Nat := 0x08400
/-- WT_BAD_LO (14 R339). -/
def WT_BAD_LO : Nat := 0x08404
/-- WT_BAD_HI (14 R339). -/
def WT_BAD_HI : Nat := 0x08408
/-- POWER_CFG (02 R39). -/
def POWER_CFG : Nat := 0x09000
/-- SUPPLY_CFG (02 R49). -/
def SUPPLY_CFG : Nat := 0x0A000
/-- SHED_THR of number i (02 R49). -/
def SHED_THR (i : Nat) : Nat := 0x0A010 + 0x4 * i
/-- SHED_HYS of number i (02 R49). -/
def SHED_HYS (i : Nat) : Nat := 0x0A020 + 0x4 * i
/-- BUDGET_CFG (02 R57). -/
def BUDGET_CFG : Nat := 0x0A040
/-- FEED_LIM of number i (02 R57). -/
def FEED_LIM (i : Nat) : Nat := 0x0A044 + 0x4 * i
/-- STALL_CFG of number i (05 R139). -/
def STALL_CFG (i : Nat) : Nat := 0x10000 + 0x100 * i
/-- STALL_PWM_CFG of number i (05 R139). -/
def STALL_PWM_CFG (i : Nat) : Nat := 0x10004 + 0x100 * i
/-- STALL_WIRE of number i (05 R139). -/
def STALL_WIRE (i : Nat) : Nat := 0x10008 + 0x100 * i
/-- STALL_WIRE_USER of number i (05 R139). -/
def STALL_WIRE_USER (i : Nat) : Nat := 0x1000C + 0x100 * i
/-- STALL_POLICY of number i (05 R139). -/
def STALL_POLICY (i : Nat) : Nat := 0x10010 + 0x100 * i
/-- STALL_BUDGET of number i (05 R139). -/
def STALL_BUDGET (i : Nat) : Nat := 0x10014 + 0x100 * i
/-- STALL_SEC of number i (05 R139). -/
def STALL_SEC (i : Nat) : Nat := 0x10018 + 0x100 * i
/-- STALL_SIG of number i (05 R138). -/
def STALL_SIG (i : Nat) : Nat := 0x1001C + 0x100 * i
/-- STALL_PROT of number i (06 R161). -/
def STALL_PROT (i : Nat) : Nat := 0x10040 + 0x100 * i
/-- STALL_THERM of number i (06 R161). -/
def STALL_THERM (i : Nat) : Nat := 0x10044 + 0x100 * i
/-- STALL_DIAG_CFG of number i (06 R161). -/
def STALL_DIAG_CFG (i : Nat) : Nat := 0x10048 + 0x100 * i
/-- STALL_STATUS of number i (06 R161). -/
def STALL_STATUS (i : Nat) : Nat := 0x1004C + 0x100 * i
/-- STALL_COUNT of number i (06 R161). -/
def STALL_COUNT (i : Nat) : Nat := 0x10050 + 0x100 * i
/-- STALL_PAUSE of number i (06 R161). -/
def STALL_PAUSE (i : Nat) : Nat := 0x10054 + 0x100 * i
/-- STALL_CROSS_LO of number i (06 R161). -/
def STALL_CROSS_LO (i : Nat) : Nat := 0x10058 + 0x100 * i
/-- STALL_CROSS_HI of number i (06 R161). -/
def STALL_CROSS_HI (i : Nat) : Nat := 0x1005C + 0x100 * i
/-- ROW_CFG of number i (05 R138). -/
def ROW_CFG (i : Nat) : Nat := 0x14000 + 0x40 * i
/-- DO_CFG of number i (10 R251). -/
def DO_CFG (i : Nat) : Nat := 0x18000 + 0x20 * i
/-- DO_POLICY of number i (10 R251). -/
def DO_POLICY (i : Nat) : Nat := 0x18004 + 0x20 * i
/-- DO_STATUS of number i (10 R251). -/
def DO_STATUS (i : Nat) : Nat := 0x18008 + 0x20 * i
/-- DO_SIG of number i (10 R251). -/
def DO_SIG (i : Nat) : Nat := 0x1800C + 0x20 * i
/-- SI_CFG of number i (10 R251). -/
def SI_CFG (i : Nat) : Nat := 0x18400 + 0x10 * i
/-- SI_STATUS of number i (10 R251). -/
def SI_STATUS (i : Nat) : Nat := 0x18404 + 0x10 * i
/-- SI_COUNT of number i (10 R251). -/
def SI_COUNT (i : Nat) : Nat := 0x18408 + 0x10 * i
/-- ENC_CFG of number i (10 R251). -/
def ENC_CFG (i : Nat) : Nat := 0x18800 + 0x10 * i
/-- ENC_COUNT of number i (10 R251). -/
def ENC_COUNT (i : Nat) : Nat := 0x18804 + 0x10 * i
/-- AIN_CFG of number i (10 R251). -/
def AIN_CFG (i : Nat) : Nat := 0x18900 + 0x10 * i
/-- AIN_LIM of number i (10 R251). -/
def AIN_LIM (i : Nat) : Nat := 0x18904 + 0x10 * i
/-- AIN_VAL of number i (10 R251). -/
def AIN_VAL (i : Nat) : Nat := 0x18908 + 0x10 * i
/-- DIO_CFG (10 R251). -/
def DIO_CFG : Nat := 0x18A00
/-- VALVE_CFG of number i (07 R181). -/
def VALVE_CFG (i : Nat) : Nat := 0x1C000 + 0x40 * i
/-- VALVE_TIME of number i (07 R181). -/
def VALVE_TIME (i : Nat) : Nat := 0x1C004 + 0x40 * i
/-- VALVE_CHOP of number i (07 R181). -/
def VALVE_CHOP (i : Nat) : Nat := 0x1C008 + 0x40 * i
/-- VALVE_POLICY of number i (07 R181). -/
def VALVE_POLICY (i : Nat) : Nat := 0x1C00C + 0x40 * i
/-- VALVE_DUTY of number i (07 R181). -/
def VALVE_DUTY (i : Nat) : Nat := 0x1C010 + 0x40 * i
/-- VALVE_DIAG_CFG of number i (07 R181). -/
def VALVE_DIAG_CFG (i : Nat) : Nat := 0x1C014 + 0x40 * i
/-- VALVE_STATUS of number i (07 R181). -/
def VALVE_STATUS (i : Nat) : Nat := 0x1C018 + 0x40 * i
/-- VALVE_SIG of number i (07 R181). -/
def VALVE_SIG (i : Nat) : Nat := 0x1C01C + 0x40 * i
/-- VG_CFG of number i (07 R181). -/
def VG_CFG (i : Nat) : Nat := 0x1C400 + 0x10 * i
/-- VG_STATUS of number i (07 R181). -/
def VG_STATUS (i : Nat) : Nat := 0x1C404 + 0x10 * i
/-- LOOP_CFG of number i (08 R205). -/
def LOOP_CFG (i : Nat) : Nat := 0x20000 + 0x100 * i
/-- LOOP_LIM of number i (08 R205). -/
def LOOP_LIM (i : Nat) : Nat := 0x20004 + 0x100 * i
/-- BRIDGE_CFG of number i (08 R205). -/
def BRIDGE_CFG (i : Nat) : Nat := 0x20008 + 0x100 * i
/-- LOOP_POLICY of number i (08 R205). -/
def LOOP_POLICY (i : Nat) : Nat := 0x2000C + 0x100 * i
/-- PROF_VMAX of number i (08 R205). -/
def PROF_VMAX (i : Nat) : Nat := 0x20010 + 0x100 * i
/-- PROF_AMAX of number i (08 R205). -/
def PROF_AMAX (i : Nat) : Nat := 0x20014 + 0x100 * i
/-- PROF_JMAX of number i (08 R205). -/
def PROF_JMAX (i : Nat) : Nat := 0x20018 + 0x100 * i
/-- MOTOR_RM of number i (08 R205). -/
def MOTOR_RM (i : Nat) : Nat := 0x20020 + 0x100 * i
/-- MOTOR_L of number i (08 R205). -/
def MOTOR_L (i : Nat) : Nat := 0x20024 + 0x100 * i
/-- MOTOR_KE of number i (08 R205). -/
def MOTOR_KE (i : Nat) : Nat := 0x20028 + 0x100 * i
/-- MOTOR_THERM of number i (08 R205). -/
def MOTOR_THERM (i : Nat) : Nat := 0x2002C + 0x100 * i
/-- PLAUS_CFG of number i (08 R205). -/
def PLAUS_CFG (i : Nat) : Nat := 0x20030 + 0x100 * i
/-- RIPPLE_CFG of number i (08 R205). -/
def RIPPLE_CFG (i : Nat) : Nat := 0x20034 + 0x100 * i
/-- PINCH_CFG of number i (08 R205). -/
def PINCH_CFG (i : Nat) : Nat := 0x20038 + 0x100 * i
/-- PINCH_TH of number i (08 R205). -/
def PINCH_TH (i : Nat) : Nat := 0x2003C + 0x100 * i
/-- POS_MIN of number i (08 R205). -/
def POS_MIN (i : Nat) : Nat := 0x20040 + 0x100 * i
/-- POS_MAX of number i (08 R205). -/
def POS_MAX (i : Nat) : Nat := 0x20044 + 0x100 * i
/-- TLM_CFG of number i (08 R205). -/
def TLM_CFG (i : Nat) : Nat := 0x20048 + 0x100 * i
/-- TLM_BASE_LO of number i (08 R205). -/
def TLM_BASE_LO (i : Nat) : Nat := 0x2004C + 0x100 * i
/-- TLM_BASE_HI of number i (08 R205). -/
def TLM_BASE_HI (i : Nat) : Nat := 0x20050 + 0x100 * i
/-- LOOP_STATUS of number i (08 R205). -/
def LOOP_STATUS (i : Nat) : Nat := 0x20060 + 0x100 * i
/-- LOOP_POS of number i (08 R205). -/
def LOOP_POS (i : Nat) : Nat := 0x20064 + 0x100 * i
/-- LOOP_MISSED of number i (08 R205). -/
def LOOP_MISSED (i : Nat) : Nat := 0x20068 + 0x100 * i
/-- LOOP_SIG of number i (08 R205). -/
def LOOP_SIG (i : Nat) : Nat := 0x2006C + 0x100 * i
/-- COEF[j] of loop i (08 R205). -/
def COEF (i j : Nat) : Nat := 0x20080 + 0x100 * i + 4 * j
/-- SINK_CFG of number i (09 R233). -/
def SINK_CFG (i : Nat) : Nat := 0x28000 + 0x40 * i
/-- SINK_POLICY of number i (09 R233). -/
def SINK_POLICY (i : Nat) : Nat := 0x28004 + 0x40 * i
/-- SINK_DERATE of number i (09 R233). -/
def SINK_DERATE (i : Nat) : Nat := 0x28008 + 0x40 * i
/-- SINK_VF of number i (09 R233). -/
def SINK_VF (i : Nat) : Nat := 0x2814C + 0x180 * i
/-- SINK_VFCAL of number i (09 R233). -/
def SINK_VFCAL (i : Nat) : Nat := 0x28010 + 0x40 * i
/-- SINK_VFCAL_T of number i (09 R233). -/
def SINK_VFCAL_T (i : Nat) : Nat := 0x28014 + 0x40 * i
/-- SINK_STATUS of number i (09 R233). -/
def SINK_STATUS (i : Nat) : Nat := 0x28018 + 0x40 * i
/-- SINK_SIG of number i (09 R233). -/
def SINK_SIG (i : Nat) : Nat := 0x2801C + 0x40 * i
/-- BOOST_CFG of number i (09 R233). -/
def BOOST_CFG (i : Nat) : Nat := 0x28400 + 0x40 * i
/-- BOOST_STATUS of number i (09 R233). -/
def BOOST_STATUS (i : Nat) : Nat := 0x28404 + 0x40 * i
/-- BOOST_POLICY of number i (09 R233). -/
def BOOST_POLICY (i : Nat) : Nat := 0x28408 + 0x40 * i
/-- BOOST_SIG of number i (09 R233). -/
def BOOST_SIG (i : Nat) : Nat := 0x2840C + 0x40 * i
/-- NTC_CFG of number i (09 R233). -/
def NTC_CFG (i : Nat) : Nat := 0x28500 + 0x10 * i
/-- NTC_STATUS of number i (09 R233). -/
def NTC_STATUS (i : Nat) : Nat := 0x28504 + 0x10 * i
/-- MX_CFG (09 R233). -/
def MX_CFG : Nat := 0x28600
/-- MX_POLICY (09 R233). -/
def MX_POLICY : Nat := 0x28604
/-- MX_STATUS (09 R233). -/
def MX_STATUS : Nat := 0x28608
/-- MX_COLOPEN (09 R233). -/
def MX_COLOPEN : Nat := 0x2860C
/-- MX_SIG (09 R233). -/
def MX_SIG : Nat := 0x28610
/-- LANTERN_CFG (09 R233). -/
def LANTERN_CFG : Nat := 0x28700
/-- PORT_CFG of number i (09 R233). -/
def PORT_CFG (i : Nat) : Nat := 0x28800 + 0x40 * i
/-- PORT_FEED of number i (09 R233). -/
def PORT_FEED (i : Nat) : Nat := 0x28804 + 0x40 * i
/-- PORT_SLOW of number i (09 R233). -/
def PORT_SLOW (i : Nat) : Nat := 0x28808 + 0x40 * i
/-- PORT_STATUS of number i (09 R233). -/
def PORT_STATUS (i : Nat) : Nat := 0x2880C + 0x40 * i
/-- PORT_ERR of number i (09 R233). -/
def PORT_ERR (i : Nat) : Nat := 0x28810 + 0x40 * i
/-- PORT_BREAK of number i (09 R233). -/
def PORT_BREAK (i : Nat) : Nat := 0x28814 + 0x40 * i
/-- TMR_CFG of number i (11 R269). -/
def TMR_CFG (i : Nat) : Nat := 0x30000 + 0x20 * i
/-- TMR_RELOAD of number i (11 R269). -/
def TMR_RELOAD (i : Nat) : Nat := 0x30004 + 0x20 * i
/-- TMR_CMP of number i (11 R269). -/
def TMR_CMP (i : Nat) : Nat := 0x30008 + 0x20 * i
/-- TMR_INIT of number i (11 R269). -/
def TMR_INIT (i : Nat) : Nat := 0x3000C + 0x20 * i
/-- TMR_COUNT of number i (11 R269). -/
def TMR_COUNT (i : Nat) : Nat := 0x30010 + 0x20 * i
/-- TMR_STATUS of number i (11 R269). -/
def TMR_STATUS (i : Nat) : Nat := 0x30014 + 0x20 * i
/-- MTIME_LO (11 R269). -/
def MTIME_LO : Nat := 0x30400
/-- MTIME_HI (11 R269). -/
def MTIME_HI : Nat := 0x30404
/-- TIME_CFG (11 R269). -/
def TIME_CFG : Nat := 0x30408
/-- TIME_STATUS (11 R269). -/
def TIME_STATUS : Nat := 0x3040C
/-- CAN_CFG of number i (12 R292). -/
def CAN_CFG (i : Nat) : Nat := 0x38000 + 0x80 * i
/-- CAN_SP of number i (12 R292). -/
def CAN_SP (i : Nat) : Nat := 0x38004 + 0x80 * i
/-- CAN_WAKE of number i (12 R292). -/
def CAN_WAKE (i : Nat) : Nat := 0x38008 + 0x80 * i
/-- CAN_STATUS of number i (12 R292). -/
def CAN_STATUS (i : Nat) : Nat := 0x3800C + 0x80 * i
/-- CAN_COUNT of number i (12 R292). -/
def CAN_COUNT (i : Nat) : Nat := 0x38010 + 0x80 * i
/-- SWF_ID of number i (12 R292). -/
def SWF_ID (i : Nat) : Nat := 0x38800 + 0x10 * i
/-- SWF_MASK of number i (12 R292). -/
def SWF_MASK (i : Nat) : Nat := 0x38804 + 0x10 * i
/-- SWF_DLO of number i (12 R292). -/
def SWF_DLO (i : Nat) : Nat := 0x38808 + 0x10 * i
/-- SWF_DHI of number i (12 R292). -/
def SWF_DHI (i : Nat) : Nat := 0x3880C + 0x10 * i
/-- LIN_CFG of number i (12 R292). -/
def LIN_CFG (i : Nat) : Nat := 0x39000 + 0x40 * i
/-- LIN_STATUS of number i (12 R292). -/
def LIN_STATUS (i : Nat) : Nat := 0x39004 + 0x40 * i
/-- LIN_COUNT of number i (12 R292). -/
def LIN_COUNT (i : Nat) : Nat := 0x39008 + 0x40 * i
/-- T1S_CFG of number i (12 R292). -/
def T1S_CFG (i : Nat) : Nat := 0x39200 + 0x40 * i
/-- T1S_STATUS of number i (12 R292). -/
def T1S_STATUS (i : Nat) : Nat := 0x39204 + 0x40 * i
/-- BB_CFG of number i (12 R292). -/
def BB_CFG (i : Nat) : Nat := 0x39400 + 0x40 * i
/-- BB_STATUS of number i (12 R292). -/
def BB_STATUS (i : Nat) : Nat := 0x39404 + 0x40 * i
/-- QBV_BASE_LO of number i (12 R292). -/
def QBV_BASE_LO (i : Nat) : Nat := 0x39410 + 0x40 * i
/-- QBV_BASE_HI of number i (12 R292). -/
def QBV_BASE_HI (i : Nat) : Nat := 0x39414 + 0x40 * i
/-- QBV_CYCLE of number i (12 R292). -/
def QBV_CYCLE (i : Nat) : Nat := 0x39418 + 0x40 * i
/-- QBV_LEN of number i (12 R292). -/
def QBV_LEN (i : Nat) : Nat := 0x3941C + 0x40 * i
/-- QBV_GATE of number i (12 R292). -/
def QBV_GATE (i : Nat) : Nat := 0x3A000 + 0x8 * i
/-- QBV_IVL of number i (12 R292). -/
def QBV_IVL (i : Nat) : Nat := 0x3A004 + 0x8 * i
/-- SW_CFG (12 R292). -/
def SW_CFG : Nat := 0x39600
/-- SW_COUNT (12 R292). -/
def SW_COUNT : Nat := 0x39604
/-- NM_TMR1 of number i (12 R292). -/
def NM_TMR1 (i : Nat) : Nat := 0x3B000 + 0x20 * i
/-- NM_TMR2 of number i (12 R292). -/
def NM_TMR2 (i : Nat) : Nat := 0x3B004 + 0x20 * i
/-- NM_FEED of number i (12 R292). -/
def NM_FEED (i : Nat) : Nat := 0x3B008 + 0x20 * i
/-- NM_CLASS of number i (12 R292). -/
def NM_CLASS (i : Nat) : Nat := 0x3B00C + 0x20 * i
/-- NM_STATUS of number i (12 R292). -/
def NM_STATUS (i : Nat) : Nat := 0x3B010 + 0x20 * i
/-- NM_COUNT of number i (12 R292). -/
def NM_COUNT (i : Nat) : Nat := 0x3B014 + 0x20 * i
/-- NM_CFG (12 R292). -/
def NM_CFG : Nat := 0x3B400
/-- NM_WAKE (12 R292). -/
def NM_WAKE : Nat := 0x3B404
/-- ACC_CFG of number i (16 R359). -/
def ACC_CFG (i : Nat) : Nat := 0x40000 + 0x10 * i
/-- ACC_TIME of number i (16 R359). -/
def ACC_TIME (i : Nat) : Nat := 0x40004 + 0x10 * i
/-- ACC_STATUS of number i (16 R359). -/
def ACC_STATUS (i : Nat) : Nat := 0x40008 + 0x10 * i
/-- TPC_CFG (16 R359). -/
def TPC_CFG : Nat := 0x40100
/-- TACK_CFG (16 R359). -/
def TACK_CFG : Nat := 0x40104
/-- TACK_STATUS (16 R359). -/
def TACK_STATUS : Nat := 0x40108
/-- ANCHOR_ID of number i (16 R359). -/
def ANCHOR_ID (i : Nat) : Nat := 0x40200 + 0x8 * i
/-- ANCHOR_OFS of number i (16 R359). -/
def ANCHOR_OFS (i : Nat) : Nat := 0x40204 + 0x8 * i
/-- UPD_STATUS (14 R339). -/
def UPD_STATUS : Nat := 0x48000
/-- UPD_EXEC (14 R339). -/
def UPD_EXEC : Nat := 0x48004
/-- UPD_STAGE (14 R339). -/
def UPD_STAGE : Nat := 0x48008
/-- UPD_SVN (14 R339). -/
def UPD_SVN : Nat := 0x4800C
/-- UPD_KEYSTAT (14 R339). -/
def UPD_KEYSTAT : Nat := 0x48010
/-- UPD_KEYBUF of number i (14 R339). -/
def UPD_KEYBUF (i : Nat) : Nat := 0x48020 + 0x4 * i
/-- UPD_KEYCTL (14 R339). -/
def UPD_KEYCTL : Nat := 0x48040
/-- AVS_ENV (15 R352). -/
def AVS_ENV : Nat := 0x50004
/-- SENSE_ENV (15 R352). -/
def SENSE_ENV : Nat := 0x50008
/-- EQ_ENV (15 R352). -/
def EQ_ENV : Nat := 0x5000C
/-- ADAPT_STATUS (15 R352). -/
def ADAPT_STATUS : Nat := 0x50010
/-- ST_CFG (15 R352). -/
def ST_CFG : Nat := 0x50020
/-- ST_STATUS (15 R352). -/
def ST_STATUS : Nat := 0x50024
/-- AGE_STATUS (15 R352). -/
def AGE_STATUS : Nat := 0x50028
/-- DEBUG_CFG (03 R76). -/
def DEBUG_CFG : Nat := 0x60000
/-- RING_CTRL of a function (04 R82). -/
def RING_CTRL (pf : Nat) : Nat := 0x01000 + 0x1000 * pf
/-- RING_STATUS of a function (04 R82). -/
def RING_STATUS (pf : Nat) : Nat := 0x01004 + 0x1000 * pf
/-- EQ_BASE_LO of a function (04 R82). -/
def EQ_BASE_LO (pf : Nat) : Nat := 0x01010 + 0x1000 * pf
/-- EQ_BASE_HI of a function (04 R82). -/
def EQ_BASE_HI (pf : Nat) : Nat := 0x01014 + 0x1000 * pf
/-- EQ_CFG of a function (04 R82). -/
def EQ_CFG (pf : Nat) : Nat := 0x01018 + 0x1000 * pf
/-- EQ_STATUS of a function (04 R82). -/
def EQ_STATUS (pf : Nat) : Nat := 0x0101C + 0x1000 * pf
/-- SQ_BASE_LO of number i of a function (04 R82). -/
def SQ_BASE_LO (pf i : Nat) : Nat := 0x01100 + 0x1000 * pf + 0x10 * i
/-- SQ_BASE_HI of number i of a function (04 R82). -/
def SQ_BASE_HI (pf i : Nat) : Nat := 0x01104 + 0x1000 * pf + 0x10 * i
/-- SQ_CFG of number i of a function (04 R82). -/
def SQ_CFG (pf i : Nat) : Nat := 0x01108 + 0x1000 * pf + 0x10 * i
/-- SQ_STATUS of number i of a function (04 R82). -/
def SQ_STATUS (pf i : Nat) : Nat := 0x0110C + 0x1000 * pf + 0x10 * i
/-- CQ_BASE_LO of number i of a function (04 R82). -/
def CQ_BASE_LO (pf i : Nat) : Nat := 0x01200 + 0x1000 * pf + 0x10 * i
/-- CQ_BASE_HI of number i of a function (04 R82). -/
def CQ_BASE_HI (pf i : Nat) : Nat := 0x01204 + 0x1000 * pf + 0x10 * i
/-- CQ_CFG of number i of a function (04 R82). -/
def CQ_CFG (pf i : Nat) : Nat := 0x01208 + 0x1000 * pf + 0x10 * i
/-- CQ_STATUS of number i of a function (04 R82). -/
def CQ_STATUS (pf i : Nat) : Nat := 0x0120C + 0x1000 * pf + 0x10 * i
/-- EVT_ROUTE of number i of a function (04 R82). -/
def EVT_ROUTE (pf i : Nat) : Nat := 0x01400 + 0x1000 * pf + 0x4 * i
/-- MSIX_ADDR_LO of number i of a function (04 R82). -/
def MSIX_ADDR_LO (pf i : Nat) : Nat := 0x01800 + 0x1000 * pf + 0x10 * i
/-- MSIX_ADDR_HI of number i of a function (04 R82). -/
def MSIX_ADDR_HI (pf i : Nat) : Nat := 0x01804 + 0x1000 * pf + 0x10 * i
/-- MSIX_DATA of number i of a function (04 R82). -/
def MSIX_DATA (pf i : Nat) : Nat := 0x01808 + 0x1000 * pf + 0x10 * i
/-- MSIX_CTRL of number i of a function (04 R82). -/
def MSIX_CTRL (pf i : Nat) : Nat := 0x0180C + 0x1000 * pf + 0x10 * i
/-- MSIX_PBA of number i of a function (04 R82). -/
def MSIX_PBA (pf i : Nat) : Nat := 0x01A00 + 0x1000 * pf + 0x4 * i
/-- SQ_TAIL of number i of a function (04 R85). -/
def SQ_TAIL (pf i : Nat) : Nat := 0x04000 + 0x1000 * pf + 0x4 * i
/-- CQ_HEAD of number i of a function (04 R85). -/
def CQ_HEAD (pf i : Nat) : Nat := 0x04040 + 0x1000 * pf + 0x4 * i
/-- EQ_HEAD of a function (04 R85). -/
def EQ_HEAD (pf : Nat) : Nat := 0x04060 + 0x1000 * pf
/-- HEARTBEAT of a function (04 R85). -/
def HEARTBEAT (pf : Nat) : Nat := 0x04064 + 0x1000 * pf
end Reg

/-- The set-up registers from 0x00000 on (16 R358). -/
def regRows0 : List RegRow := [
  -- SYS_ID
  { base := 0x00000, stride := 0x4, count := 1, rst := .k 0x94800000, owner := .all, res := .none_ },
  -- SYS_REV
  { base := 0x00004, stride := 0x4, count := 1, rst := .k 0x1111111, owner := .all, res := .none_ },
  -- SYS_VARIANT
  { base := 0x00008, stride := 0x4, count := 1, rst := .k 0xF, owner := .all, res := .none_ },
  -- SYS_UID_LO
  { base := 0x0000C, stride := 0x4, count := 1, rst := .k 0x0, owner := .all, res := .none_ },
  -- SYS_UID_HI
  { base := 0x00010, stride := 0x4, count := 1, rst := .k 0x0, owner := .all, res := .none_ },
  -- SYS_STATE
  { base := 0x00014, stride := 0x4, count := 1, rst := .k 0x1, owner := .all, res := .none_ },
  -- RST_CAUSE
  { base := 0x00040, stride := 0x4, count := 1, rst := .k 0x1, owner := .all, res := .none_, w1c := 0x1FF },
  -- RST_CMD
  { base := 0x00044, stride := 0x4, count := 1, rst := .k 0x0, owner := .all, res := .none_, wo := 0xFFFF00F3 },
  -- ADOPT_STATUS
  { base := 0x00048, stride := 0x4, count := 1, rst := .k 0x0, owner := .all, res := .none_ },
  -- RING_CTRL_PF0
  { base := 0x01000, stride := 0x4, count := 1, rst := .k 0x3E80000, owner := .page 0, res := .none_, rw := 0x3FFF0001 },
  -- RING_STATUS_PF0
  { base := 0x01004, stride := 0x4, count := 1, rst := .k 0x0, owner := .page 0, res := .none_ },
  -- EQ_BASE_LO_PF0
  { base := 0x01010, stride := 0x4, count := 1, rst := .k 0x0, owner := .page 0, res := .none_, rw := 0xFFFFF000 },
  -- EQ_BASE_HI_PF0
  { base := 0x01014, stride := 0x4, count := 1, rst := .k 0x0, owner := .page 0, res := .none_, rw := 0xFFFFFFFF },
  -- EQ_CFG_PF0
  { base := 0x01018, stride := 0x4, count := 1, rst := .k 0x0, owner := .page 0, res := .none_, rw := 0xF1 },
  -- EQ_STATUS_PF0
  { base := 0x0101C, stride := 0x4, count := 1, rst := .k 0x10000000, owner := .page 0, res := .none_, w1c := 0x4 },
  -- SQ_BASE_LO_PF0
  { base := 0x01100, stride := 0x10, count := 16, rst := .k 0x0, owner := .page 0, res := .none_, rw := 0xFFFFF000 },
  -- SQ_BASE_HI_PF0
  { base := 0x01104, stride := 0x10, count := 16, rst := .k 0x0, owner := .page 0, res := .none_, rw := 0xFFFFFFFF },
  -- SQ_CFG_PF0
  { base := 0x01108, stride := 0x10, count := 16, rst := .k 0x0, owner := .page 0, res := .none_, rw := 0x7F3F1 },
  -- SQ_STATUS_PF0
  { base := 0x0110C, stride := 0x10, count := 16, rst := .k 0x0, owner := .page 0, res := .none_, w1c := 0x4 },
  -- CQ_BASE_LO_PF0
  { base := 0x01200, stride := 0x10, count := 8, rst := .k 0x0, owner := .page 0, res := .none_, rw := 0xFFFFF000 },
  -- CQ_BASE_HI_PF0
  { base := 0x01204, stride := 0x10, count := 8, rst := .k 0x0, owner := .page 0, res := .none_, rw := 0xFFFFFFFF },
  -- CQ_CFG_PF0
  { base := 0x01208, stride := 0x10, count := 8, rst := .k 0x0, owner := .page 0, res := .none_, rw := 0xFF1FF3 },
  -- CQ_STATUS_PF0
  { base := 0x0120C, stride := 0x10, count := 8, rst := .k 0x10000000, owner := .page 0, res := .none_, w1c := 0x4 },
  -- EVT_ROUTE_PF0
  { base := 0x01400, stride := 0x4, count := 244, rst := .k 0x100, owner := .page 0, res := .none_, rw := 0x31F },
  -- MSIX_ADDR_LO_PF0
  { base := 0x01800, stride := 0x10, count := 32, rst := .k 0x0, owner := .page 0, res := .none_, rw := 0xFFFFFFFC },
  -- MSIX_ADDR_HI_PF0
  { base := 0x01804, stride := 0x10, count := 32, rst := .k 0x0, owner := .page 0, res := .none_, rw := 0xFFFFFFFF },
  -- MSIX_DATA_PF0
  { base := 0x01808, stride := 0x10, count := 32, rst := .k 0x0, owner := .page 0, res := .none_, rw := 0xFFFFFFFF },
  -- MSIX_CTRL_PF0
  { base := 0x0180C, stride := 0x10, count := 32, rst := .k 0x1, owner := .page 0, res := .none_, rw := 0x1 },
  -- MSIX_PBA_PF0
  { base := 0x01A00, stride := 0x4, count := 2, rst := .k 0x0, owner := .page 0, res := .none_ },
  -- RING_CTRL_PF1
  { base := 0x02000, stride := 0x4, count := 1, rst := .k 0x3E80000, owner := .page 1, res := .none_, rw := 0x3FFF0001 },
  -- RING_STATUS_PF1
  { base := 0x02004, stride := 0x4, count := 1, rst := .k 0x0, owner := .page 1, res := .none_ },
  -- EQ_BASE_LO_PF1
  { base := 0x02010, stride := 0x4, count := 1, rst := .k 0x0, owner := .page 1, res := .none_, rw := 0xFFFFF000 },
  -- EQ_BASE_HI_PF1
  { base := 0x02014, stride := 0x4, count := 1, rst := .k 0x0, owner := .page 1, res := .none_, rw := 0xFFFFFFFF },
  -- EQ_CFG_PF1
  { base := 0x02018, stride := 0x4, count := 1, rst := .k 0x0, owner := .page 1, res := .none_, rw := 0xF1 },
  -- EQ_STATUS_PF1
  { base := 0x0201C, stride := 0x4, count := 1, rst := .k 0x10000000, owner := .page 1, res := .none_, w1c := 0x4 },
  -- SQ_BASE_LO_PF1
  { base := 0x02100, stride := 0x10, count := 16, rst := .k 0x0, owner := .page 1, res := .none_, rw := 0xFFFFF000 },
  -- SQ_BASE_HI_PF1
  { base := 0x02104, stride := 0x10, count := 16, rst := .k 0x0, owner := .page 1, res := .none_, rw := 0xFFFFFFFF },
  -- SQ_CFG_PF1
  { base := 0x02108, stride := 0x10, count := 16, rst := .k 0x0, owner := .page 1, res := .none_, rw := 0x7F3F1 },
  -- SQ_STATUS_PF1
  { base := 0x0210C, stride := 0x10, count := 16, rst := .k 0x0, owner := .page 1, res := .none_, w1c := 0x4 },
  -- CQ_BASE_LO_PF1
  { base := 0x02200, stride := 0x10, count := 8, rst := .k 0x0, owner := .page 1, res := .none_, rw := 0xFFFFF000 }]

/-- The set-up registers from 0x02204 on (16 R358). -/
def regRows1 : List RegRow := [
  -- CQ_BASE_HI_PF1
  { base := 0x02204, stride := 0x10, count := 8, rst := .k 0x0, owner := .page 1, res := .none_, rw := 0xFFFFFFFF },
  -- CQ_CFG_PF1
  { base := 0x02208, stride := 0x10, count := 8, rst := .k 0x0, owner := .page 1, res := .none_, rw := 0xFF1FF3 },
  -- CQ_STATUS_PF1
  { base := 0x0220C, stride := 0x10, count := 8, rst := .k 0x10000000, owner := .page 1, res := .none_, w1c := 0x4 },
  -- EVT_ROUTE_PF1
  { base := 0x02400, stride := 0x4, count := 244, rst := .k 0x100, owner := .page 1, res := .none_, rw := 0x31F },
  -- MSIX_ADDR_LO_PF1
  { base := 0x02800, stride := 0x10, count := 32, rst := .k 0x0, owner := .page 1, res := .none_, rw := 0xFFFFFFFC },
  -- MSIX_ADDR_HI_PF1
  { base := 0x02804, stride := 0x10, count := 32, rst := .k 0x0, owner := .page 1, res := .none_, rw := 0xFFFFFFFF },
  -- MSIX_DATA_PF1
  { base := 0x02808, stride := 0x10, count := 32, rst := .k 0x0, owner := .page 1, res := .none_, rw := 0xFFFFFFFF },
  -- MSIX_CTRL_PF1
  { base := 0x0280C, stride := 0x10, count := 32, rst := .k 0x1, owner := .page 1, res := .none_, rw := 0x1 },
  -- MSIX_PBA_PF1
  { base := 0x02A00, stride := 0x4, count := 2, rst := .k 0x0, owner := .page 1, res := .none_ },
  -- SQ_TAIL_PF0
  { base := 0x04000, stride := 0x4, count := 16, rst := .k 0x0, owner := .page 0, res := .none_ },
  -- CQ_HEAD_PF0
  { base := 0x04040, stride := 0x4, count := 8, rst := .k 0x0, owner := .page 0, res := .none_ },
  -- EQ_HEAD_PF0
  { base := 0x04060, stride := 0x4, count := 1, rst := .k 0x0, owner := .page 0, res := .none_ },
  -- HEARTBEAT_PF0
  { base := 0x04064, stride := 0x4, count := 1, rst := .k 0x0, owner := .page 0, res := .none_ },
  -- SQ_TAIL_PF1
  { base := 0x05000, stride := 0x4, count := 16, rst := .k 0x0, owner := .page 1, res := .none_ },
  -- CQ_HEAD_PF1
  { base := 0x05040, stride := 0x4, count := 8, rst := .k 0x0, owner := .page 1, res := .none_ },
  -- EQ_HEAD_PF1
  { base := 0x05060, stride := 0x4, count := 1, rst := .k 0x0, owner := .page 1, res := .none_ },
  -- HEARTBEAT_PF1
  { base := 0x05064, stride := 0x4, count := 1, rst := .k 0x0, owner := .page 1, res := .none_ },
  -- WT
  { base := 0x08000, stride := 0x4, count := 64, rst := .k 0x0, owner := .sec, res := .none_, rwl := 0xC03F3F3F, rws := 0xC03F3F3F },
  -- WIN_BASE_LO
  { base := 0x08200, stride := 0x10, count := 32, rst := .k 0x0, owner := .sec, res := .none_, rwl := 0xFFFFF007, rws := 0xFFFFF007 },
  -- WIN_BASE_HI
  { base := 0x08204, stride := 0x10, count := 32, rst := .k 0x0, owner := .sec, res := .none_, rwl := 0xFFFFFFFF, rws := 0xFFFFFFFF },
  -- WIN_LIM_LO
  { base := 0x08208, stride := 0x10, count := 32, rst := .k 0x0, owner := .sec, res := .none_, rwl := 0xFFFFF000, rws := 0xFFFFF000 },
  -- WIN_LIM_HI
  { base := 0x0820C, stride := 0x10, count := 32, rst := .k 0x0, owner := .sec, res := .none_, rwl := 0xFFFFFFFF, rws := 0xFFFFFFFF },
  -- WORLD_STATUS
  { base := 0x08400, stride := 0x4, count := 1, rst := .k 0x0, owner := .all, res := .none_ },
  -- WT_BAD_LO
  { base := 0x08404, stride := 0x4, count := 1, rst := .k 0x0, owner := .all, res := .none_ },
  -- WT_BAD_HI
  { base := 0x08408, stride := 0x4, count := 1, rst := .k 0x0, owner := .all, res := .none_ },
  -- POWER_CFG
  { base := 0x09000, stride := 0x4, count := 1, rst := .k 0x1F19, owner := .all, res := .none_, rwl := 0x1F1F },
  -- SUPPLY_CFG
  { base := 0x0A000, stride := 0x4, count := 1, rst := .k 0x0, owner := .blk 0x1E, res := .all, rwl := 0x3 },
  -- SHED_THR
  { base := 0x0A010, stride := 0x4, count := 4, rst := .pick [3] 0x1544B104 0x05A11832, owner := .blk 0x1E, res := .feed, rwl := 0x3FFFFFFF },
  -- SHED_HYS
  { base := 0x0A020, stride := 0x4, count := 4, rst := .pick [3] 0x00050014 0x0005000A, owner := .blk 0x1E, res := .feed, rwl := 0x7F00FF },
  -- BUDGET_CFG
  { base := 0x0A040, stride := 0x4, count := 1, rst := .k 0x46, owner := .blk 0x1E, res := .none_, rwl := 0x7F },
  -- FEED_LIM
  { base := 0x0A044, stride := 0x4, count := 1, rst := .k 0x96, owner := .blk 0x1E, res := .none_, rwl := 0xFF },
  -- FEED_LIM
  { base := 0x0A048, stride := 0x4, count := 1, rst := .k 0x96, owner := .blk 0x1E, res := .none_, rwl := 0xFF },
  -- FEED_LIM
  { base := 0x0A04C, stride := 0x4, count := 1, rst := .k 0x64, owner := .blk 0x1E, res := .none_, rwl := 0xFF },
  -- FEED_LIM
  { base := 0x0A050, stride := 0x4, count := 1, rst := .k 0x50, owner := .blk 0x1E, res := .none_, rwl := 0xFF },
  -- STALL_CFG
  { base := 0x10000, stride := 0x100, count := 64, rst := .byRow 0x000A40F0 0x000A4078 0x000A4032 0x000A40A0 0x000A403C, owner := .stall, res := .stall, rw := 0x3FFFFF },
  -- STALL_PWM_CFG
  { base := 0x10004, stride := 0x100, count := 64, rst := .lin 0 0x20 8, owner := .stall, res := .stall, rw := 0xFF },
  -- STALL_WIRE
  { base := 0x10008, stride := 0x100, count := 64, rst := .byRow 0x80555696 0x80555694 0x80555691 0x80555695 0x80555692, owner := .stall, res := .stall, rw := 0x81FFFFFF },
  -- STALL_WIRE_USER
  { base := 0x1000C, stride := 0x100, count := 64, rst := .k 0x0, owner := .stall, res := .stall, rw := 0xFFFFFFFF },
  -- STALL_POLICY
  { base := 0x10010, stride := 0x100, count := 64, rst := .k 0x20000, owner := .stall, res := .stall, rw := 0x7FFF, rwl := 0x30000 },
  -- STALL_BUDGET
  { base := 0x10014, stride := 0x100, count := 64, rst := .byRow 0x78 0x3C 0x19 0x50 0x1E, owner := .stall, res := .stall, rw := 0x3FF }]

/-- The set-up registers from 0x10018 on (16 R358). -/
def regRows2 : List RegRow := [
  -- STALL_SEC
  { base := 0x10018, stride := 0x100, count := 64, rst := .k 0x0, owner := .stall, res := .stall, rwl := 0x1FF, rws := 0x1FF },
  -- STALL_SIG
  { base := 0x1001C, stride := 0x100, count := 64, rst := .k 0x0, owner := .stall, res := .none_ },
  -- STALL_PROT
  { base := 0x10040, stride := 0x100, count := 64, rst := .k 0xA0187, owner := .stall, res := .stall, rw := 0xFF07FF },
  -- STALL_THERM
  { base := 0x10044, stride := 0x100, count := 64, rst := .k 0x14AA, owner := .stall, res := .stall, rw := 0x3FFF },
  -- STALL_DIAG_CFG
  { base := 0x10048, stride := 0x100, count := 64, rst := .k 0x3, owner := .stall, res := .stall, rw := 0xFF03 },
  -- STALL_STATUS
  { base := 0x1004C, stride := 0x100, count := 64, rst := .k 0x0, owner := .stall, res := .none_ },
  -- STALL_COUNT
  { base := 0x10050, stride := 0x100, count := 64, rst := .k 0x0, owner := .stall, res := .none_ },
  -- STALL_PAUSE
  { base := 0x10054, stride := 0x100, count := 64, rst := .k 0x0, owner := .stall, res := .none_ },
  -- STALL_CROSS_LO
  { base := 0x10058, stride := 0x100, count := 64, rst := .k 0x0, owner := .stall, res := .none_ },
  -- STALL_CROSS_HI
  { base := 0x1005C, stride := 0x100, count := 64, rst := .k 0x0, owner := .stall, res := .none_ },
  -- ROW_CFG
  { base := 0x14000, stride := 0x40, count := 8, rst := .k 0x1388, owner := .all, res := .row, rwl := 0x3F1FFFF },
  -- DO_CFG
  { base := 0x18000, stride := 0x20, count := 12, rst := .k 0x3, owner := .dout, res := .yd, rw := 0xFF07, rwl := 0x8 },
  -- DO_POLICY
  { base := 0x18004, stride := 0x20, count := 12, rst := .k 0x2000, owner := .dout, res := .yd, rw := 0x3FFF },
  -- DO_STATUS
  { base := 0x18008, stride := 0x20, count := 12, rst := .k 0x0, owner := .dout, res := .none_ },
  -- DO_SIG
  { base := 0x1800C, stride := 0x20, count := 12, rst := .k 0x0, owner := .dout, res := .none_ },
  -- SI_CFG
  { base := 0x18400, stride := 0x10, count := 48, rst := .k 0x8300, owner := .blk 0x12, res := .yd, rw := 0x8F3F, rwl := 0x7000 },
  -- SI_STATUS
  { base := 0x18404, stride := 0x10, count := 48, rst := .k 0x0, owner := .blk 0x12, res := .none_ },
  -- SI_COUNT
  { base := 0x18408, stride := 0x10, count := 48, rst := .k 0x0, owner := .blk 0x12, res := .none_ },
  -- ENC_CFG
  { base := 0x18800, stride := 0x10, count := 12, rst := .lin 0x9400 0x100 12, owner := .blk 0x12, res := .yd, rw := 0xFF01 },
  -- ENC_COUNT
  { base := 0x18804, stride := 0x10, count := 12, rst := .k 0x0, owner := .blk 0x12, res := .none_ },
  -- AIN_CFG
  { base := 0x18900, stride := 0x10, count := 8, rst := .k 0x0, owner := .blk 0x12, res := .yd, rw := 0x7F03 },
  -- AIN_LIM
  { base := 0x18904, stride := 0x10, count := 8, rst := .k 0xFFF0000, owner := .blk 0x12, res := .yd, rw := 0xFFF0FFF },
  -- AIN_VAL
  { base := 0x18908, stride := 0x10, count := 8, rst := .k 0x0, owner := .blk 0x12, res := .none_ },
  -- DIO_CFG
  { base := 0x18A00, stride := 0x4, count := 1, rst := .k 0x8140204, owner := .blk 0x12, res := .yd, rw := 0xFF1F, rwl := 0xFFF0000 },
  -- VALVE_CFG
  { base := 0x1C000, stride := 0x40, count := 16, rst := .k 0x3200C8, owner := .blk 0x13, res := .yd, rw := 0x3FF07FF },
  -- VALVE_TIME
  { base := 0x1C004, stride := 0x40, count := 16, rst := .k 0x1432, owner := .blk 0x13, res := .yd, rw := 0xFFFF },
  -- VALVE_CHOP
  { base := 0x1C008, stride := 0x40, count := 16, rst := .k 0xA0A14, owner := .blk 0x13, res := .yd, rw := 0xF3F3F },
  -- VALVE_POLICY
  { base := 0x1C00C, stride := 0x40, count := 16, rst := .k 0x22000, owner := .blk 0x13, res := .yd, rw := 0x3FFF, rwl := 0x30000 },
  -- VALVE_DUTY
  { base := 0x1C010, stride := 0x40, count := 16, rst := .k 0x640A, owner := .blk 0x13, res := .yd, rw := 0x7F7F },
  -- VALVE_DIAG_CFG
  { base := 0x1C014, stride := 0x40, count := 16, rst := .k 0x1, owner := .blk 0x13, res := .yd, rw := 0x1 },
  -- VALVE_STATUS
  { base := 0x1C018, stride := 0x40, count := 16, rst := .k 0x0, owner := .blk 0x13, res := .none_ },
  -- VALVE_SIG
  { base := 0x1C01C, stride := 0x40, count := 16, rst := .k 0x0, owner := .blk 0x13, res := .none_ },
  -- VG_CFG
  { base := 0x1C400, stride := 0x10, count := 4, rst := .k 0x140064, owner := .blk 0x13, res := .yd, rw := 0x1F01FF },
  -- VG_STATUS
  { base := 0x1C404, stride := 0x10, count := 4, rst := .k 0x0, owner := .blk 0x13, res := .none_ },
  -- LOOP_CFG
  { base := 0x20000, stride := 0x100, count := 10, rst := .lin 0x00320000 0x100 10, owner := .blk 0x14, res := .none_, rw := 0xFFFF1FF7 },
  -- LOOP_LIM
  { base := 0x20004, stride := 0x100, count := 10, rst := .pick [0, 1, 2, 3, 4, 5] 0x00640064 0x0064001E, owner := .blk 0x14, res := .yd, rw := 0xFFFF03FF },
  -- BRIDGE_CFG
  { base := 0x20008, stride := 0x100, count := 10, rst := .k 0x980814, owner := .blk 0x14, res := .yd, rw := 0xFF3F3F },
  -- LOOP_POLICY
  { base := 0x2000C, stride := 0x100, count := 10, rst := .k 0x22000, owner := .blk 0x14, res := .yd, rw := 0x3FFF, rwl := 0x30000 },
  -- PROF_VMAX
  { base := 0x20010, stride := 0x100, count := 10, rst := .k 0x7D0, owner := .blk 0x14, res := .none_, rw := 0xFFFFFF },
  -- PROF_AMAX
  { base := 0x20014, stride := 0x100, count := 10, rst := .k 0x4E20, owner := .blk 0x14, res := .none_, rw := 0xFFFFFFFF }]

/-- The set-up registers from 0x20018 on (16 R358). -/
def regRows3 : List RegRow := [
  -- PROF_JMAX
  { base := 0x20018, stride := 0x100, count := 10, rst := .k 0x61A80, owner := .blk 0x14, res := .none_, rw := 0xFFFFFFFF },
  -- MOTOR_RM
  { base := 0x20020, stride := 0x100, count := 10, rst := .k 0x10000, owner := .blk 0x14, res := .none_, rw := 0xFFFFFFFF },
  -- MOTOR_L
  { base := 0x20024, stride := 0x100, count := 10, rst := .k 0x10000, owner := .blk 0x14, res := .none_, rw := 0xFFFFFFFF },
  -- MOTOR_KE
  { base := 0x20028, stride := 0x100, count := 10, rst := .k 0x10000, owner := .blk 0x14, res := .none_, rw := 0xFFFFFFFF },
  -- MOTOR_THERM
  { base := 0x2002C, stride := 0x100, count := 10, rst := .k 0x12C0190, owner := .blk 0x14, res := .none_, rw := 0xFFFFFFFF },
  -- PLAUS_CFG
  { base := 0x20030, stride := 0x100, count := 10, rst := .k 0x141901F4, owner := .blk 0x14, res := .none_, rw := 0xFFFFFFFF },
  -- RIPPLE_CFG
  { base := 0x20034, stride := 0x100, count := 10, rst := .k 0x328, owner := .blk 0x14, res := .none_, rw := 0xFFFF },
  -- PINCH_CFG
  { base := 0x20038, stride := 0x100, count := 10, rst := .k 0xC80410, owner := .blk 0x14, res := .none_, rw := 0xFFFFFFFF },
  -- PINCH_TH
  { base := 0x2003C, stride := 0x100, count := 10, rst := .k 0x190400C8, owner := .blk 0x14, res := .none_, rw := 0xFFFFFFFF },
  -- POS_MIN
  { base := 0x20040, stride := 0x100, count := 10, rst := .k 0x0, owner := .blk 0x14, res := .none_, rw := 0xFFFFFFFF },
  -- POS_MAX
  { base := 0x20044, stride := 0x100, count := 10, rst := .k 0x1000, owner := .blk 0x14, res := .none_, rw := 0xFFFFFFFF },
  -- TLM_CFG
  { base := 0x20048, stride := 0x100, count := 10, rst := .k 0x0, owner := .blk 0x14, res := .none_, rw := 0xFFF01 },
  -- TLM_BASE_LO
  { base := 0x2004C, stride := 0x100, count := 10, rst := .k 0x0, owner := .blk 0x14, res := .none_, rw := 0xFFFFF000 },
  -- TLM_BASE_HI
  { base := 0x20050, stride := 0x100, count := 10, rst := .k 0x0, owner := .blk 0x14, res := .none_, rw := 0xFFFFFFFF },
  -- LOOP_STATUS
  { base := 0x20060, stride := 0x100, count := 10, rst := .k 0x0, owner := .blk 0x14, res := .none_, w1c := 0x7E0 },
  -- LOOP_POS
  { base := 0x20064, stride := 0x100, count := 10, rst := .k 0x0, owner := .blk 0x14, res := .none_ },
  -- LOOP_MISSED
  { base := 0x20068, stride := 0x100, count := 10, rst := .k 0x0, owner := .blk 0x14, res := .none_ },
  -- LOOP_SIG
  { base := 0x2006C, stride := 0x100, count := 10, rst := .k 0x0, owner := .blk 0x14, res := .none_ },
  -- COEF0
  { base := 0x20080, stride := 0x100, count := 10, rst := .k 0x0, owner := .blk 0x14, res := .none_, rw := 0xFFFFFFFF },
  -- COEF1
  { base := 0x20084, stride := 0x100, count := 10, rst := .k 0x0, owner := .blk 0x14, res := .none_, rw := 0xFFFFFFFF },
  -- COEF2
  { base := 0x20088, stride := 0x100, count := 10, rst := .k 0x0, owner := .blk 0x14, res := .none_, rw := 0xFFFFFFFF },
  -- COEF3
  { base := 0x2008C, stride := 0x100, count := 10, rst := .k 0x10000, owner := .blk 0x14, res := .none_, rw := 0xFFFFFFFF },
  -- COEF4
  { base := 0x20090, stride := 0x100, count := 10, rst := .k 0x0, owner := .blk 0x14, res := .none_, rw := 0xFFFFFFFF },
  -- COEF5
  { base := 0x20094, stride := 0x100, count := 10, rst := .k 0x0, owner := .blk 0x14, res := .none_, rw := 0xFFFFFFFF },
  -- COEF6
  { base := 0x20098, stride := 0x100, count := 10, rst := .k 0x0, owner := .blk 0x14, res := .none_, rw := 0xFFFFFFFF },
  -- COEF7
  { base := 0x2009C, stride := 0x100, count := 10, rst := .k 0xC0000, owner := .blk 0x14, res := .none_, rw := 0xFFFFFFFF },
  -- SINK_CFG
  { base := 0x28000, stride := 0x40, count := 12, rst := .k 0x2000F, owner := .blk 0x15, res := .yd, rw := 0xFF0F, rwl := 0x30000 },
  -- SINK_POLICY
  { base := 0x28004, stride := 0x40, count := 12, rst := .k 0x0, owner := .blk 0x15, res := .yd, rw := 0x3FFF },
  -- SINK_DERATE
  { base := 0x28008, stride := 0x40, count := 12, rst := .pick [5, 11] 0x0040966E 0x00407D55, owner := .blk 0x15, res := .yd, rw := 0xFFFFFF },
  -- SINK_VFCAL
  { base := 0x28010, stride := 0x40, count := 12, rst := .k 0x0, owner := .blk 0x15, res := .none_ },
  -- SINK_VFCAL_T
  { base := 0x28014, stride := 0x40, count := 12, rst := .k 0x0, owner := .blk 0x15, res := .none_ },
  -- SINK_STATUS
  { base := 0x28018, stride := 0x40, count := 12, rst := .k 0x0, owner := .blk 0x15, res := .none_ },
  -- SINK_SIG
  { base := 0x2801C, stride := 0x40, count := 12, rst := .k 0x0, owner := .blk 0x15, res := .none_ },
  -- SINK_VF
  { base := 0x2814C, stride := 0x180, count := 2, rst := .k 0x280F830, owner := .blk 0x15, res := .yd, rw := 0x3FFFFFF },
  -- BOOST_CFG
  { base := 0x28400, stride := 0x40, count := 2, rst := .k 0x181882, owner := .blk 0x15, res := .yd, rw := 0x1F1FFF },
  -- BOOST_STATUS
  { base := 0x28404, stride := 0x40, count := 2, rst := .k 0x0, owner := .blk 0x15, res := .none_ },
  -- BOOST_POLICY
  { base := 0x28408, stride := 0x40, count := 2, rst := .k 0x0, owner := .blk 0x15, res := .yd, rw := 0x3FFF },
  -- BOOST_SIG
  { base := 0x2840C, stride := 0x40, count := 2, rst := .k 0x0, owner := .blk 0x15, res := .none_ },
  -- NTC_CFG
  { base := 0x28500, stride := 0x10, count := 8, rst := .k 0xA0D6B, owner := .blk 0x15, res := .yd, rw := 0xFFFFFF },
  -- NTC_STATUS
  { base := 0x28504, stride := 0x10, count := 8, rst := .k 0x0, owner := .blk 0x15, res := .none_ }]

/-- The set-up registers from 0x28600 on (16 R358). -/
def regRows4 : List RegRow := [
  -- MX_CFG
  { base := 0x28600, stride := 0x4, count := 1, rst := .k 0x140800F2, owner := .blk 0x16, res := .yd, rw := 0x3F3F07FF },
  -- MX_POLICY
  { base := 0x28604, stride := 0x4, count := 1, rst := .k 0x22000, owner := .blk 0x16, res := .yd, rw := 0x3FFF, rwl := 0x30000 },
  -- MX_STATUS
  { base := 0x28608, stride := 0x4, count := 1, rst := .k 0x0, owner := .blk 0x16, res := .none_ },
  -- MX_COLOPEN
  { base := 0x2860C, stride := 0x4, count := 1, rst := .k 0x0, owner := .blk 0x16, res := .none_ },
  -- MX_SIG
  { base := 0x28610, stride := 0x4, count := 1, rst := .k 0x0, owner := .blk 0x16, res := .none_ },
  -- LANTERN_CFG
  { base := 0x28700, stride := 0x4, count := 1, rst := .k 0x81388, owner := .blk 0x15, res := .yd, rwl := 0xFFFFF },
  -- PORT_CFG
  { base := 0x28800, stride := 0x40, count := 8, rst := .k 0x10A02, owner := .blk 0x17, res := .none_, rw := 0xFF03FF0F },
  -- PORT_FEED
  { base := 0x28804, stride := 0x40, count := 8, rst := .k 0x0, owner := .blk 0x17, res := .none_, rw := 0xBF },
  -- PORT_SLOW
  { base := 0x28808, stride := 0x40, count := 8, rst := .k 0x0, owner := .blk 0x17, res := .none_, rw := 0x7FF },
  -- PORT_STATUS
  { base := 0x2880C, stride := 0x40, count := 8, rst := .k 0x0, owner := .blk 0x17, res := .none_ },
  -- PORT_ERR
  { base := 0x28810, stride := 0x40, count := 8, rst := .k 0x0, owner := .blk 0x17, res := .none_ },
  -- PORT_BREAK
  { base := 0x28814, stride := 0x40, count := 8, rst := .k 0x0, owner := .blk 0x17, res := .none_ },
  -- TMR_CFG
  { base := 0x30000, stride := 0x20, count := 32, rst := .k 0x1, owner := .blk 0x02, res := .none_, rw := 0x1FF7 },
  -- TMR_RELOAD
  { base := 0x30004, stride := 0x20, count := 32, rst := .k 0x270F, owner := .blk 0x02, res := .none_, rw := 0xFFFFFFFF },
  -- TMR_CMP
  { base := 0x30008, stride := 0x20, count := 32, rst := .k 0xFFFFFFFF, owner := .blk 0x02, res := .none_, rw := 0xFFFFFFFF },
  -- TMR_INIT
  { base := 0x3000C, stride := 0x20, count := 32, rst := .k 0x0, owner := .blk 0x02, res := .none_, rw := 0xFFFFFFFF },
  -- TMR_COUNT
  { base := 0x30010, stride := 0x20, count := 32, rst := .k 0x0, owner := .blk 0x02, res := .none_ },
  -- TMR_STATUS
  { base := 0x30014, stride := 0x20, count := 32, rst := .k 0x0, owner := .blk 0x02, res := .none_, w1c := 0x4 },
  -- MTIME_LO
  { base := 0x30400, stride := 0x4, count := 1, rst := .k 0x0, owner := .blk 0x02, res := .none_ },
  -- MTIME_HI
  { base := 0x30404, stride := 0x4, count := 1, rst := .k 0x0, owner := .blk 0x02, res := .none_ },
  -- TIME_CFG
  { base := 0x30408, stride := 0x4, count := 1, rst := .k 0xD07FF, owner := .blk 0x02, res := .none_, rwl := 0xFF07FF },
  -- TIME_STATUS
  { base := 0x3040C, stride := 0x4, count := 1, rst := .k 0x0, owner := .blk 0x02, res := .none_ },
  -- CAN_CFG
  { base := 0x38000, stride := 0x80, count := 8, rst := .k 0x5022, owner := .blk 0x18, res := .none_, rw := 0xF3FF },
  -- CAN_SP
  { base := 0x38004, stride := 0x80, count := 8, rst := .k 0x464650, owner := .blk 0x18, res := .none_, rw := 0xFFFFFF },
  -- CAN_WAKE
  { base := 0x38008, stride := 0x80, count := 8, rst := .k 0x1, owner := .blk 0x18, res := .none_, rwl := 0x3 },
  -- CAN_STATUS
  { base := 0x3800C, stride := 0x80, count := 8, rst := .k 0x0, owner := .blk 0x18, res := .none_ },
  -- CAN_COUNT
  { base := 0x38010, stride := 0x80, count := 8, rst := .k 0x0, owner := .blk 0x18, res := .none_ },
  -- SWF_ID
  { base := 0x38800, stride := 0x10, count := 128, rst := .k 0x0, owner := .blk 0x18, res := .none_, rwl := 0xFFFFFFFF },
  -- SWF_MASK
  { base := 0x38804, stride := 0x10, count := 128, rst := .k 0x0, owner := .blk 0x18, res := .none_, rwl := 0x1FFFFFFF },
  -- SWF_DLO
  { base := 0x38808, stride := 0x10, count := 128, rst := .k 0x0, owner := .blk 0x18, res := .none_, rwl := 0xFFFFFFFF },
  -- SWF_DHI
  { base := 0x3880C, stride := 0x10, count := 128, rst := .k 0x0, owner := .blk 0x18, res := .none_, rwl := 0xFFFFFFFF },
  -- LIN_CFG
  { base := 0x39000, stride := 0x40, count := 6, rst := .k 0x7780, owner := .blk 0x19, res := .none_, rw := 0xF37FF, rwl := 0x4000 },
  -- LIN_STATUS
  { base := 0x39004, stride := 0x40, count := 6, rst := .k 0x0, owner := .blk 0x19, res := .none_ },
  -- LIN_COUNT
  { base := 0x39008, stride := 0x40, count := 6, rst := .k 0x0, owner := .blk 0x19, res := .none_ },
  -- T1S_CFG
  { base := 0x39200, stride := 0x40, count := 2, rst := .k 0x70200800, owner := .blk 0x1A, res := .none_, rw := 0x3FFFFFFF, rwl := 0x40000000 },
  -- T1S_STATUS
  { base := 0x39204, stride := 0x40, count := 2, rst := .k 0x0, owner := .blk 0x1A, res := .none_ },
  -- BB_CFG
  { base := 0x39400, stride := 0x40, count := 2, rst := .pick [0] 0xF 0xD, owner := .blk 0x1B, res := .none_, rw := 0x1, rwl := 0x1E },
  -- BB_STATUS
  { base := 0x39404, stride := 0x40, count := 2, rst := .k 0x0, owner := .blk 0x1B, res := .none_ },
  -- QBV_BASE_LO
  { base := 0x39410, stride := 0x40, count := 2, rst := .k 0x0, owner := .blk 0x1B, res := .none_, rwl := 0xFFFFFFFF },
  -- QBV_BASE_HI
  { base := 0x39414, stride := 0x40, count := 2, rst := .k 0x0, owner := .blk 0x1B, res := .none_, rwl := 0xFFFFFFFF }]

/-- The set-up registers from 0x39418 on (16 R358). -/
def regRows5 : List RegRow := [
  -- QBV_CYCLE
  { base := 0x39418, stride := 0x40, count := 2, rst := .k 0xF4240, owner := .blk 0x1B, res := .none_, rwl := 0xFFFFFFFF },
  -- QBV_LEN
  { base := 0x3941C, stride := 0x40, count := 2, rst := .k 0x0, owner := .blk 0x1B, res := .none_, rwl := 0x7F },
  -- SW_CFG
  { base := 0x39600, stride := 0x4, count := 1, rst := .k 0x12C0001, owner := .blk 0x1B, res := .none_, rwl := 0xFFFF0001 },
  -- SW_COUNT
  { base := 0x39604, stride := 0x4, count := 1, rst := .k 0x0, owner := .blk 0x1B, res := .none_ },
  -- QBV_GATE
  { base := 0x3A000, stride := 0x8, count := 128, rst := .k 0xFF, owner := .blk 0x1B, res := .none_, rwl := 0xFF },
  -- QBV_IVL
  { base := 0x3A004, stride := 0x8, count := 128, rst := .k 0x0, owner := .blk 0x1B, res := .none_, rwl := 0xFFFFFFFF },
  -- NM_TMR1
  { base := 0x3B000, stride := 0x20, count := 18, rst := .k 0x640032, owner := .blk 0x1C, res := .none_, rwl := 0x3FF01FF },
  -- NM_TMR2
  { base := 0x3B004, stride := 0x20, count := 18, rst := .k 0xA003C, owner := .blk 0x1C, res := .none_, rwl := 0x7FF07FF },
  -- NM_FEED
  { base := 0x3B008, stride := 0x20, count := 18, rst := .k 0xA00, owner := .blk 0x1C, res := .none_, rwl := 0x7FBF },
  -- NM_CLASS
  { base := 0x3B00C, stride := 0x20, count := 18, rst := .k 0x1FF, owner := .blk 0x1C, res := .none_, rwl := 0xFFFF },
  -- NM_STATUS
  { base := 0x3B010, stride := 0x20, count := 18, rst := .k 0x0, owner := .blk 0x1C, res := .none_ },
  -- NM_COUNT
  { base := 0x3B014, stride := 0x20, count := 18, rst := .k 0x0, owner := .blk 0x1C, res := .none_ },
  -- NM_CFG
  { base := 0x3B400, stride := 0x4, count := 1, rst := .k 0x3, owner := .blk 0x1C, res := .none_, rwl := 0x3 },
  -- NM_WAKE
  { base := 0x3B404, stride := 0x4, count := 1, rst := .k 0x0, owner := .blk 0x1C, res := .none_ },
  -- ACC_CFG
  { base := 0x40000, stride := 0x10, count := 8, rst := .k 0xC800F4, owner := .sec, res := .none_, rwl := 0xFFFFFF7, rws := 0xFFFFFF7 },
  -- ACC_TIME
  { base := 0x40004, stride := 0x10, count := 8, rst := .k 0xC8001E, owner := .sec, res := .none_, rwl := 0xFFFFFFF, rws := 0xFFFFFFF },
  -- ACC_STATUS
  { base := 0x40008, stride := 0x10, count := 8, rst := .k 0x0, owner := .sec, res := .none_ },
  -- TPC_CFG
  { base := 0x40100, stride := 0x4, count := 1, rst := .k 0x28, owner := .sec, res := .none_, rwl := 0xFF, rws := 0xFF },
  -- TACK_CFG
  { base := 0x40104, stride := 0x4, count := 1, rst := .k 0x140FAF30, owner := .sec, res := .none_, rwl := 0x3F3FFF77, rws := 0x3F3FFF77 },
  -- TACK_STATUS
  { base := 0x40108, stride := 0x4, count := 1, rst := .k 0x0, owner := .sec, res := .none_ },
  -- ANCHOR_ID
  { base := 0x40200, stride := 0x8, count := 8, rst := .k 0x0, owner := .sec, res := .none_, rwl := 0x7F1F, rws := 0x7F1F },
  -- ANCHOR_OFS
  { base := 0x40204, stride := 0x8, count := 8, rst := .k 0x0, owner := .sec, res := .none_, rwl := 0xFFFF, rws := 0xFFFF },
  -- UPD_STATUS
  { base := 0x48000, stride := 0x4, count := 1, rst := .k 0x0, owner := .sec, res := .none_, w1c := 0x40 },
  -- UPD_EXEC
  { base := 0x48004, stride := 0x4, count := 1, rst := .k 0x0, owner := .sec, res := .none_ },
  -- UPD_STAGE
  { base := 0x48008, stride := 0x4, count := 1, rst := .k 0x0, owner := .sec, res := .none_ },
  -- UPD_SVN
  { base := 0x4800C, stride := 0x4, count := 1, rst := .k 0x0, owner := .sec, res := .none_ },
  -- UPD_KEYSTAT
  { base := 0x48010, stride := 0x4, count := 1, rst := .k 0x101, owner := .sec, res := .none_, w1c := 0x4000 },
  -- UPD_KEYBUF
  { base := 0x48020, stride := 0x4, count := 8, rst := .k 0x0, owner := .sec, res := .none_, wo := 0xFFFFFFFF },
  -- UPD_KEYCTL
  { base := 0x48040, stride := 0x4, count := 1, rst := .k 0x0, owner := .sec, res := .none_, wo := 0xFFFF001F },
  -- AVS_ENV
  { base := 0x50004, stride := 0x4, count := 1, rst := .k 0x2814, owner := .blk 0x05, res := .none_, rwl := 0xFFFF },
  -- SENSE_ENV
  { base := 0x50008, stride := 0x4, count := 1, rst := .k 0x14, owner := .blk 0x05, res := .none_, rwl := 0xFF },
  -- EQ_ENV
  { base := 0x5000C, stride := 0x4, count := 1, rst := .k 0xF0F0, owner := .blk 0x05, res := .none_, rwl := 0xFFFF },
  -- ADAPT_STATUS
  { base := 0x50010, stride := 0x4, count := 1, rst := .k 0x0, owner := .blk 0x05, res := .none_, w1c := 0x3F },
  -- ST_CFG
  { base := 0x50020, stride := 0x4, count := 1, rst := .k 0x3E8, owner := .blk 0x05, res := .none_, rw := 0xFFFF },
  -- ST_STATUS
  { base := 0x50024, stride := 0x4, count := 1, rst := .k 0x0, owner := .blk 0x05, res := .none_ },
  -- AGE_STATUS
  { base := 0x50028, stride := 0x4, count := 1, rst := .k 0x0, owner := .blk 0x05, res := .none_ },
  -- DEBUG_CFG
  { base := 0x60000, stride := 0x4, count := 1, rst := .k 0x2, owner := .all, res := .none_, rw := 0x2, rws := 0x1 }]

/-- Every set-up register of BAR0 (16 R358). -/
def regRows : List RegRow :=
  regRows0 ++ regRows1 ++ regRows2 ++ regRows3 ++ regRows4 ++ regRows5

/-- Whether the row holds the word at `off`. -/
def RegRow.holds (w : RegRow) (off : Nat) : Bool :=
  w.base ≤ off && (off - w.base) % w.stride == 0 && (off - w.base) / w.stride < w.count

/-- The row of the register at `off`; none for a word that no register occupies (16 R354). -/
def regRow (off : Nat) : Option RegRow := regRows.find? fun w => w.holds off

/-- The number of the register at `off` within its row. -/
def RegRow.index (w : RegRow) (off : Nat) : Nat := (off - w.base) / w.stride

/-- The reset value of the word at `off` (16 R358). -/
def resetWord (off : Nat) : Word :=
  match regRow off with
  | some w => BitVec.ofNat 32 (w.rst.at (w.index off))
  | none => 0

/-- What a key of a register file reads as when it is not listed. Above BAR0's 1 MiB a key stands for a further copy of the register at
its low 20 bits: SUPPLY_CFG of one halter (02 R52), a word of a loop in force (08 R205). -/
def keyReset (k : Nat) : Word := resetWord (k % 0x100000)

/-- The value of a set-up register in a register file. -/
def RegFile.rd (f : RegFile) (off : Nat) : Nat := (findKey (keyReset off) f off).toNat

/-- The register file with a set-up register at `v`. -/
def RegFile.wr (f : RegFile) (off v : Nat) : RegFile := writeKey (keyReset off) f off (BitVec.ofNat 32 v)

/-- The canonical form of a register file. -/
def RegFile.wf (f : RegFile) : Bool := canonical keyReset f

/-- The register file with every word of a range of BAR0 back at its reset value. -/
def RegFile.clear (f : RegFile) (lo hi : Nat) : RegFile := f.filter fun e => !(decide (lo ≤ e.1) && decide (e.1 < hi))

/-- The value last written to a set-up register (16 R356). -/
def Regs.c (r : Regs) (off : Nat) : Nat := r.ctl.rd off

/-- A set-up register's value as the halters and WNA hold it (01 R21). -/
def Regs.h (r : Regs) (off : Nat) : Nat := r.halt.rd off

end Sys2Proof.Machine
end

