-- ==== Sys2Proof/Machine/Ops.lean ====
section
/-!
DEFINITION. Sys2Proof/Machine/Ops.lean: the shared operations: reading and replacing a unit's state, worlds and host windows
(14 R316 to R322), the event and completion queues (04 R88 to R101), the frame of a descriptor's execution (04 R92 to R97), and the
power and clock conditions of its checks (02 R38 to R40, 03 R75).
-/

namespace Sys2Proof.Machine

/-- What a meaning answers. -/
abbrev Answer := Host.Outcome State Fault Refusal

/-- The state with its chip changed by an operation that reads the set-up registers. -/
def State.onChip (f : Regs → Chip → Chip) (s : State) : State := { s with chip := f s.regs s.chip }

/-- Stall `i`. -/
def Chip.stall (c : Chip) (i : Nat) : Stall := UMap.get {} c.halt.stalls i
/-- The chip with Stall `i` at `v`. -/
def Chip.setStall (c : Chip) (i : Nat) (v : Stall) : Chip := { c with halt := { c.halt with stalls := UMap.put c.halt.stalls i v } }
/-- Row `i`. -/
def Chip.row (c : Chip) (i : Nat) : Row := UMap.get {} c.halt.rows i
/-- The chip with Row `i` at `v`. -/
def Chip.setRow (c : Chip) (i : Nat) (v : Row) : Chip := { c with halt := { c.halt with rows := UMap.put c.halt.rows i v } }
/-- Valve `i`. -/
def Chip.valve (c : Chip) (i : Nat) : Valve := UMap.get {} c.halt.valves i
/-- The chip with Valve `i` at `v`. -/
def Chip.setValve (c : Chip) (i : Nat) (v : Valve) : Chip := { c with halt := { c.halt with valves := UMap.put c.halt.valves i v } }
/-- VGroup `i`. -/
def Chip.vg (c : Chip) (i : Nat) : VGroup := UMap.get {} c.halt.vgs i
/-- The chip with VGroup `i` at `v`. -/
def Chip.setVg (c : Chip) (i : Nat) (v : VGroup) : Chip := { c with halt := { c.halt with vgs := UMap.put c.halt.vgs i v } }
/-- Loop `i`. -/
def Chip.loop (c : Chip) (i : Nat) : Loop := UMap.get {} c.halt.loops i
/-- The chip with Loop `i` at `v`. -/
def Chip.setLoop (c : Chip) (i : Nat) (v : Loop) : Chip := { c with halt := { c.halt with loops := UMap.put c.halt.loops i v } }
/-- Boost `i`. -/
def Chip.boost (c : Chip) (i : Nat) : Boost := UMap.get {} c.halt.boosts i
/-- The chip with Boost `i` at `v`. -/
def Chip.setBoost (c : Chip) (i : Nat) (v : Boost) : Chip := { c with halt := { c.halt with boosts := UMap.put c.halt.boosts i v } }
/-- Sink `i`. -/
def Chip.sink (c : Chip) (i : Nat) : Sink := UMap.get {} c.halt.sinks i
/-- The chip with Sink `i` at `v`. -/
def Chip.setSink (c : Chip) (i : Nat) (v : Sink) : Chip := { c with halt := { c.halt with sinks := UMap.put c.halt.sinks i v } }
/-- Ntc `i`. -/
def Chip.ntc (c : Chip) (i : Nat) : Ntc := UMap.get {} c.halt.ntcs i
/-- The chip with Ntc `i` at `v`. -/
def Chip.setNtc (c : Chip) (i : Nat) (v : Ntc) : Chip := { c with halt := { c.halt with ntcs := UMap.put c.halt.ntcs i v } }
/-- Si `i`. -/
def Chip.si (c : Chip) (i : Nat) : Si := UMap.get {} c.halt.sis i
/-- The chip with Si `i` at `v`. -/
def Chip.setSi (c : Chip) (i : Nat) (v : Si) : Chip := { c with halt := { c.halt with sis := UMap.put c.halt.sis i v } }
/-- Ain `i`. -/
def Chip.ain (c : Chip) (i : Nat) : Ain := UMap.get {} c.halt.ains i
/-- The chip with Ain `i` at `v`. -/
def Chip.setAin (c : Chip) (i : Nat) (v : Ain) : Chip := { c with halt := { c.halt with ains := UMap.put c.halt.ains i v } }
/-- DOut `i`. -/
def Chip.dout (c : Chip) (i : Nat) : DOut := UMap.get {} c.halt.dos i
/-- The chip with DOut `i` at `v`. -/
def Chip.setDout (c : Chip) (i : Nat) (v : DOut) : Chip := { c with halt := { c.halt with dos := UMap.put c.halt.dos i v } }
/-- Yard `i`. -/
def Chip.yard (c : Chip) (i : Nat) : Yard := UMap.get {} c.yards i
/-- The chip with Yard `i` at `v`. -/
def Chip.setYard (c : Chip) (i : Nat) (v : Yard) : Chip := { c with yards := UMap.put c.yards i v }
/-- Feed `i`. -/
def Chip.feed (c : Chip) (i : Nat) : Feed := UMap.get {} c.feeds i
/-- The chip with Feed `i` at `v`. -/
def Chip.setFeed (c : Chip) (i : Nat) (v : Feed) : Chip := { c with feeds := UMap.put c.feeds i v }
/-- Safe `i`. -/
def Chip.safe (c : Chip) (i : Nat) : Safe := UMap.get {} c.safes i
/-- The chip with Safe `i` at `v`. -/
def Chip.setSafe (c : Chip) (i : Nat) (v : Safe) : Chip := { c with safes := UMap.put c.safes i v }
/-- Port `i`. -/
def Chip.port (c : Chip) (i : Nat) : Port := UMap.get {} c.ports i
/-- The chip with Port `i` at `v`. -/
def Chip.setPort (c : Chip) (i : Nat) (v : Port) : Chip := { c with ports := UMap.put c.ports i v }
/-- Timer `i`. -/
def Chip.timer (c : Chip) (i : Nat) : Timer := UMap.get {} c.timers i
/-- The chip with Timer `i` at `v`. -/
def Chip.setTimer (c : Chip) (i : Nat) (v : Timer) : Chip := { c with timers := UMap.put c.timers i v }
/-- Seg `i`. -/
def Chip.seg (c : Chip) (i : Nat) : Seg := UMap.get {} c.segs i
/-- The chip with Seg `i` at `v`. -/
def Chip.setSeg (c : Chip) (i : Nat) (v : Seg) : Chip := { c with segs := UMap.put c.segs i v }
/-- Can `i`. -/
def Chip.can (c : Chip) (i : Nat) : Can := UMap.get {} c.cans i
/-- The chip with Can `i` at `v`. -/
def Chip.setCan (c : Chip) (i : Nat) (v : Can) : Chip := { c with cans := UMap.put c.cans i v }
/-- Lin `i`. -/
def Chip.lin (c : Chip) (i : Nat) : Lin := UMap.get {} c.lins i
/-- The chip with Lin `i` at `v`. -/
def Chip.setLin (c : Chip) (i : Nat) (v : Lin) : Chip := { c with lins := UMap.put c.lins i v }
/-- T1s `i`. -/
def Chip.t1s (c : Chip) (i : Nat) : T1s := UMap.get {} c.t1ss i
/-- The chip with T1s `i` at `v`. -/
def Chip.setT1s (c : Chip) (i : Nat) (v : T1s) : Chip := { c with t1ss := UMap.put c.t1ss i v }
/-- Bb `i`. -/
def Chip.bb (c : Chip) (i : Nat) : Bb := UMap.get {} c.bbs i
/-- The chip with Bb `i` at `v`. -/
def Chip.setBb (c : Chip) (i : Nat) (v : Bb) : Chip := { c with bbs := UMap.put c.bbs i v }
/-- The chip with Stall `i` changed by `f`. -/
def Chip.modStall (c : Chip) (i : Nat) (f : Stall → Stall) : Chip := c.setStall i (f (c.stall i))
/-- The chip with Row `i` changed by `f`. -/
def Chip.modRow (c : Chip) (i : Nat) (f : Row → Row) : Chip := c.setRow i (f (c.row i))
/-- The chip with Valve `i` changed by `f`. -/
def Chip.modValve (c : Chip) (i : Nat) (f : Valve → Valve) : Chip := c.setValve i (f (c.valve i))
/-- The chip with VGroup `i` changed by `f`. -/
def Chip.modVg (c : Chip) (i : Nat) (f : VGroup → VGroup) : Chip := c.setVg i (f (c.vg i))
/-- The chip with Loop `i` changed by `f`. -/
def Chip.modLoop (c : Chip) (i : Nat) (f : Loop → Loop) : Chip := c.setLoop i (f (c.loop i))
/-- The chip with Boost `i` changed by `f`. -/
def Chip.modBoost (c : Chip) (i : Nat) (f : Boost → Boost) : Chip := c.setBoost i (f (c.boost i))
/-- The chip with Sink `i` changed by `f`. -/
def Chip.modSink (c : Chip) (i : Nat) (f : Sink → Sink) : Chip := c.setSink i (f (c.sink i))
/-- The chip with Ntc `i` changed by `f`. -/
def Chip.modNtc (c : Chip) (i : Nat) (f : Ntc → Ntc) : Chip := c.setNtc i (f (c.ntc i))
/-- The chip with Si `i` changed by `f`. -/
def Chip.modSi (c : Chip) (i : Nat) (f : Si → Si) : Chip := c.setSi i (f (c.si i))
/-- The chip with Ain `i` changed by `f`. -/
def Chip.modAin (c : Chip) (i : Nat) (f : Ain → Ain) : Chip := c.setAin i (f (c.ain i))
/-- The chip with DOut `i` changed by `f`. -/
def Chip.modDout (c : Chip) (i : Nat) (f : DOut → DOut) : Chip := c.setDout i (f (c.dout i))
/-- The chip with Yard `i` changed by `f`. -/
def Chip.modYard (c : Chip) (i : Nat) (f : Yard → Yard) : Chip := c.setYard i (f (c.yard i))
/-- The chip with Feed `i` changed by `f`. -/
def Chip.modFeed (c : Chip) (i : Nat) (f : Feed → Feed) : Chip := c.setFeed i (f (c.feed i))
/-- The chip with Safe `i` changed by `f`. -/
def Chip.modSafe (c : Chip) (i : Nat) (f : Safe → Safe) : Chip := c.setSafe i (f (c.safe i))
/-- The chip with Port `i` changed by `f`. -/
def Chip.modPort (c : Chip) (i : Nat) (f : Port → Port) : Chip := c.setPort i (f (c.port i))
/-- The chip with Timer `i` changed by `f`. -/
def Chip.modTimer (c : Chip) (i : Nat) (f : Timer → Timer) : Chip := c.setTimer i (f (c.timer i))
/-- The chip with Seg `i` changed by `f`. -/
def Chip.modSeg (c : Chip) (i : Nat) (f : Seg → Seg) : Chip := c.setSeg i (f (c.seg i))
/-- The chip with Can `i` changed by `f`. -/
def Chip.modCan (c : Chip) (i : Nat) (f : Can → Can) : Chip := c.setCan i (f (c.can i))
/-- The chip with Lin `i` changed by `f`. -/
def Chip.modLin (c : Chip) (i : Nat) (f : Lin → Lin) : Chip := c.setLin i (f (c.lin i))
/-- The chip with T1s `i` changed by `f`. -/
def Chip.modT1s (c : Chip) (i : Nat) (f : T1s → T1s) : Chip := c.setT1s i (f (c.t1s i))
/-- The chip with Bb `i` changed by `f`. -/
def Chip.modBb (c : Chip) (i : Nat) (f : Bb → Bb) : Chip := c.setBb i (f (c.bb i))

/-- Ring state of function `pf`. -/
def Chip.ring (c : Chip) (pf : Nat) : Ring := if pf = 0 then c.ring0 else c.ring1
/-- The chip with the ring state of function `pf` at `v`. -/
def Chip.setRing (c : Chip) (pf : Nat) (v : Ring) : Chip := if pf = 0 then { c with ring0 := v } else { c with ring1 := v }

/-- SQ `n` of a function. -/
def Ring.sqAt (g : Ring) (n : Nat) : Sq := UMap.get {} g.sqs n
/-- The ring state with SQ `n` at `v`. -/
def Ring.setSq (g : Ring) (n : Nat) (v : Sq) : Ring := { g with sqs := UMap.put g.sqs n v }
/-- CQ `n` of a function. -/
def Ring.cqAt (g : Ring) (n : Nat) : Cq := UMap.get {} g.cqs n
/-- The ring state with CQ `n` at `v`. -/
def Ring.setCq (g : Ring) (n : Nat) (v : Cq) : Ring := { g with cqs := UMap.put g.cqs n v }

/-- The chip with the ring state of function `pf` changed by `f`. -/
def Chip.modRing (c : Chip) (pf : Nat) (f : Ring → Ring) : Chip := c.setRing pf (f (c.ring pf))

/-- The chip with something sent to the outside. -/
def Chip.emit (o : Out) (c : Chip) : Chip := { c with out := o :: c.out }

/-- The next free value, in a field of `w` bits, and the chip that has passed it (log entry 1). -/
def Chip.fresh (w : Nat) (c : Chip) : Nat × Chip := (Config.freeValue c.free % 2 ^ w, { c with free := c.free + 1 })

/-- The module's yard YC is not fitted or not in use (00 R2, 02 R30). -/
def Chip.ycOff (c : Chip) : Bool := c.sys.y3 || !c.sys.ycUse

/-- CTL's firmware, or the loader in recovery, runs: events and descriptors are served (03 R65, 14 R326). -/
def Chip.ctlRuns (c : Chip) : Bool :=
  match c.sys.ctl with
  | .start | .up | .recovery => true
  | _ => false

/-- CTL's firmware runs. -/
def Chip.fwRuns (c : Chip) : Bool :=
  match c.sys.ctl with
  | .start | .up => true
  | _ => false

-- Units, sources, yards -------------------------------------------------------------------------------------------------

/-- The yard of stall `i`, 0 YA, 1 YB, 2 YC (01 Table 1.3). -/
def stallYard (i : Nat) : Nat := i / 24

/-- The row of stall `i` (00 R5). -/
def stallRow (i : Nat) : Nat := i / 8

/-- The yard of row `w` (01 Table 1.3). -/
def rowYard (w : Nat) : Nat := w / 3

/-- The feed of a yard: VBAT_A, VBAT_B, VBAT48 for YC, VBAT_D for YD, with feed numbers 0 A, 1 B, 2 D, 3 48, 4 AON (01 Table 1.1,
02 R58). -/
def yardFeed : Nat → Nat
  | 0 => 0
  | 1 => 1
  | 2 => 3
  | _ => 2

/-- The yard that feed `f` supplies; none for VBAT_AON. -/
def feedYard : Nat → Option Nat
  | 0 => some 0
  | 1 => some 1
  | 2 => some 3
  | 3 => some 2
  | _ => none

/-- The yard in which the output or input with an event source lies; none for a source of CTL or WNA (01 Table 1.5). -/
def srcYard (src : Nat) : Option Nat :=
  if src < 64 then some (stallYard src)
  else if src ≤ 104 then some 3
  else if src < 113 then none
  else if src ≤ 172 then some 3
  else none

/-- The feed of an output by event source (01 R15). -/
def srcFeed (src : Nat) : Nat := if src < 64 then yardFeed (stallYard src) else 2

/-- The block of the unit with an event source (01 Tables 1.2, 1.5). -/
def srcBlock (src : Nat) : Nat :=
  if src < 64 then 0x10 else if src < 80 then 0x13 else if src < 90 then 0x14 else if src < 104 then 0x15
  else if src = 104 then 0x16 else if src < 113 then 0x17 else if src < 125 then 0x11 else if src < 173 then 0x12
  else if src < 181 then 0x18 else if src < 187 then 0x19 else if src < 189 then 0x1A else if src < 192 then 0x1B
  else if src < 224 then 0x02 else if src < 232 then 0x1E else if src = 240 then 0x05 else 0x1F

/-- The unit number, within its block, of the unit with an event source. -/
def srcUnit (src : Nat) : Nat :=
  if src < 64 then src else if src < 80 then src - 64 else if src < 90 then src - 80 else if src < 92 then src - 90 + 16
  else if src < 104 then src - 92 else if src = 104 then 0 else if src < 113 then src - 105 else if src < 125 then src - 113
  else if src < 173 then src - 125 else if src < 181 then src - 173 else if src < 187 then src - 181 else if src < 189 then src - 187
  else if src < 192 then src - 189 else if src < 224 then src - 192 else if src < 229 then src - 224 else 0

-- Worlds ----------------------------------------------------------------------------------------------------------------

/-- An entry of the world assignment table breaks the form of 14 R318: UNIT_LAST below UNIT_FIRST, or unit fields of a whole-block
entry that are not 0. -/
def wtBad (w : Nat) : Bool :=
  bit w 31 && (decide (bits w 21 16 < bits w 13 8) ||
    (!(bits w 5 0 == 0x10 || bits w 5 0 == 0x11) && !(bits w 13 8 == 0 && bits w 21 16 == 0)))

/-- A valid entry covers unit `unit` of block `blk` (14 R318). -/
def wtCovers (w blk unit : Nat) : Bool :=
  bit w 31 && !wtBad w && bits w 5 0 == blk &&
    (!(blk == 0x10 || blk == 0x11) || (decide (bits w 13 8 ≤ unit) && decide (unit ≤ bits w 21 16)))

/-- Whether the entry with the highest index below `n` that covers the unit names the secure world; false where none does (14 R318). -/
def wtSecure (r : Regs) (blk unit : Nat) : Nat → Bool
  | 0 => false
  | n + 1 => if wtCovers (r.c (Reg.WT n)) blk unit then bit (r.c (Reg.WT n)) 30 else wtSecure r blk unit n

/-- The key under which an output's world is kept apart from the world assignment table: in the halters the world its configuration was
written with, in CTL (1 non-secure, 2 secure) the world it keeps while a change of ownership is deferred (03 R70). -/
def ownKey (blk unit : Nat) : Nat := 0x170000 + 4 * (blk * 0x100 + unit)

/-- The world that owns a unit: blocks of fixed ownership (14 Table 14.1), else the world it keeps under 03 R70, else the world assignment
table. -/
def ownerSecure (r : Regs) (blk unit : Nat) : Bool :=
  if blk = 0x03 ∨ blk = 0x04 ∨ blk = 0x1D then true
  else if blk = 0x00 ∨ blk = 0x01 then false
  else if r.c (ownKey blk unit) = 0 then wtSecure r blk unit 64
  else r.c (ownKey blk unit) == 2

/-- The world of a unit as its halter holds it with its configuration (03 R69, R70). -/
def heldSecure (r : Regs) (blk unit : Nat) : Bool := r.h (ownKey blk unit) == 2

/-- The world that owns the unit or block of an event source (01 R26). -/
def srcSecure (r : Regs) (src : Nat) : Bool := ownerSecure r (srcBlock src) (srcUnit src)

/-- The functions to whose EQ a source is posted (01 R26); for sources 237 and 243 see `raiseFn`. -/
def srcFns (r : Regs) (src : Nat) : List Nat :=
  if 232 ≤ src ∧ src ≤ 236 then [0, 1]
  else if src = 238 ∨ src = 239 ∨ src = 242 then [1]
  else if 244 ≤ src then []
  else if srcSecure r src then [1] else [0]

/-- A buffer lies wholly inside one enabled host DMA window of function `pf` that permits the direction (14 R320). -/
def inWindow (r : Regs) (pf addr len : Nat) (write : Bool) : Bool :=
  (List.range 16).any fun w =>
    let n := 16 * pf + w
    let lo := r.c (Reg.WIN_BASE_LO n)
    let base := r.c (Reg.WIN_BASE_HI n) * 2 ^ 32 + bits lo 31 12 * 4096
    let lim := r.c (Reg.WIN_LIM_HI n) * 2 ^ 32 + bits (r.c (Reg.WIN_LIM_LO n)) 31 12 * 4096 + 4096
    bit lo 0 && (if write then bit lo 2 else bit lo 1) && decide (base ≤ addr) && decide (addr + len ≤ lim)

-- MSI-X -----------------------------------------------------------------------------------------------------------------

/-- The function may make memory requests (04 R390): the host has brought its configuration space up, Bus Master Enable is set and the
function is in D0. -/
def Ring.dmaOk (g : Ring) : Bool := g.hostUp && g.bme && !g.d3

/-- The function may send MSI-X messages (04 R390). -/
def Ring.msgOk (g : Ring) : Bool := g.dmaOk && g.msixEn && !g.fmask

/-- A vector is raised: a message, or its pending bit while it is masked or the function may send none (04 R101; the base
specification's masking, log entry 10). -/
def msix (r : Regs) (pf vec : Nat) (c : Chip) : Chip :=
  let g := c.ring pf
  if g.msgOk && !bit (r.c (Reg.MSIX_CTRL pf vec)) 0 then c.emit (.msix pf vec)
  else c.setRing pf { g with pba := g.pba ||| 2 ^ vec }

/-- The pending vectors that may now be sent are sent (base specification, log entry 10). -/
def msixFlush (r : Regs) (pf : Nat) (c : Chip) : Chip :=
  (List.range 32).foldl (fun c vec =>
    if (c.ring pf).pba.testBit vec && (c.ring pf).msgOk && !bit (r.c (Reg.MSIX_CTRL pf vec)) 0 then
      (c.setRing pf { c.ring pf with pba := (c.ring pf).pba &&& (0xFFFFFFFF - 2 ^ vec) }).emit (.msix pf vec)
    else c) c

-- Events ----------------------------------------------------------------------------------------------------------------

/-- The number of entries of a ring whose configuration word is `cfg` (04 Table 4.6). -/
def ringSize (cfg : Nat) : Nat := 2 ^ bits cfg 7 4

/-- Entries between a head and a tail (04 R85). -/
def occupied (size head tail : Nat) : Nat := (tail + size - head % size) % size

/-- The WORLD bit of a record of source `src` on function `pf` (04 R99). -/
def recordWorld (r : Regs) (pf src : Nat) : Bool :=
  if 232 ≤ src ∧ src ≤ 237 ∨ src = 243 then pf == 1
  else if src = 238 ∨ src = 239 ∨ src = 242 then true
  else srcSecure r src

/-- The four words of an event record (04 Table 4.19). -/
def recordWords (ev : Ev) (world phase : Bool) (seq : Nat) : List Nat :=
  [ev.src % 256 + ev.cls % 16 * 256 + b2n world * 4096 + b2n phase * 32768 + ev.t % 65536 * 65536,
   ev.t / 65536 % 2 ^ 32, ev.pay % 2 ^ 32, ev.pay / 2 ^ 32 % 65536 + seq % 65536 * 65536]

/-- A record is written at the EQ's tail (04 R88, R99), and its vector raised if IRQ of its source is 1 (R101). -/
def writeRecord (r : Regs) (pf : Nat) (ev : Ev) (c : Chip) : Chip :=
  let g := c.ring pf
  let size := ringSize (r.c (Reg.EQ_CFG pf))
  let words := recordWords ev (recordWorld r pf ev.src) g.eq.phase g.eq.seq
  let last := decide (g.eq.tail + 1 = size)
  let c := if g.dmaOk then c.emit (.record pf g.eq.tail words) else c
  let c := c.setRing pf { c.ring pf with
    eq := { g.eq with tail := if last then 0 else g.eq.tail + 1, phase := if last then !g.eq.phase else g.eq.phase, seq := (g.eq.seq + 1) % 65536 } }
  if bit (r.c (Reg.EVT_ROUTE pf ev.src)) 9 then msix r pf (bits (r.c (Reg.EVT_ROUTE pf ev.src)) 4 0) c else c

/-- An event counted in the collapse counter of its source (04 R99 step 3). -/
def collCount (m : UMap Coll) (ev : Ev) : UMap Coll :=
  m.put ev.src { cnt := satInc 255 (m.get {} ev.src).cnt, cls := ev.cls, pay := ev.pay % 2 ^ 32, t := ev.t }

/-- COLLAPSED records are written for the lowest sources with a non-zero counter while a slot besides the kept one is free;
COLLAPSING clears once every counter is zero (04 R99 steps 4, 5). -/
def drainCollapsed (r : Regs) (pf : Nat) : Nat → Chip → Chip
  | 0, c => c
  | n + 1, c =>
    let g := c.ring pf
    if !g.eq.collapsing then c
    else match g.eq.cnt.find? fun e => e.2.cnt ≠ 0 with
      | none => c.setRing pf { g with eq := { g.eq with collapsing := false, cnt := [] } }
      | some (src, k) =>
        let size := ringSize (r.c (Reg.EQ_CFG pf))
        if occupied size g.eq.head g.eq.tail < size - 2 then
          let c := c.setRing pf { g with eq := { g.eq with cnt := g.eq.cnt.del src } }
          drainCollapsed r pf n (writeRecord r pf { src := src, cls := 11, pay := k.cnt + k.cls * 256 + k.pay * 65536, t := k.t } c)
        else c

/-- The OVERFLOW record is written in the kept slot and collapsing starts (04 R99 steps 1, 2). -/
def overflowRecord (r : Regs) (pf t : Nat) (c : Chip) : Chip :=
  let c := writeRecord r pf { src := 243, cls := 12, pay := 1, t := t } c
  c.setRing pf { c.ring pf with eq := { (c.ring pf).eq with collapsing := true } }

/-- An event reaches the EQ of a function (04 R84, R99, R391): held before the EQ is enabled, discarded when POST is 0, counted while
collapsing, written, or met with OVERFLOW when only the kept slot is free. CTL holds 1,024 events for both functions together, one posted to
both counting as two (log entry 54). -/
def postEvent (r : Regs) (pf : Nat) (ev : Ev) (c : Chip) : Chip :=
  let g := c.ring pf
  if !bit (r.c (Reg.EQ_CFG pf)) 0 then
    if c.ring0.held.length + c.ring1.held.length < 1024 && !g.heldOver then c.setRing pf { g with held := g.held ++ [ev] }
    else c.setRing pf { g with heldOver := true, heldOverT := if g.heldOver then g.heldOverT else ev.t, heldCnt := collCount g.heldCnt ev }
  else if !bit (r.c (Reg.EVT_ROUTE pf ev.src)) 8 then c
  else if g.eq.collapsing then
    drainCollapsed r pf 257 (c.setRing pf { g with eq := { g.eq with cnt := collCount g.eq.cnt ev } })
  else
    let size := ringSize (r.c (Reg.EQ_CFG pf))
    if occupied size g.eq.head g.eq.tail < size - 2 then writeRecord r pf ev c
    else
      let c := overflowRecord r pf ev.t c
      c.setRing pf { c.ring pf with eq := { (c.ring pf).eq with cnt := collCount (c.ring pf).eq.cnt ev } }

/-- Sources that are never raised (01 R26; 00 R2; 02 R30). -/
def neverRaised (c : Chip) (src : Nat) : Bool :=
  decide (244 ≤ src) || (c.ycOff && ((decide (48 ≤ src) && decide (src < 64)) || src == 227 || src == 234))

/-- An event is posted to the EQ of each function to which its source is assigned (01 R26). -/
def postAll (r : Regs) (ev : Ev) (c : Chip) : Chip :=
  if c.ctlRuns && !neverRaised c ev.src then (srcFns r ev.src).foldl (fun c pf => postEvent r pf ev c) c else c

/-- CTL raises an event source now. -/
def raise (r : Regs) (src cls pay : Nat) (c : Chip) : Chip := postAll r { src := src, cls := cls, pay := pay, t := c.mt.val } c

/-- CTL raises source 237 or 243, which concern one function (01 R26). -/
def raiseFn (r : Regs) (pf src cls pay : Nat) (c : Chip) : Chip :=
  if c.ctlRuns then postEvent r pf { src := src, cls := cls, pay := pay, t := c.mt.val } c else c

/-- A world violation (14 R322): counted, and raised as source 242 with its cause, function and bytes 2 to 5. -/
def violation (r : Regs) (cause pf data : Nat) (c : Chip) : Chip :=
  raise r 242 9 (cause + pf * 256 + data % 2 ^ 32 * 65536)
    { c with sys := { c.sys with violations := (c.sys.violations + 1) % 65536 } }

/-- CTL is without power in PARK or WATCH (02 R38). -/
def Chip.parked (c : Chip) : Bool := c.sys.power == .park || c.sys.power == .watch

/-- A yard's halter raises an event of time `t`: it travels in the next status mirror (01 R19). While CTL is absent nothing reports it
(06 R158). -/
def yardEventAt (src cls pay t : Nat) (c : Chip) : Chip :=
  match srcYard src with
  | some y => if (c.yard y).ctlAbsent || c.parked then c else c.setYard y { c.yard y with evq := (c.yard y).evq ++ [{ src := src, cls := cls, pay := pay, t := t }] }
  | none => c

/-- A yard's halter raises an event now. -/
def yardEvent (src cls pay : Nat) (c : Chip) : Chip := yardEventAt src cls pay c.mt.val c

-- Completions -----------------------------------------------------------------------------------------------------------

/-- Completion statuses (04 Table 4.18). -/
abbrev St.ok : Nat := 0x00
abbrev St.okClamped : Nat := 0x01
abbrev St.badOpcode : Nat := 0x10
abbrev St.badTarget : Nat := 0x11
abbrev St.world : Nat := 0x12
abbrev St.disabled : Nat := 0x13
abbrev St.aborted : Nat := 0x14
abbrev St.busy : Nat := 0x15
abbrev St.deferred : Nat := 0x16
abbrev St.latched : Nat := 0x20
abbrev St.duty : Nat := 0x21
abbrev St.peakDefer : Nat := 0x22
abbrev St.supplyLow : Nat := 0x23
abbrev St.shed : Nat := 0x24
abbrev St.lockedOut : Nat := 0x30
abbrev St.authFail : Nat := 0x31
abbrev St.distance : Nat := 0x32
abbrev St.enrolOut : Nat := 0x33
abbrev St.imgInvalid : Nat := 0x40
abbrev St.imgNotConf : Nat := 0x41

/-- Event classes (04 Table 4.20). -/
abbrev Cls.info : Nat := 0
abbrev Cls.state : Nat := 1
abbrev Cls.fault : Nat := 2
abbrev Cls.latched : Nat := 3
abbrev Cls.warning : Nat := 4
abbrev Cls.limit : Nat := 5
abbrev Cls.wake : Nat := 6
abbrev Cls.diag : Nat := 7
abbrev Cls.time : Nat := 8
abbrev Cls.security : Nat := 9
abbrev Cls.link : Nat := 10

/-- The four words of a completion entry (04 Table 4.17). -/
def entryWords (h : Hdr) (status t result : Nat) (phase : Bool) : List Nat :=
  [h.tag.val + h.sq.val * 65536 + b2n h.secure * 2 ^ 20 + status % 256 * 2 ^ 24, t % 2 ^ 32, t / 2 ^ 32 % 65536 + b2n phase * 2 ^ 31, result % 2 ^ 32]

/-- A CQ's vector is raised for a posting: at once, or when the COAL_US window closes (04 R101). -/
def cqSignal (r : Regs) (pf cq : Nat) (c : Chip) : Chip :=
  let cfg := r.c (Reg.CQ_CFG pf cq)
  let g := c.ring pf
  let q := g.cqAt cq
  if !bit cfg 1 then c
  else if q.coalOpen then c.setRing pf (g.setCq cq { q with coalHit := true })
  else
    let c := msix r pf (bits cfg 12 8) c
    if bits cfg 23 16 = 0 then c
    else c.setRing pf ((c.ring pf).setCq cq { q with coalOpen := true, coalHit := false })

/-- The CQ to which the descriptors of an SQ complete (04 Table 4.6). -/
def sqCq (r : Regs) (pf sq : Nat) : Nat := bits (r.c (Reg.SQ_CFG pf sq)) 18 16

/-- A completion entry is written at its CQ's tail (04 R88, R93, R97). -/
def postEntry (r : Regs) (h : Hdr) (cq status t result : Nat) (c : Chip) : Chip :=
  let pf := h.pf.val
  let g := c.ring pf
  let q := g.cqAt cq
  let last := decide (q.tail + 1 = ringSize (r.c (Reg.CQ_CFG pf cq)))
  let c := if g.dmaOk then c.emit (.completion pf cq q.tail (entryWords h status t result q.phase)) else c
  let c := c.setRing pf ((c.ring pf).setCq cq
    { q with tail := if last then 0 else q.tail + 1, phase := if last then !q.phase else q.phase, reserved := q.reserved - 1 })
  cqSignal r pf cq c

/-- A slot reserved for a descriptor is released without an entry (04 R93, R96). -/
def releaseSlot (pf cq : Nat) (c : Chip) : Chip :=
  let g := c.ring pf
  let q := g.cqAt cq
  c.setRing pf (g.setCq cq { q with reserved := q.reserved - 1 })

/-- Job `id`, the one fetched last under that number, where it is still in progress. -/
def Chip.job (c : Chip) (id : Nat) : Option Job := c.jobs.reverse.find? fun j => j.id == id

/-- The opcodes whose home chapter gives RESULT a meaning with statuses 0x10 to 0x16 too (04 Table 4.17): the pairs found (06 Table 6.20),
the steps of a sequence (07 R179), the cause of an unsent frame and the records received (12 R291, R295). -/
def resultKept (op : Instr) : Bool :=
  match op with
  | .stallCrosscheck .. | .valveSeq .. | .netTx .. | .netRxPost .. => true
  | _ => false

/-- Job `id` changed by `f`. -/
def updJob (id : Nat) (f : Job → Job) (c : Chip) : Chip := { c with jobs := c.jobs.map fun j => if j.id == id then f j else j }

/-- A descriptor completes at MTIME `t` (04 R96, R97): it leaves the jobs in progress and posts its entry, unless it asked for none on
success; completions of descriptors older than a host link reset are dropped (03 R61). One whose unit is being disabled completes in its turn
(R105). -/
def completeAt (r : Regs) (id status result t : Nat) (c : Chip) : Chip :=
  match c.job id with
  | none => c
  | some j =>
    if j.turn.isSome then (if status = St.aborted then updJob id (fun k => { k with turn := some result }) c else c)
    else
      let c := { c with jobs := c.jobs.filter fun k => !(k.id == id) }
      if j.drop then c
      else if j.h.ncos && status == St.ok then releaseSlot j.h.pf.val j.cq c
      else postEntry r j.h j.cq status t (if 0x10 ≤ status ∧ status ≤ 0x16 ∧ !resultKept j.op then 0 else result) c

/-- A descriptor completes now. -/
def complete (r : Regs) (id status result : Nat) (c : Chip) : Chip := completeAt r id status result c.mt.val c

/-- Several descriptors complete with one status, in fetch order (04 R105). -/
def completeAll (r : Regs) (ids : List Nat) (status : Nat) (c : Chip) : Chip :=
  ids.foldl (fun c id => complete r id status 0 c) c

/-- A yard finishes a descriptor: the result travels in the next status mirror (01 R19). -/
def yardResult (y id status result : Nat) (c : Chip) : Chip :=
  c.setYard y { c.yard y with results := (c.yard y).results ++ [{ job := id, st := status, res := result, t := c.mt.val }] }

/-- A yard finishes a pending descriptor, where there is one. -/
def yardResultOpt (y : Nat) (id : Option Nat) (status result : Nat) (c : Chip) : Chip :=
  match id with
  | some id => yardResult y id status result c
  | none => c

/-- Bytes are written to a host buffer of a function (04 R89). -/
def dma (pf addr : Nat) (bytes : List Nat) (c : Chip) : Chip := if (c.ring pf).dmaOk then c.emit (.dma pf addr bytes) else c

/-- Bytes are written to the host buffer of a descriptor in progress (04 R89). -/
def dmaJob (id addr : Nat) (bytes : List Nat) (c : Chip) : Chip :=
  match c.job id with
  | some j => dma j.h.fn addr bytes c
  | none => c

-- Adaptive loops --------------------------------------------------------------------------------------------------------

/-- An adaptive loop (its ADAPT_STATUS bit and instance) enters or leaves its clamped condition; the entry raises `ev` once (15 R344). -/
def adaptClamp (n inst : Nat) (on : Bool) (ev : Chip → Chip) (c : Chip) : Chip :=
  let key := 256 * n + inst
  let a := c.age
  if on then
    let c' := { c with age := { a with adapt := a.adapt ||| 2 ^ n, clamped := if a.clamped.contains key then a.clamped else key :: a.clamped } }
    if a.clamped.contains key then c' else ev c'
  else { c with age := { a with clamped := a.clamped.filter fun k => !(k == key) } }

-- Settings store ------------------------------------------------------------------------------------------------------

/-- The valid copy of the settings store with the higher sequence number (14 R335). -/
def Upd.latest (u : Upd) : Settings := if u.setB.valid && (!u.setA.valid || decide (u.setA.seq < u.setB.seq)) then u.setB else u.setA

/-- One write to a 64 KiB sector of MRAM (15 Table 15.1); MRAM_WEAR is raised once a sector reaches 80 % of its 10^10 writes (15 R351).
Log entry 40. -/
def mramWrite (r : Regs) (sec : Nat) (c : Chip) : Chip :=
  let a := c.age
  let n := (UMap.get 0 a.mramW sec) + 1
  let c := { c with age := { a with mramW := a.mramW.put sec n } }
  if 8000000000 ≤ n ∧ !a.mramWarn.contains sec ∧ c.ctlRuns then
    raise r 240 Cls.warning (5 + 5 * 256 + sec * 65536 + 80 * 2 ^ 32) { c with age := { c.age with mramWarn := sec :: c.age.mramWarn } }
  else c

/-- A record of the Tack Room is committed: two copies in its first sector (13 R301). -/
def tackCommit (r : Regs) (c : Chip) : Chip := mramWrite r 230 c

/-- Firmware writes the settings store: the two copies alternately (14 R335). -/
def saveSettings (r : Regs) (f : Settings → Settings) (c : Chip) : Chip :=
  let u := c.upd
  let new := { f u.latest with valid := true, fmt := u.setFmt, seq := u.latest.seq + 1 }
  if u.setB.valid && (!u.setA.valid || decide (u.setA.seq < u.setB.seq)) then mramWrite r 198 { c with upd := { u with setA := new } }
  else mramWrite r 206 { c with upd := { u with setB := new } }

-- Checks ----------------------------------------------------------------------------------------------------------------

/-- The status of the first condition that fails (04 R94). -/
def firstFail : List (Bool × Nat) → Option Nat
  | [] => none
  | (bad, st) :: rest => if bad then some st else firstFail rest

/-- The power state has the domains of STANDBY and RUN on (02 Table 2.5). -/
def Chip.awake (c : Chip) : Bool :=
  match c.sys.power with
  | .standby | .run => true
  | _ => false

/-- One of the domains PD_BB (0), PD_LOOP (1), PD_LAMP (2), PD_DIO (3), PD_ACCESS (4) is on (02 R38, R39). -/
def domBit (r : Regs) (c : Chip) (n : Nat) : Bool :=
  match c.sys.power with
  | .run => bit (r.c Reg.POWER_CFG) (8 + n)
  | .standby => bit (r.c Reg.POWER_CFG) n
  | _ => false

/-- The domain bit of a block; none for a block whose domain is on in STANDBY and RUN (01 Table 1.1, 02 Table 2.5): backbone PD_BB;
Bridle PD_LOOP; Lantern ports PD_LAMP; signal outputs and inputs PD_DIO; access PD_ACCESS. Sinks and matrix are units of PD_YD (09 R207). -/
def blockDomBit (blk : Nat) : Option Nat :=
  if blk = 0x1B then some 0 else if blk = 0x14 then some 1 else if blk = 0x17 then some 2
  else if blk = 0x11 ∨ blk = 0x12 then some 3 else if blk = 0x1D then some 4 else none

/-- The power domain of a block is on (02 R40). -/
def domOn (r : Regs) (c : Chip) (blk : Nat) : Bool :=
  match blockDomBit blk with
  | some n => domBit r c n
  | none => c.awake

/-- A network unit is disabled by the failed 40 MHz crystal (03 R75). -/
def clkLost (c : Chip) (blk : Nat) : Bool := c.sys.wnaRc && (blk == 0x18 || blk == 0x19 || blk == 0x1A || blk == 0x1B)

/-- The yard of the unit a descriptor addresses; none for a unit of CTL (01 Table 1.2). -/
def unitYard (blk unit : Nat) : Option Nat :=
  if blk = 0x10 then some (stallYard unit)
  else if blk = 0x11 ∨ blk = 0x12 ∨ blk = 0x13 ∨ blk = 0x14 ∨ blk = 0x15 ∨ blk = 0x16 then some 3 else none

/-- The yard of a unit is being reset: its function is disabled (03 R72, 04 R105). -/
def unitResetting (c : Chip) (blk unit : Nat) : Bool :=
  match unitYard blk unit with
  | some y => (c.yard y).resetting
  | none => false

/-- Check 5: DISABLED. Check 6: BUSY of an unreachable yard or one under adoption; YC not in use passes both (02 R30). -/
def checks56 (r : Regs) (c : Chip) (blk unit : Nat) : List (Bool × Nat) :=
  let yc := decide (unitYard blk unit = some 2) && c.ycOff
  [(!yc && (!domOn r c blk || clkLost c blk || unitResetting c blk unit), St.disabled),
   (match unitYard blk unit with
     | some y => !yc && ((c.yard y).unreach || (c.yard y).adopting)
     | none => false, St.busy)]

/-- What the ring engine knows of a descriptor when it checks it at fetch (04 Table 4.16, checks 1 to 4). -/
structure Desc where
  /-- OPCODE. -/
  opc : Nat
  /-- BLOCK. -/
  blk : Nat
  /-- UNIT. -/
  unit : Nat
  /-- Check 1: the opcode fields are a valid encoding. -/
  valid : Bool := true
  /-- Check 1: so is what its host buffer holds. -/
  content : Bool := true
  /-- Check 3: the unit may be addressed. -/
  target : Bool := true
  /-- Check 4: its host buffers: address, length, written by the module. -/
  bufs : List (Nat × Nat × Bool) := []
  /-- Check 4: something else it names belongs to the other world. -/
  foreign : Bool := false
  /-- The unit belongs to a world (not SYS). -/
  owned : Bool := true
  /-- By how many ns it is released before its AT_TIME. -/
  lead : Nat := 0
  /-- What its execution compares with the state at fetch. -/
  aux : Nat := 0
  deriving DecidableEq, Repr

/-- Opcodes 0x80 to 0x92 act only in the secure world (04 R91). -/
def secureOnly (opc : Nat) : Bool := decide (0x80 ≤ opc) && decide (opc ≤ 0x92)

/-- Checks 1 to 4 of 04 Table 4.16, in order. -/
def checks14 (r : Regs) (c : Chip) (d : Desc) (h : Hdr) : List (Bool × Nat) :=
  let bufOk := d.bufs.all fun b => inWindow r h.fn b.1 b.2.1 b.2.2
  [(!d.valid || (!d.content && bufOk), St.badOpcode),
   (secureOnly d.opc && !h.secure, St.world),
   (!d.target || (d.blk == 0x10 && c.sys.y3 && decide (48 ≤ d.unit)), St.badTarget),
   ((d.owned && !(ownerSecure r d.blk d.unit == h.secure)) || d.foreign, St.world),
   (!bufOk, St.world)]

/-- In recovery the loader accepts opcodes 0x00 to 0x04 and 0x90 to 0x92 through PF1 only (14 R326; 04 R90). -/
def recoveryRefuses (c : Chip) (h : Hdr) (opc : Nat) : Bool :=
  c.sys.ctl == .recovery && !(h.secure && (decide (opc ≤ 0x04) || (decide (0x90 ≤ opc) && decide (opc ≤ 0x92))))

/-- A fetched descriptor enters the jobs in progress with its slot reserved (04 R93). -/
def newJob (r : Regs) (d : Desc) (h : Hdr) (op : Instr) (c : Chip) : Chip :=
  let cq := sqCq r h.pf.val h.sq.val
  let g := c.ring h.pf.val
  let q := g.cqAt cq
  let c := c.setRing h.pf.val ((g.setSq h.sq.val { g.sqAt h.sq.val with fenceWait := false }).setCq cq { q with reserved := q.reserved + 1 })
  { c with jobs := c.jobs ++ [{ id := c.nextJob, h := h, op := op, blk := d.blk, unit := d.unit, cq := cq, lead := d.lead, aux := d.aux }], nextJob := c.nextJob + 1 }

/-- A WORLD_VIOLATION completion raises source 242 with cause DESCRIPTOR (04 R94, 14 Table 14.3). -/
def descViolation (r : Regs) (d : Desc) (h : Hdr) (st : Nat) (c : Chip) : Chip :=
  if st = St.world then violation r 2 h.fn (d.opc + d.blk * 256 + d.unit * 65536) c else c

/-- A descriptor of function and SQ is held by a FENCE: an earlier descriptor of its SQ is still in progress (04 R95). -/
def fenceHolds (c : Chip) (h : Hdr) : Bool := h.fence && c.jobs.any fun j => !j.drop && j.h.pf == h.pf && j.h.sq == h.sq

/-- Waiting AT_TIME descriptors of a function (04 Table 4.4, AT_PENDING). -/
def atPending (c : Chip) (pf : Nat) : Nat := (c.jobs.filter fun j => j.waiting && j.h.pf.val == pf && !j.drop).length

/-- A job starts or stops waiting for its AT_TIME. -/
def setWaiting (id : Nat) (b : Bool) (c : Chip) : Chip := updJob id (fun j => { j with waiting := b }) c

/-- An intrusive self-test runs on the unit (15 R349). -/
def unitTesting (c : Chip) (blk u : Nat) : Bool :=
  if blk = 0x10 then (c.stall u).testing else if blk = 0x13 then (c.valve u).testing else if blk = 0x14 then (c.loop u).testing
  else if blk = 0x15 then (c.sink u).testing else if blk = 0x12 then (c.si u).testing else if blk = 0x11 then (c.dout u).testing
  else if blk = 0x18 then (c.seg u).testing else if blk = 0x19 then (c.seg (8 + u)).testing else if blk = 0x1A then (c.seg (14 + u)).testing
  else if blk = 0x1B then (c.seg (16 + u)).testing
  else if blk = 0x1D then c.age.tests.any (fun t => t.running && t.blk == 0x1D) else false

/-- One descriptor from its fetch on (04 R94 to R96): held by its FENCE, refused by a check, left to wait for its time, or executed by
`body`, which is given the job and makes checks 5 to 8. -/
def runDesc (d : Desc) (h : Hdr) (op : Instr) (body : Nat → State → State) (s : State) : State :=
  if !s.chip.ctlRuns then s
  else if fenceHolds s.chip h then
    s.onChip fun _ c => c.setRing h.pf.val ((c.ring h.pf.val).setSq h.sq.val { (c.ring h.pf.val).sqAt h.sq.val with fenceWait := true })
  else
    let id := s.chip.nextJob
    let s := s.onChip fun r c => newJob r d h op c
    if recoveryRefuses s.chip h d.opc then s.onChip fun r c => complete r id St.disabled 0 c
    else match firstFail (checks14 s.regs s.chip d h) with
      | some st => s.onChip fun r c => descViolation r d h st (complete r id st 0 c)
      | none =>
        if (match h.at_ with
            | some t => decide (s.chip.mt.val + d.lead < t)
            | none => false) then s.onChip fun _ c => setWaiting id true c
        else if unitTesting s.chip d.blk d.unit && !(d.opc == 0xA0) then s.onChip fun _ c => updJob id (fun j => { j with held := true }) c
        else body id s

/-- The body of a descriptor: the first failing condition decides the status, else the effect takes place (04 R94, checks 5 to 8). -/
def gated (checks : Regs → Chip → List (Bool × Nat)) (effect : Nat → State → State) (id : Nat) (s : State) : State :=
  match firstFail (checks s.regs s.chip) with
  | some st => s.onChip fun r c => complete r id st 0 c
  | none => effect id s

/-- Descriptors in progress on a unit, in fetch order (04 R105). -/
def jobsOf (c : Chip) (blk : Nat) (p : Nat → Bool) : List Nat :=
  (c.jobs.filter fun j => j.blk == blk && p j.unit).map fun j => j.id

end Sys2Proof.Machine
end

