-- ==== Sys2Proof/Machine/Wake.lean ====
section
/-!
DEFINITION. Sys2Proof/Machine/Wake.lean: wakes from PARK and WATCH (02 R44, 12 R285): recording a wake in WNA, WAKE#, and the abort of a
sleep commit that a wake meets.
-/

namespace Sys2Proof.Machine

/-- WAKE# is asserted or released (02 R44, 12 R284). -/
def setWakePin (on : Bool) (c : Chip) : Chip :=
  if c.sys.wakePin == on then c else { c with sys := { c.sys with wakePin := on } }.emit (.wakePin on)

/-- PRESC of a channel (11 R253). -/
def Timer.presc (t : Timer) : Nat := bits t.cfg 7 4

/-- A running channel enters low-frequency mode (11 R265). -/
def toLf (t : Timer) : Timer := { t with lf := true, frac := 64 * (t.psc : Int) }

/-- A channel leaves low-frequency mode with the values reached (11 R265). -/
def fromLf (t : Timer) : Timer := { t with lf := false, psc := min (2 ^ t.presc - 1) (t.frac / 64).toNat, frac := 0 }

/-- CTL takes MTIME and the channels in low-frequency mode back (11 R265, R266). -/
def takeTime (c : Chip) : Chip :=
  { c with mt := { c.mt with src := .ctl }, timers := c.timers.map fun e => (e.1, if e.2.lf then fromLf e.2 else e.2) }

/-- A wake meets a sleep commit that has not completed (12 R285): each halter is sent PARK_ABORT, no domain is switched, POWER_STATE
completes BUSY. -/
def abortSleep (r : Regs) (c : Chip) : Chip :=
  match c.sys.sleepTo with
  | none => c
  | some _ =>
    let c := { c with sys := { c.sys with sleepTo := none, armed := false } }
    let c := if c.sys.halted then c else takeTime c
    let c := (List.range 4).foldl (fun c y =>
      if (c.yard y).adopted && !(c.yard y).unreach then c.emit (.guy y .parkAbort 0) else c) c
    match c.sys.sleepJob with
    | some id => complete r id St.busy 0 { c with sys := { c.sys with sleepJob := none } }
    | none => c

/-- A wake source fires (02 R44, 12 R285): it aborts a running sleep commit; in PARK or WATCH WNA records it and its event, asserts
WAKE# and powers CTL, where the pre-regulator runs; while CTL is absent in STANDBY or RUN the first
one asserts WAKE# (01 R25); in STANDBY after a wake it counts as a further wake (12 R284). `src` is 255 for
PERST#, which has no event source. -/
def fireWake (r : Regs) (src pay t : Nat) (c : Chip) : Chip :=
  let c := abortSleep r c
  if c.parked && c.sys.armed then
    let first := c.sys.wakeRec.isEmpty
    let s := c.sys
    let c := { c with sys := { s with
      wakeRec := s.wakeRec ++ [src]
      wakeEv := if src < 244 then s.wakeEv ++ [{ src := src, cls := Cls.wake, pay := pay, t := t }] else s.wakeEv
      otherWake := if first then false else s.otherWake || !(s.wakeRec.head? == some src)
      left := if first then s.power else s.left
      fromWake := s.fromWake || first
      ctl := if s.ctl == .off && s.prereg then .held else s.ctl } }
    let c := if first && decide (src < 244) then { c with net := { c.net with wakeSrc := src, wakeValid := true, wakeFalse := false, returned := false } } else c
    setWakePin true c
  else if c.sys.wnaAbsent && !c.sys.wnaWoke then
    setWakePin true { c with sys := { c.sys with
      wnaWoke := true
      wakeRec := c.sys.wakeRec ++ [src]
      wakeEv := if src < 244 then c.sys.wakeEv ++ [{ src := src, cls := Cls.wake, pay := pay, t := t }] else c.sys.wakeEv } }
  else { c with sys := { c.sys with otherWake := c.sys.otherWake || (c.sys.wokeUp && !(c.sys.wakeRec.head? == some src)) } }

/-- A wake that travels with an event of class WAKE raised now (02 R44). -/
def wakeNow (r : Regs) (src pay : Nat) (c : Chip) : Chip := fireWake r src pay c.mt.val c

end Sys2Proof.Machine
end

