-- ==== Sys2Proof/Machine/Operands.lean ====
section
/-!
DEFINITION. Sys2Proof/Machine/Operands.lean: the forms in which registers, tables and operands give their values: row ratings
(05 Table 5.1), profile curves (05 R115, R116), gangs (05 R123 to R125), effective fields with their clamps, and the canonical
configuration of an output with its signature (03 R69).
-/

namespace Sys2Proof.Machine

-- Rows and gangs --------------------------------------------------------------------------------------------------------

/-- The kind of a row: 0 A0 and B0, 1 A1 and B1, 2 A2 and B2, 3 C0, 4 C1 (05 Table 5.1). -/
def rowKind (w : Nat) : Nat := if w < 6 then w % 3 else w - 3

/-- The kind of the row of stall `i`. -/
def stallKind (i : Nat) : Nat := rowKind (stallRow i)

/-- Element `k` of a list of ratings. -/
def rating (k : Nat) (l : List Nat) : Nat := l.getD k 0

/-- The ILIM range of a row kind in 0.1 A (05 Table 5.1). -/
def ilimMin (k : Nat) : Nat := rating k [30, 15, 5, 20, 5]
def ilimMax (k : Nat) : Nat := rating k [600, 300, 120, 400, 150]
/-- The ILIM step of a row kind in 0.1 A. -/
def ilimStep (k : Nat) : Nat := rating k [5, 1, 1, 5, 1]
/-- The ceiling of a row kind in 0.1 A. -/
def rowCeil (k : Nat) : Nat := rating k [600, 300, 120, 400, 150]
/-- The nominal current of a row kind in 0.1 A. -/
def rowNominal (k : Nat) : Nat := rating k [120, 60, 25, 80, 30]
/-- SC_ABS of a row kind in 0.1 A (06 Table 6.3). -/
def scAbs (k : Nat) : Nat := rating k [700, 350, 140, 480, 180]
/-- TMIN of a row kind in microseconds (05 R131). -/
def tMin (k : Nat) : Nat := rating k [100, 20, 20, 100, 20]
/-- The shortest row period of a row kind in microseconds (05 R128). -/
def periodMin (k : Nat) : Nat := rating k [2500, 500, 500, 2500, 500]

/-- The period of a row in microseconds from its ROW_CFG in force (05 R128). -/
def rowPeriod (c : Chip) (w : Nat) : Nat := clampN (periodMin (rowKind w)) 100000 (bits (c.row w).cfg 16 0)

/-- The members of the gang that ROW_CFG `cfg` would form around stall `i`: a quad before a pair, else the stall alone (05 R123). -/
def gangByCfg (cfg i : Nat) : List Nat :=
  let w := stallRow i
  let p := i % 8
  if bit cfg (24 + p / 4) then (List.range 4).map fun k => 8 * w + 4 * (p / 4) + k
  else if bit cfg (20 + p / 2) then [8 * w + 2 * (p / 2), 8 * w + 2 * (p / 2) + 1]
  else [i]

/-- The members of a would-be gang lie in one world (05 R124). -/
def sameWorld (r : Regs) (l : List Nat) : Bool :=
  match l with
  | [] => true
  | a :: rest => rest.all fun b => heldSecure r 0x10 b == heldSecure r 0x10 a

/-- The formed gang of stall `i`, leader first; the stall alone where none is formed (05 R123 to R125). -/
def gang (r : Regs) (c : Chip) (i : Nat) : List Nat :=
  let g := gangByCfg (c.row (stallRow i)).cfg i
  if sameWorld r g then g else [i]

/-- The leader of stall `i`'s gang. -/
def leader (r : Regs) (c : Chip) (i : Nat) : Nat := (gang r c i).headD i

/-- The stalls that lead: every stall but the other members of formed gangs. -/
def leaders (r : Regs) (c : Chip) : List Nat := (List.range 64).filter fun i => leader r c i == i

-- Profiles --------------------------------------------------------------------------------------------------------------

/-- The flat curve a user slot holds until it is loaded (05 R116). -/
def flatCurve : List (Nat × Nat) := [(0, 0x10), (1000, 0x10)]

/-- The fixed profile slots (05 Table 5.3). -/
def fixedCurve : Nat → List (Nat × Nat)
  | 1 => [(0, 0x50), (5000, 0x30), (20000, 0x20), (60000, 0x10)]
  | 2 => [(0, 0x40), (50000, 0x40), (200000, 0x20), (400000, 0x10)]
  | 3 => [(0, 0x30), (1000, 0x30), (5000, 0x10)]
  | 4 => [(0, 0x30), (500000, 0x30), (3000000, 0x18), (8000000, 0x10)]
  | 5 => [(0, 0x18), (20000, 0x10)]
  | 6 => [(0, 0x40), (200, 0x20), (1000, 0x10)]
  | _ => []

/-- The curve of a slot code in a yard's halter (05 R116, Table 5.11: codes 9 to 15 act as 0). -/
def slotCurve (c : Chip) (y code : Nat) : List (Nat × Nat) :=
  if code = 7 then UMap.get flatCurve c.halt.curves (2 * y)
  else if code = 8 then UMap.get flatCurve c.halt.curves (2 * y + 1)
  else fixedCurve code

/-- T_US rises strictly from point to point. -/
def risingT : List (Nat × Nat) → Bool
  | (t, _) :: (t', m') :: rest => decide (t < t') && risingT ((t', m') :: rest)
  | _ => true

/-- A curve is valid (05 R115). -/
def curveValid (l : List (Nat × Nat)) : Bool :=
  decide (2 ≤ l.length) && decide (l.length ≤ 8) && (l.headD (1, 0)).1 == 0 && risingT l &&
    (l.all fun p => decide (8 ≤ p.2) && decide (p.2 ≤ 255) && decide (p.1 < 2 ^ 24)) && (l.getLastD (0, 0)).2 == 0x10

/-- The end of a curve's inrush window in microseconds (05 R114). -/
def curveEnd (l : List (Nat × Nat)) : Nat := (l.getLastD (0, 0x10)).1

/-- `base` times MULT(t) of a curve, linear between points, where `t` is in nanoseconds; rounded down (05 R115; log entry 9). -/
def curveLimit (base t : Nat) : List (Nat × Nat) → Nat
  | (t0, m0) :: (t1, m1) :: rest =>
    if t < 1000 * t1 then
      let num : Int := (m0 : Int) * (1000 * ((t1 : Int) - t0)) + ((m1 : Int) - m0) * ((t : Int) - 1000 * t0)
      ((base : Int) * num / (16 * (1000 * ((t1 : Int) - t0)))).toNat
    else curveLimit base t ((t1, m1) :: rest)
  | (_, m) :: [] => base * m / 16
  | [] => base

/-- The greatest MULT of a curve, 0x10 for none. -/
def curveTop (l : List (Nat × Nat)) : Nat := l.foldl (fun m p => max m p.2) 0x10

-- Effective fields of a stall ---------------------------------------------------------------------------------------------

/-- A value of ILIM as it acts in a row kind, in 0.1 A (05 R112): clamped to the row's range and rounded down to its step. -/
def ilimAs (k v : Nat) : Nat :=
  let v := clampN (ilimMin k) (ilimMax k) v
  v - v % ilimStep k

/-- ILIM of STALL_CFG as it acts, in 0.1 A (05 R112). -/
def ilimField (r : Regs) (i : Nat) : Nat := ilimAs (stallKind i) (bits (r.h (Reg.STALL_CFG i)) 9 0)

/-- A cap of a stall or gang as its halter last received it (06 R148): the least over its members (15 R343). -/
def capOf (f : Stall → Nat) (r : Regs) (c : Chip) (i : Nat) : Nat := (gang r c i).foldl (fun m j => min m (f (c.stall j))) 1023

/-- The caps in force (06 R148, 15 R343); none is 1023, 1023, 255 and 15. -/
def capLim (r : Regs) (c : Chip) (i : Nat) : Nat := capOf Stall.kLim r c i
def capCeil (r : Regs) (c : Chip) (i : Nat) : Nat := capOf Stall.kCeil r c i
def capTsd (r : Regs) (c : Chip) (i : Nat) : Nat := capOf Stall.kTsd r c i
def capRetry (r : Regs) (c : Chip) (i : Nat) : Nat := capOf Stall.kRetry r c i

/-- ILIM_e in mA with the cap of the attempt (05 R112, 06 R148). -/
def ilimE (r : Regs) (s : Stall) (i : Nat) : Nat := 100 * min (ilimField r i) s.limCap

/-- CEIL_e in mA with the cap of the attempt (05 R112). -/
def ceilE (s : Stall) (i : Nat) : Nat := 100 * min (rowCeil (stallKind i)) s.ceilCap

/-- L(t) in mA at `t` nanoseconds from the start of output rise (05 R112). -/
def limitAt (r : Regs) (s : Stall) (i t : Nat) : Nat :=
  if s.st = .inrush then min (curveLimit (ilimE r s i) t s.curve) (ceilE s i) else ilimE r s i

/-- L(t) of the attempt is reduced below what STALL_CFG asks (05 R112, R135): OK_CLAMPED. -/
def limitReduced (r : Regs) (s : Stall) (i : Nat) : Bool :=
  decide (ilimE r s i < 100 * bits (r.h (Reg.STALL_CFG i)) 9 0) || decide (ceilE s i < ilimE r s i * curveTop s.curve / 16)

/-- TSD_e in °C (06 R148). -/
def tsdE (r : Regs) (c : Chip) (i : Nat) : Nat :=
  max 150 (min (clampN 150 175 (bits (r.h (Reg.STALL_THERM i)) 7 0)) (capTsd r c i))

/-- STALL_THERM.THYS in K (06 Table 6.14). -/
def tHys (r : Regs) (i : Nat) : Nat := clampN 10 40 (bits (r.h (Reg.STALL_THERM i)) 13 8)

/-- N_e of the attempt (06 R148). -/
def retryE (s : Stall) : Nat := max 1 (min (max 1 (bits s.protA 3 0)) s.retryCap)

/-- TH_M of the attempt (06 Table 6.13). -/
def thM (s : Stall) : Nat := max 1 (bits s.protA 7 4)

/-- The slot code in STALL_CFG of a stall (05 Table 5.11). -/
def slotOf (r : Regs) (i : Nat) : Nat := if 8 < bits (r.h (Reg.STALL_CFG i)) 13 10 then 0 else bits (r.h (Reg.STALL_CFG i)) 13 10

/-- The key of a loop's word in force in `Regs.halt`: a loop takes its words over when it starts from IDLE (08 R205). -/
def liveKey (off : Nat) : Nat := off + 0x800000

/-- The shed class of an output by event source, as its halter holds it (02 R47): class 0 stands for units without a class. -/
def shedClass (r : Regs) (src : Nat) : Nat :=
  if src < 64 then bits (r.h (Reg.STALL_POLICY src)) 17 16
  else if src < 80 then bits (r.h (Reg.VALVE_POLICY (src - 64))) 17 16
  else if src < 90 then bits (r.h (liveKey (Reg.LOOP_POLICY (src - 80)))) 17 16
  else if src < 92 then 0
  else if src < 104 then bits (r.h (Reg.SINK_CFG (src - 92))) 17 16
  else if src = 104 then bits (r.h Reg.MX_POLICY) 17 16
  else 0

/-- The host-loss policy word of an output by event source, as its halter holds it (04 R104); of a valve that fires and of a lamp that is on
the word taken over then (07 R181, 09 R233). -/
def policyWord (r : Regs) (c : Chip) (src : Nat) : Nat :=
  if src < 64 then r.h (Reg.STALL_POLICY src)
  else if src < 80 then (if (c.valve (src - 64)).phase == .idle then r.h (Reg.VALVE_POLICY (src - 64)) else (c.valve (src - 64)).pol)
  else if src < 90 then r.h (liveKey (Reg.LOOP_POLICY (src - 80)))
  else if src < 92 then (if (c.boost (src - 90)).running then (c.boost (src - 90)).pol else r.h (Reg.BOOST_POLICY (src - 90)))
  else if src < 104 then (if (c.sink (src - 92)).on then (c.sink (src - 92)).pol else r.h (Reg.SINK_POLICY (src - 92)))
  else if src = 104 then (if c.halt.mx.scanning && c.halt.mx.started then c.halt.mx.pol else r.h Reg.MX_POLICY)
  else r.h (Reg.DO_POLICY (src - 113))

/-- SAFE_DELAY in ms (04 R104; values above 5,000 act as 5,000). -/
def safeDelay (r : Regs) (c : Chip) (src : Nat) : Nat := min 5000 (bits (policyWord r c src) 12 0)

/-- POLICY is SAFE. -/
def policySafe (r : Regs) (c : Chip) (src : Nat) : Bool := bit (policyWord r c src) 13

/-- The wear units of one turn-off of clamp energy `e` against E_AR, both in µJ (15 R341). -/
def wearUnits (e ear : Nat) : Nat := if 100 * e < ear then 1 else 1 + (9 * min e (2 * ear) + ear - 1) / ear

-- Logarithms ------------------------------------------------------------------------------------------------------------

/-- A ratio brought between 1 and 2 by doublings of one side, and their number (log entry 8). -/
def logScale : Nat → Nat → Nat → Int → Nat × Nat × Int
  | 0, a, b, k => (a, b, k)
  | n + 1, a, b, k => if 2 * b ≤ a then logScale n a (2 * b) (k + 1) else if a < b then logScale n (2 * a) b (k - 1) else (a, b, k)

/-- `n` terms from y^(2i+1) ÷ (2i+1) on of the series of the area hyperbolic tangent, in 2^-64; `pw` is y^(2i+1). -/
def atanhTerms (y2 : Nat) : Nat → Nat → Nat → Nat
  | 0, _, _ => 0
  | n + 1, i, pw => pw / (2 * i + 1) + atanhTerms y2 n (i + 1) (pw * y2 / 2 ^ 64)

/-- ln(a ÷ b) for 1 ≤ a ÷ b ≤ 2, in 2^-64. -/
def lnUnit (a b : Nat) : Nat :=
  let y := (a - b) * 2 ^ 64 / (a + b)
  2 * atanhTerms (y * y / 2 ^ 64) 24 0 y

/-- ln(a ÷ b) of two positive numbers (09 R216, 05 R122; log entry 8), from 24 terms of a series in steps of 2^-64. -/
def lnRatio (a b : Nat) : Rat :=
  let x := logScale 128 a b 0
  ((lnUnit x.1 x.2.1 : Int) + x.2.2 * lnUnit 2 1 : Int) / (2 ^ 64 : Nat)

/-- The temperature of an NTC of `ohm` Ω in m°C (09 R216), for RNOM in kΩ and B in K, rounded down: none where a divisor is 0. -/
def ntcTemp (ohm rnom b : Nat) : Option Int :=
  let inv : Rat := 100 / 29815 + lnRatio ohm (1000 * rnom) / b
  if b = 0 ∨ inv = 0 then none else some (1000 * (1 / inv - 27315 / 100)).floor

/-- The time in 0.1 s in which the rise of a conductor falls from `d` to `x` with no current, for τ in 0.1 s (05 R121, R122, 06 Table 6.9;
log entry 8): τ × ln(d ÷ x), rounded up, at most 65,535. -/
def rearmTime (d x : Rat) (tau : Nat) : Nat :=
  if d ≤ x then 0 else if x ≤ 0 then 65535 else min 65535 (tau * lnRatio (d.num.toNat * x.den) (x.num.toNat * d.den)).ceil.toNat

-- Signatures ------------------------------------------------------------------------------------------------------------

/-- The world word (03 R69). -/
def worldWord (r : Regs) (src : Nat) : Nat := b2n (srcSecure r src)

/-- The words of a curve as a canonical configuration holds them: N, then the points (03 Table 3.12, 05 R115). -/
def curveWords (l : List (Nat × Nat)) : List Nat := l.length :: l.map fun p => p.1 + p.2 * 2 ^ 24

/-- The calibration word of a sink (09 Table 9.12, SINK_VFCAL). -/
def vfCalWord (s : Sink) : Nat := s.vf0 + s.rs * 65536

/-- The second calibration word of a sink (09 Table 9.12, SINK_VFCAL_T). -/
def vfCalTWord (s : Sink) : Nat := ofSigned 8 s.tCal + b2n s.valid * 2 ^ 8

/-- The canonical configuration of an output by event source (03 Table 3.12), read from the registers that `g` gives. -/
def canonWords (g : Nat → Nat) (r : Regs) (c : Chip) (src : Nat) : List Nat :=
  if src < 64 then
    [g (Reg.STALL_CFG src), g (Reg.STALL_PWM_CFG src), g (Reg.STALL_WIRE src), g (Reg.STALL_WIRE_USER src), g (Reg.STALL_POLICY src),
     g (Reg.STALL_BUDGET src), g (Reg.STALL_SEC src), g (Reg.STALL_PROT src), g (Reg.STALL_THERM src), g (Reg.STALL_DIAG_CFG src),
     g (Reg.ROW_CFG (stallRow src)), worldWord r src] ++
      curveWords (slotCurve c (stallYard src) (bits (g (Reg.STALL_CFG src)) 13 10))
  else if src < 80 then
    let n := src - 64
    [g (Reg.VALVE_CFG n), g (Reg.VALVE_TIME n), g (Reg.VALVE_CHOP n), g (Reg.VALVE_POLICY n), g (Reg.VALVE_DUTY n), g (Reg.VALVE_DIAG_CFG n),
     g (Reg.VG_CFG (n / 4)), worldWord r src]
  else if src < 90 then
    let n := src - 80
    [g (Reg.LOOP_LIM n), g (Reg.BRIDGE_CFG n), g (Reg.LOOP_POLICY n), worldWord r src]
  else if src < 92 then
    let n := src - 90
    [g (Reg.BOOST_CFG n), g (Reg.BOOST_POLICY n), worldWord r src]
  else if src < 104 then
    let n := src - 92
    [g (Reg.SINK_CFG n), g (Reg.SINK_POLICY n), g (Reg.SINK_DERATE n)] ++
      (if n = 5 ∨ n = 11 then [g (Reg.SINK_VF (n / 6)), vfCalWord (c.sink n), vfCalTWord (c.sink n)] else []) ++
      [g Reg.LANTERN_CFG, worldWord r src]
  else if src = 104 then [g Reg.MX_CFG, g Reg.MX_POLICY, worldWord r src]
  else
    let n := src - 113
    [g (Reg.DO_CFG n), g (Reg.DO_POLICY n), worldWord r src]

/-- The signature of a canonical configuration: the first 32 bits of the SHA-256 of its little-endian words (03 R69). -/
def signature (words : List Nat) : Nat := sha256 (words.flatMap fun w => leBytes 4 w) / 2 ^ 224

/-- The outputs whose canonical configuration holds the register at `off` (03 Table 3.12), by event source. -/
def affected (off : Nat) : List Nat :=
  if 0x10000 ≤ off ∧ off < 0x14000 then [(off - 0x10000) / 0x100]
  else if 0x14000 ≤ off ∧ off < 0x14200 then (List.range 8).map fun p => 8 * ((off - 0x14000) / 0x40) + p
  else if 0x18000 ≤ off ∧ off < 0x18180 then [113 + (off - 0x18000) / 0x20]
  else if 0x1C000 ≤ off ∧ off < 0x1C400 then [64 + (off - 0x1C000) / 0x40]
  else if 0x1C400 ≤ off ∧ off < 0x1C440 then (List.range 4).map fun k => 64 + 4 * ((off - 0x1C400) / 0x10) + k
  else if 0x20000 ≤ off ∧ off < 0x20A00 then [80 + (off - 0x20000) / 0x100]
  else if 0x28000 ≤ off ∧ off < 0x28300 then [92 + (off - 0x28000) / 0x40]
  else if 0x28400 ≤ off ∧ off < 0x28480 then [90 + (off - 0x28400) / 0x40]
  else if 0x28600 ≤ off ∧ off < 0x28614 then [104]
  else if off = Reg.LANTERN_CFG then (List.range 12).map fun k => 92 + k
  else []

/-- The signature of an output as its halter holds it. -/
def heldSig (c : Chip) (src : Nat) : Nat :=
  if src < 64 then (c.stall src).sig else if src < 80 then (c.valve (src - 64)).sig else if src < 90 then (c.loop (src - 80)).sig
  else if src < 92 then (c.boost (src - 90)).sig else if src < 104 then (c.sink (src - 92)).sig
  else if src = 104 then c.halt.mx.sig else (c.dout (src - 113)).sig

/-- The chip with the signature of an output at `v`. -/
def setSig (src v : Nat) (c : Chip) : Chip :=
  if src < 64 then c.setStall src { c.stall src with sig := v }
  else if src < 80 then c.setValve (src - 64) { c.valve (src - 64) with sig := v }
  else if src < 90 then c.setLoop (src - 80) { c.loop (src - 80) with sig := v }
  else if src < 92 then c.setBoost (src - 90) { c.boost (src - 90) with sig := v }
  else if src < 104 then c.setSink (src - 92) { c.sink (src - 92) with sig := v }
  else if src = 104 then { c with halt := { c.halt with mx := { c.halt.mx with sig := v } } }
  else c.setDout (src - 113) { c.dout (src - 113) with sig := v }

/-- The signature of an output is written into its halter with its configuration (03 R69). -/
def resign (r : Regs) (src : Nat) (c : Chip) : Chip := setSig src (signature (canonWords r.h r c src)) c

end Sys2Proof.Machine
end

