-- ==== Sys2Proof/Machine/Yard.lean ====
section
/-!
DEFINITION. Sys2Proof/Machine/Yard.lean: how configuration and commands reach the halters: deferred gang, period and pair changes
(03 R70, 05 R127, 10 R245), guyline frames (01 R17, R18) and the join of a yard's result with its command's acknowledgement (01 R18,
R19).
-/

namespace Sys2Proof.Machine

/-- The output of a stall is on or rising: RAMP, INRUSH or ON (06 Table 6.1). -/
def Stall.active (s : Stall) : Bool :=
  match s.st with
  | .ramp | .inrush | .on => true
  | _ => false

/-- The stall is in PWM (05 R131): a duty between 0 and 0x10000 is in force or due. -/
def Stall.pwm (s : Stall) : Bool :=
  s.active && (match s.dutyNew with
    | some d => decide (0 < d) && decide (d < 0x10000)
    | none => decide (0 < s.duty) && decide (s.duty < 0x10000))

/-- The stall is off and no turn-off is in progress. -/
def Stall.isOff (s : Stall) : Bool := !s.active && !s.falling

/-- Yard `y` is fitted and in use (00 R2, 02 R30). -/
def yardPresent (c : Chip) (y : Nat) : Bool := !(y == 2 && c.ycOff)

/-- CTL may send commands to yard `y` (01 R20). -/
def yardCommandable (c : Chip) (y : Nat) : Bool :=
  yardPresent c y && (c.yard y).adopted && !(c.yard y).unreach && !(c.yard y).adopting

/-- The entries between the members of a gang are cleared from the cross table (06 R153). -/
def clearGangCross (members : List Nat) (c : Chip) : Chip :=
  members.foldl (fun c i =>
    c.setStall i { c.stall i with cross := members.foldl (fun m j => if m.testBit j then m - 2 ^ j else m) (c.stall i).cross }) c

/-- The stalls of row `w` whose gang the two ROW_CFG words give differently (05 R127). -/
def gangTouched (old new w : Nat) : List Nat :=
  ((List.range 8).map fun p => 8 * w + p).filter fun i => gangByCfg old i != gangByCfg new i

/-- ROW_CFG as written takes effect as far as the row's stalls allow (05 R127, Table 5.19; 03 R70): gangs once every stall they touch is
off, PERIOD once no stall of the row is in PWM; a stall in WAIT or SHED, whose output is off, does not count as in PWM (log entry 55). A
formed gang loses its members' mutual cross entries; a gang of two worlds is refused. -/
def applyRow (r : Regs) (w : Nat) (c : Chip) : Chip :=
  let new := r.h (Reg.ROW_CFG w)
  let old := (c.row w).cfg
  let touched := gangTouched old new w
  let gangs := if touched.all fun i => (c.stall i).isOff then bits new 25 20 else bits old 25 20
  let period := if ((List.range 8).any fun p => (c.stall (8 * w + p)).pwm) then bits old 16 0 else bits new 16 0
  let cfg := period + gangs * 2 ^ 20
  let c := c.setRow w { c.row w with cfg := cfg }
  let formed := (touched.filter fun i => (gangByCfg cfg i).headD i == i && decide (1 < (gangByCfg cfg i).length))
  if gangs = bits old 25 20 then c
  else formed.foldl (fun c i =>
    if sameWorld r (gangByCfg cfg i) then clearGangCross (gangByCfg cfg i) c
    else raise r (232 + rowYard w) Cls.warning (8 + i * 65536) c) c

/-- Worlds have been assigned anew in a yard whose gangs stand as configured (05 R124, 06 R153): a gang whose members now lie in two worlds
is refused, and one that forms loses its members' mutual cross entries. -/
def worldsChanged (old r : Regs) (y : Nat) (before c : Chip) : Chip :=
  (List.range 64).foldl (fun c i =>
    let g := gangByCfg (c.row (stallRow i)).cfg i
    if !(stallYard i = y ∧ g.headD i = i ∧ 1 < g.length ∧ gangByCfg (before.row (stallRow i)).cfg i = g) then c
    else if sameWorld old g && !sameWorld r g then raise r (232 + y) Cls.warning (8 + i * 65536) c
    else if !sameWorld old g && sameWorld r g then clearGangCross g c
    else c) c

/-- DO_CFG.PAIR as written takes effect while both outputs are off; a pair of two worlds is refused, once for each time it comes to that
(10 R245). -/
def applyPair (r : Regs) (j : Nat) (c : Chip) : Chip :=
  let new := bit (r.h (Reg.DO_CFG (2 * j))) 3
  let a := c.dout (2 * j)
  let no := new && !(heldSecure r 0x11 (2 * j) == heldSecure r 0x11 (2 * j + 1))
  if a.on || a.falling || (c.dout (2 * j + 1)).on || (c.dout (2 * j + 1)).falling then c
  else
    let c := c.setDout (2 * j) { a with pair := new && !no, pairNo := no }
    if no && !a.pairNo then raise r 235 Cls.warning (8 + (113 + 2 * j) * 65536) c else c

/-- A deferred change of a row is still pending. -/
def rowPending (r : Regs) (c : Chip) (w : Nat) : Bool :=
  !((c.row w).cfg == bits (r.h (Reg.ROW_CFG w)) 16 0 + bits (r.h (Reg.ROW_CFG w)) 25 20 * 2 ^ 20)

/-- A deferred change of a pair is still pending. -/
def pairPending (r : Regs) (c : Chip) (j : Nat) : Bool :=
  !((c.dout (2 * j)).pair == (bit (r.h (Reg.DO_CFG (2 * j))) 3 && heldSecure r 0x11 (2 * j) == heldSecure r 0x11 (2 * j + 1)))

/-- A deferred change of yard `y` is still pending (03 R70, Table 3.6 CONFLICT). -/
def yardPending (r : Regs) (c : Chip) (y : Nat) : Bool :=
  ((List.range 8).any fun w => rowYard w == y && rowPending r c w) ||
    ((List.range 64).any fun i => stallYard i == y && (c.stall i).slotNew.isSome) ||
    (y == 3 && (List.range 6).any fun j => pairPending r c j) || !(c.yard y).defer.isEmpty

/-- The deferred changes of yard `y` that can now be applied are applied, and CONFLICT follows (03 R70). -/
def applyDeferred (r : Regs) (y : Nat) (c : Chip) : Chip :=
  let c := (List.range 8).foldl (fun c w => if rowYard w = y ∧ rowPending r c w then applyRow r w c else c) c
  let c := if y = 3 then (List.range 6).foldl (fun c j => applyPair r j c) c else c
  c.setYard y { c.yard y with conflict := yardPending r c y }

/-- The key under which a halter holds the register at `off`: SUPPLY_CFG is held by each halter apart (02 R52). -/
def haltKey (y off : Nat) : Nat := if off = Reg.SUPPLY_CFG then off + y * 0x100000 else off

/-- SUPPLY_CFG as the halter of yard `y` holds it (02 R52). -/
def supplyCfg (r : Regs) (y : Nat) : Nat := r.h (haltKey y Reg.SUPPLY_CFG)

/-- What the halter does beside storing a configuration word: a new phase waits for the row's wrap (05 R130), gangs, periods and pairs
are applied or deferred, and the signatures of the outputs concerned change with it (03 R69). -/
def cfgEffect (r : Regs) (y off val : Nat) (c : Chip) : Chip :=
  let c := if 0x10000 ≤ off ∧ off < 0x14000 ∧ (off - 0x10000) % 0x100 = 4 then
      c.setStall ((off - 0x10000) / 0x100) { c.stall ((off - 0x10000) / 0x100) with phaseNew := some (bits val 7 0) } else c
  let c := if (0x14000 ≤ off ∧ off < 0x14200) ∨ (0x18000 ≤ off ∧ off < 0x18180) then applyDeferred r y c else c
  (affected off).foldl (fun c src => resign r src c) c

/-- The halter of yard `y` takes a configuration word (16 R356). -/
def applyCfg (y off val : Nat) (s : State) : State :=
  let s := { s with regs := { s.regs with halt := s.regs.halt.wr (haltKey y off) val } }
  s.onChip fun r c => cfgEffect r y off val c

/-- CTL issues a command frame to yard `y`, a configuration write or, with `who`, the command of a descriptor or of a sequence step:
transmitted at once unless 8 are unacknowledged (01 R17). -/
def sendFrame (y off val : Nat) (who : Option (Nat × Option Nat)) (done : Bool) (c : Chip) : Chip :=
  let d := c.yard y
  let go := decide ((d.frames.filter fun f => 0 < f.tx && !f.ack).length < 8)
  let c := c.setYard y { d with
    nextSeq := d.nextSeq + 1
    nextExec := if done then d.nextSeq + 1 else d.nextExec
    frames := d.frames ++ [{ seq := d.nextSeq, tx := b2n go, off := off, val := val, who := who, done := done }] }
  if go then c.emit (.guy y .command d.nextSeq) else c

/-- A command that CTL issues now to yard `y` may execute at once (01 R17, R389): every earlier one has executed, and fewer than 8 are
unacknowledged. -/
def yardIdle (c : Chip) (y : Nat) : Bool :=
  ((c.yard y).frames.all fun f => f.done) && decide (((c.yard y).frames.filter fun f => !f.ack).length < 8)

/-- The command of a descriptor, or of step `k` of a sequence, is issued to yard `y` (01 R17): it executes there by `effect` at once where
no earlier command of the yard is on its way, else at its turn once the yard has received it (GUYLINE_COMMAND_RX; log entry 7). The
descriptor completes only once its commands are acknowledged (01 R18). -/
def yardCommand (y id : Nat) (k : Option Nat) (effect : State → State) (s : State) : State :=
  let now := yardIdle s.chip y
  let s := s.onChip fun _ c =>
    let seq := (c.yard y).nextSeq
    let c := sendFrame y 0 0 (some (id, k)) now c
    if k.isSome then c else updJob id (fun j => { j with unack := j.unack ++ [(y, seq)] }) c
  if now then effect s else s

/-- A descriptor's outcome is known to CTL: it completes, or waits for its command's acknowledgement (01 R18). -/
def jobOutcome (r : Regs) (id st res t : Nat) (c : Chip) : Chip :=
  match c.job id with
  | some j =>
    if j.unack.isEmpty then completeAt r id st res t c
    else updJob id (fun k => { k with outc := some (st, res, t) }) c
  | none => c

/-- The waiting command of yard `y` with the lowest sequence number is transmitted where fewer than 8 are unacknowledged (01 R17) and CTL
may send the yard commands (01 R20). -/
def sendWaiting (y : Nat) (c : Chip) : Chip :=
  let d := c.yard y
  match d.frames.find? fun f => f.tx == 0 with
  | some g =>
    if yardCommandable c y && decide ((d.frames.filter fun f => 0 < f.tx && !f.ack).length < 8) then
      (c.setYard y { d with frames := d.frames.map fun f => if f.seq == g.seq then { f with tx := 1 } else f }).emit (.guy y .command g.seq)
    else c
  | none => c

/-- A descriptor's command is acknowledged; with its last one a descriptor whose outcome is known completes (01 R18). -/
def ackJob (r : Regs) (y seq : Nat) (c : Chip) : Chip :=
  match c.jobs.find? fun j => j.unack.contains (y, seq) with
  | none => c
  | some j =>
    let rest := j.unack.filter fun u => !(u == (y, seq))
    let c := updJob j.id (fun k => { k with unack := rest }) c
    match j.outc with
    | some (st, res, t) => if rest.isEmpty then completeAt r j.id st res t c else c
    | none => c

/-- A yard acknowledges a command: retransmission stops, a frame that waited is transmitted, and a descriptor whose outcome is known
completes (01 R17, R18). -/
def ackFrame (r : Regs) (y seq : Nat) (c : Chip) : Chip :=
  let acked := (c.yard y).frames.map fun f => if f.seq == seq then { f with ack := true } else f
  ackJob r y seq (sendWaiting y (c.modYard y fun d => { d with frames := acked.filter fun f => !(f.ack && f.done) }))

/-- The status of a sequence: OK if every step was OK, else that of the first step that was not (07 R179). -/
def seqStatus (steps : List VStep) : Nat :=
  match steps.find? fun k => k.st != some St.ok with
  | some k => k.st.getD St.ok
  | none => St.ok

/-- RESULT of a VALVE_SEQ (07 Table 7.7). -/
def seqResult (steps : List VStep) : Nat :=
  (steps.filter fun k => k.done).length + (match steps.findIdx? fun k => k.st != some St.ok with
    | some k => k % 64 * 256
    | none => 0) + (steps.filter fun k => k.st != some St.ok).length % 128 * 65536

/-- The status of a step of a running sequence reaches CTL, and whether its fire was admitted; with the last one outstanding the sequence
completes (07 R179). -/
def seqRecord (r : Regs) (id k st : Nat) (done : Bool) (c : Chip) : Chip :=
  match c.seqs.find? fun q => q.job == id with
  | none => c
  | some q =>
    let steps := q.steps.modify k fun x => if x.st.isSome then x else { x with st := some st, done := done }
    if steps.all fun x => x.st.isSome then
      complete r id (seqStatus steps) (seqResult steps) { c with seqs := c.seqs.filter fun q => !(q.job == id) }
    else { c with seqs := c.seqs.map fun q => if q.job == id then { q with steps := steps } else q }

/-- Every outcome a yard reports of pending descriptors and sequence steps reaches CTL (01 R19). -/
def takeResults (r : Regs) (l : List YRes) (c : Chip) : Chip :=
  l.foldl (fun c x => match x.step with
    | some k => seqRecord r x.job k x.st (x.res != 0) c
    | none => jobOutcome r x.job x.st x.res x.t c) c

/-- The entries of a unit map for which `p` holds are replaced by those of `src`. -/
def mergeMap {α : Type} (p : Nat → Bool) (src dst : UMap α) : UMap α :=
  (src.filter fun e => p e.1).foldl (fun m e => m.put e.1 e.2) (dst.filter fun e => !p e.1)

/-- The part of yard `y` in a status mirror replaces CTL's copy of it (01 R19). -/
def copyYard (y : Nat) (src dst : Halt) : Halt :=
  if y = 3 then { src with stalls := dst.stalls, rows := dst.rows, curves := dst.curves }
  else { dst with
    stalls := mergeMap (fun i => stallYard i == y) src.stalls dst.stalls
    rows := mergeMap (fun w => rowYard w == y) src.rows dst.rows
    curves := mergeMap (fun k => k / 2 == y) src.curves dst.curves }

end Sys2Proof.Machine
end

