-- ==== Sys2Proof/Machine/Budget.lean ====
section
/-!
DEFINITION. Sys2Proof/Machine/Budget.lean: the supply conditions of a turn-on: lock-out, shed classes and the power budget
(02 R31, R33, R50, R54 to R57; check 7 of 04 Table 4.16).
-/

namespace Sys2Proof.Machine

/-- A payload from its bytes, byte 0 first (04 Table 4.19). -/
def pay (l : List Nat) : Nat := leNat l

/-- Two payload bytes, low byte first. -/
def two (v : Nat) : List Nat := [v % 256, v / 256 % 256]

/-- A voltage in units of 10 mV, as a payload holds it (02 R58). -/
def mv10 (mv : Int) : List Nat := two (mv / 10).toNat

/-- Four payload bytes, low byte first. -/
def four (v : Nat) : List Nat := leBytes 4 v

/-- An event of source 240 (15 R351): cause, class, block, unit, value. -/
def ageEvent (r : Regs) (cause cls blk unit v : Nat) (c : Chip) : Chip := raise r 240 cls (pay ([cause, blk] ++ two unit ++ two v)) c

/-- An adaptive loop of ADAPT_STATUS bit `n` asks for `want` within an envelope: it takes the nearer edge, and its first clamped update of
a row of them raises ADAPT_CLAMP (15 R344). -/
def adaptTo (r : Regs) (n inst blk unit : Nat) (lo hi want : Int) (c : Chip) : Chip :=
  let v := clampI lo (if hi < lo then lo else hi) want
  adaptClamp n inst (!decide (v = want)) (ageEvent r 0x0A Cls.limit blk unit (ofSigned 16 v)) c

/-- A class is shed on the feed of a yard (02 R50). -/
def classShed (d : Yard) : Nat → Bool
  | 1 => d.shed1
  | 2 => d.shed2
  | 3 => d.shed3
  | _ => false

/-- FEED_LIM_x.LIMIT of a feed in A: a value above the reset value acts as the reset value (02 Table 2.15). -/
def feedLimit (r : Regs) : Nat → Nat
  | 0 => min 150 (bits (r.c (Reg.FEED_LIM 0)) 7 0)
  | 1 => min 150 (bits (r.c (Reg.FEED_LIM 1)) 7 0)
  | 2 => min 100 (bits (r.c (Reg.FEED_LIM 2)) 7 0)
  | _ => min 80 (bits (r.c (Reg.FEED_LIM 3)) 7 0)

/-- BUDGET_CFG.DISS_LIMIT in W (02 Table 2.15). -/
def dissLimit (r : Regs) : Nat := clampN 10 70 (bits (r.c Reg.BUDGET_CFG) 6 0)

/-- Both budget conditions hold for a further demand on a feed, in mA and mW (02 R54). -/
def budgetFits (r : Regs) (c : Chip) (feed dI dP : Nat) : Bool :=
  let onFeed := ((c.budget.resv.filter fun x => x.feed == feed).map fun x => x.dI).sum
  let all := (c.budget.resv.map fun x => x.dP).sum
  decide ((c.feed feed).iMa + onFeed + dI ≤ feedLimit r feed * 1000) && decide (c.budget.pMw + all + dP ≤ dissLimit r * 1000)

/-- A granted reservation counts at once (02 R54). -/
def reserve (feed dI dP : Nat) (c : Chip) : Chip :=
  { c with budget := { c.budget with
      resv := c.budget.resv ++ [{ id := c.budget.nextId, feed := feed, dI := dI, dP := dP }], nextId := c.budget.nextId + 1 } }

/-- The clamp energy of a turn-off in µJ counts in the present millisecond's dissipation (02 R54). -/
def clampHeat (uj : Nat) (c : Chip) : Chip := { c with budget := { c.budget with clampUj := c.budget.clampUj + uj } }

/-- Feed conditions of a turn-on of an output by event source: YC not in use, lock-out or the off band, the limited low band of VBAT48
for classes 1 to 3 (02 R30, R31, R33), then the shed class (02 R50). -/
def checkSupply (r : Regs) (c : Chip) (src : Nat) : List (Bool × Nat) :=
  let cls := shedClass r src
  match srcYard src with
  | some y =>
    [(y == 2 && c.ycOff, St.supplyLow), ((c.yard y).lockout, St.supplyLow),
     (y == 2 && (c.feed 3).band == 2 && decide (1 ≤ cls), St.supplyLow), (classShed (c.yard y) cls, St.shed)]
  | none => []

/-- Check 7 with the power budget: class 0 is never refused (02 R54). -/
def check7 (r : Regs) (c : Chip) (src dI dP : Nat) : List (Bool × Nat) :=
  checkSupply r c src ++ [(decide (shedClass r src ≠ 0) && !budgetFits r c (srcFeed src) dI dP, St.shed)]

/-- The on-resistance of a switch by event source in 0.1 mΩ at its present junction temperature (02 R55). -/
def rdsNow (c : Chip) (src : Nat) (tj : Int) : Nat :=
  let measured := if src < 64 then (UMap.get {} c.age.caps src : Cap).rds else UMap.get 0 c.age.rdsX src
  Config.rdsAt src (if measured = 0 then Config.factoryRds src else measured) tj

/-- I²R in mW for a current in mA and a resistance in 0.1 mΩ. -/
def lossMw (ma rds : Nat) : Nat := ma * ma * rds / 10000000

end Sys2Proof.Machine
end

