-- ==== Sys2Proof/Machine/Flags.lean ====
section
/-!
DEFINITION. Sys2Proof/Machine/Flags.lean: the status words the module shows, composed from its state (06 Tables 6.16 to 6.18 and the
status registers of the other chapters).
-/

namespace Sys2Proof.Machine

/-- A number from named bits: the sum of 2^n over the pairs (n, set). -/
def flagBits (l : List (Nat × Bool)) : Nat := (l.map fun p => if p.2 then 2 ^ p.1 else 0).sum

/-- The code of a protection state (06 Table 6.1). -/
def PState.code : PState → Nat
  | .off => 0 | .ramp => 1 | .inrush => 2 | .on => 3 | .wait => 4 | .shed => 5 | .latched => 6

/-- LATCH_RETRY, LATCH_TH and LATCH_WIRE as three bits (06 Table 6.7). -/
def Stall.latches (s : Stall) : Nat := flagBits [(0, s.latchRetry), (1, s.latchTh), (2, s.latchWire)]

/-- The current of a stall's gang in mA: the sum of its members' readings (05 R133). -/
def gangCurrent (r : Regs) (c : Chip) (i : Nat) : Int := ((gang r c i).map fun j => (c.stall j).iMa).sum

/-- The pause timer runs (06 R141). -/
def pauseRuns (c : Chip) (s : Stall) : Bool := decide (c.now < s.pauseEnd)

/-- Remaining pause in ms, rounded up (06 Table 6.18; log entry 9). -/
def pauseLeft (c : Chip) (s : Stall) : Nat := (s.pauseEnd - c.now + 999999) / 1000000

/-- The static and dynamic temperature conditions of a restart hold for one member (06 R144). -/
def coolEnough (r : Regs) (c : Chip) (lead i : Nat) : Bool :=
  let s := c.stall i
  decide (s.tj < 1000 * ((tsdE r c lead : Int) - tHys r lead)) &&
    decide (s.tj - (c.row (stallRow i)).ref < 1000 * (80 - (tHys r lead : Int)))

/-- STALL_STATUS (06 Table 6.16). -/
def stallStatus (r : Regs) (c : Chip) (i : Nat) : Nat :=
  let s := c.stall i
  s.st.code + flagBits [(4, s.fb), (5, s.latchRetry), (6, s.latchTh), (7, s.latchWire), (8, s.openLoad), (9, s.shortVbat),
    (10, s.onLow), (11, s.shortGnd), (12, decide (s.cross ≠ 0)), (13, s.st == .wait && s.wireWait.isSome), (14, pauseRuns c s),
    (15, s.st == .wait && !(gang r c i).all fun j => coolEnough r c i j)] + s.att % 16 * 2 ^ 16 + s.th % 16 * 2 ^ 20

/-- STALL_COUNT (06 Table 6.17). -/
def stallCount (s : Stall) : Nat := s.trips % 65536 + s.thermal % 65536 * 65536

end Sys2Proof.Machine
end

