-- ==== Sys2Proof/Machine/Stall.lean ====
section
/-!
DEFINITION. Sys2Proof/Machine/Stall.lean: the stalls: turn-on episodes, the protection state machine, PWM and the stall commands
(05, 06). For a gang, the state is its leader's (06, introduction).
-/

namespace Sys2Proof.Machine

/-- The payload of a stall's events (06 R160). -/
def stallPay (r : Regs) (i cause : Nat) (c : Chip) : Nat :=
  let s := c.stall i
  pay ([cause, s.st.code + s.att * 16, s.th + s.latches * 16] ++ two ((gangCurrent r c i).toNat / 10) ++
    [(clampI 0 255 (s.tj / 1000 + 50)).toNat])

/-- An event of a stall (06 R160). -/
def stallEvent (r : Regs) (i cause cls : Nat) (c : Chip) : Chip := yardEvent i cls (stallPay r i cause c) c

/-- A stall, or a member of its gang, has a cross partner that is active, or, while CTL is absent, one in another yard (06 R154). -/
def crossBlocked (r : Regs) (c : Chip) (i : Nat) : Bool :=
  (List.range 64).any fun j => ((gang r c i).any fun m => (c.stall m).cross.testBit j) &&
    ((c.stall (leader r c j)).active || ((c.yard (stallYard i)).ctlAbsent && !(stallYard j == stallYard i)))

/-- The class of the stall is shed, or its feed is in lock-out or the off band (06 Table 6.4). -/
def shedBlocked (r : Regs) (c : Chip) (i : Nat) : Bool :=
  (c.yard (stallYard i)).lockout || classShed (c.yard (stallYard i)) (shedClass r i)

/-- All restart conditions of 06 R144 hold. -/
def canStart (r : Regs) (c : Chip) (i : Nat) : Bool :=
  !pauseRuns c (c.stall i) && ((gang r c i).all fun j => coolEnough r c i j) && (c.stall i).wireWait.isNone &&
    !shedBlocked r c i && !crossBlocked r c i

/-- The caps that lower ILIM (bit 0), N (bit 1) or TSD (bit 2) below the fields (06 R148). -/
def capsBite (r : Regs) (c : Chip) (i : Nat) : Nat :=
  flagBits [(0, decide (capLim r c i < ilimField r i)), (1, decide (capRetry r c i < max 1 (bits (r.h (Reg.STALL_PROT i)) 3 0))),
    (2, decide (capTsd r c i < clampN 150 175 (bits (r.h (Reg.STALL_THERM i)) 7 0)))]

/-- The caps that bite are noted in the halter; one that begins to raises AGE_CAP (06 R148). -/
def noteCaps (r : Regs) (i : Nat) (c : Chip) : Chip :=
  let now := capsBite r c i
  let c' := c.modStall i fun s => { s with capSeen := now }
  if now &&& (c.stall i).capSeen = now then c' else stallEvent r i 0x21 Cls.limit c'

/-- RESULT of STALL_SET (05 Table 5.7). -/
def setResult (r : Regs) (c : Chip) (i outcome : Nat) (superseded : Bool) : Nat :=
  outcome + b2n (c.stall i).rampUsed * 4 + b2n superseded * 8 + (gangCurrent r c i).toNat / 10 % 65536 * 65536

/-- RESULT of STALL_PWM (05 Table 5.8). -/
def pwmResult (c : Chip) (i duty outcome : Nat) (superseded : Bool) : Nat :=
  duty + b2n (c.stall i).rampUsed * 2 ^ 17 + outcome * 2 ^ 18 + b2n superseded * 2 ^ 20

/-- The turn-offs of a stall that wait complete (05 R135). -/
def finishOffs (r : Regs) (i : Nat) (c : Chip) : Chip :=
  let off := setResult r c i 0 false
  let pwm := pwmResult c i 0 0 false
  (c.stall i).offJobs.foldl (fun c j => yardResult (stallYard i) j.1 St.ok (if j.2 then pwm else off) c)
    (c.modStall i fun s => { s with offJobs := [] })

/-- A stall whose output is off takes the changes that waited for it (03 R70; 05 R117, R127; 05 Table 5.19). -/
def settleStall (r : Regs) (i : Nat) (c : Chip) : Chip :=
  if (c.stall i).isOff then applyDeferred r (stallYard i) (c.modStall i fun s => { s with slotNew := none }) else c

/-- An attempt starts (06 R144, R148; 05 R114, R118, R120, R130): RAMP with FB or without a profile or on a first attempt with SLEW_FIRST,
else INRUSH from t = 0, with the caps and STALL_PROT of now; in PWM the output rises with the next pulse, but at once with FB. Turn-offs that
still wait for the output to fall complete (log entry 55). -/
def startAttempt (r : Regs) (i : Nat) (c : Chip) : Chip :=
  let c := finishOffs r i c
  let s := c.stall i
  let ramp := s.fb || s.curve.isEmpty || (s.first && s.slewFirst)
  let due := match s.dutyNew with
    | some d => decide (0 < d) && decide (d < 0x10000)
    | none => decide (0 < s.duty) && decide (s.duty < 0x10000)
  let s := { s with
    st := if ramp then .ramp else .inrush
    rampUsed := ramp
    limCap := capLim r c i, ceilCap := capCeil r c i, retryCap := capRetry r c i, protA := r.h (Reg.STALL_PROT i)
    tOn := c.now, pulseDue := due && !s.fb, out := !(due && !s.fb), falling := false, fast := false, tHot := 0, tDyn := 0, rampHold := false }
  noteCaps r i (c.setStall i { s with limNow := limitAt r s i 0 })

/-- A turn-on episode starts (05 R113, R117; 06 Table 6.4): FB cleared, the slot's curve taken, and an attempt or the wait for one. -/
def openEpisode (r : Regs) (i : Nat) (slewFirst : Bool) (c : Chip) : Chip :=
  let ready := canStart r c i
  let c := c.modStall i fun s => { s with
    req := true, episode := true, fb := false, first := true, slewFirst := slewFirst, wasOn := false
    curve := slotCurve c (stallYard i) (slotOf r i), slotNew := none }
  if ready then startAttempt r i c else c.modStall i fun s => { s with st := .wait, out := false }

/-- The duty a stall has or is about to have. -/
def Stall.dutyDue (s : Stall) : Nat := s.dutyNew.getD s.duty

/-- Every pending turn-on of a stall finishes with a status and an outcome (05 R135). -/
def finishStall (r : Regs) (i st outcome : Nat) (superseded : Bool) (c : Chip) : Chip :=
  let s := c.stall i
  let y := stallYard i
  let pw := pwmResult c i s.dutyDue outcome superseded
  let c := yardResultOpt y s.job st (if s.jobPwm then pw else setResult r c i outcome superseded) c
  let c := s.jobsP.foldl (fun c id => yardResult y id st pw c) c
  c.modStall i fun s => { s with job := none, jobsP := [], clampP := false }

/-- OK, or OK_CLAMPED where the limit or the duty was reduced (05 R135). -/
def okStatus (r : Regs) (c : Chip) (i : Nat) : Nat :=
  if limitReduced r (c.stall i) i || (c.stall i).clampP then St.okClamped else St.ok

/-- The duty in force has taken effect: pending STALL_PWM complete with OUTCOME ON (05 R130, R135). -/
def pwmEffect (r : Regs) (i : Nat) (c : Chip) : Chip :=
  let res := pwmResult c i (c.stall i).duty 1 false
  let ok := okStatus r c i
  ((c.stall i).jobsP.foldl (fun c id => yardResult (stallYard i) id ok res c) c).modStall i fun st => { st with jobsP := [], clampP := false }

/-- Every dispatched descriptor of a stall completes ABORTED_DISABLED (04 R103): turn-ons, turn-offs and diagnoses. -/
def abortStall (r : Regs) (i : Nat) (c : Chip) : Chip :=
  let s := c.stall i
  let ids := s.offJobs.map (fun j => j.1) ++ s.diagJobs.map (fun j => j.1)
  (ids.foldl (fun c id => yardResult (stallYard i) id St.aborted 0 c) (finishStall r i St.aborted 0 false c)).modStall i fun s =>
    { s with offJobs := [], diagJobs := [] }

/-- The output falls, or is off already (05 R111). -/
def dropOutput (fast : Bool) (s : Stall) : Stall := { s with falling := s.out || s.falling, fast := fast, out := false, pulseDue := false, rampHold := false }

/-- A turn-off happens to a stall (06 Table 6.4): pending turn-ons complete first, superseded (05 R135). -/
def turnOff (r : Regs) (i : Nat) (c : Chip) : Chip :=
  let s := c.stall i
  let idle (s : Stall) : Stall := { s with st := .off, req := false, episode := false, dutyNew := none, duty := 0 }
  match s.st with
  | .off | .latched => c
  | .wait | .shed => (finishStall r i St.ok 0 true c).modStall i idle
  | _ => settleStall r i ((finishStall r i St.ok 0 true c).modStall i fun s => dropOutput false (idle s))

/-- A stall is shed, or loses its feed to lock-out or the off band (06 Table 6.4, 02 R50): a turn-on not yet completed completes with
the status, OUTCOME OFF. -/
def shedStall (r : Regs) (status i : Nat) (c : Chip) : Chip :=
  let s := c.stall i
  match s.st with
  | .ramp | .inrush | .on =>
    settleStall r i ((finishStall r i status 0 false c).modStall i fun s => dropOutput false { s with st := .shed, episode := false })
  | .wait => (finishStall r i status 0 false c).modStall i fun s => { s with st := .shed, episode := false }
  | _ => c

/-- A restore of a stall (02 R51, R52; 06 Table 6.4, R154). -/
def restoreStall (r : Regs) (i : Nat) (c : Chip) : Chip :=
  let s := c.stall i
  if s.st != .shed then c
  else if shedBlocked r c i then c
  else if crossBlocked r c i then
    stallEvent r i 0x20 Cls.warning (c.modStall i fun s => { s with st := .off, req := false })
  else openEpisode r i false c

/-- The kind of trip, in the order in which a coincidence is reported (06 R147). -/
inductive TripKind | sc | shortGnd | thermal | reverse | oc | ramp | wire
  deriving DecidableEq, Repr

/-- The cause of a trip (06 Table 6.11). -/
def TripKind.cause : TripKind → Nat
  | .oc => 1 | .sc => 2 | .shortGnd => 3 | .ramp => 4 | .thermal => 5 | .wire => 6 | .reverse => 7

/-- A thermal trip condition of a stall or gang holds: two consecutive samples of a member reached a threshold (06 Table 6.2). -/
def tripHot (r : Regs) (c : Chip) (i : Nat) : Bool := (gang r c i).any fun j => (c.stall j).tHot == 2 || (c.stall j).tDyn == 2

/-- The cause of a trip that met a thermal condition in the same cycle (06 R147): SC and SHORT_GND come before it, every other after. -/
def TripKind.with (k : TripKind) (hot : Bool) : TripKind := if hot && !(k == .sc || k == .shortGnd) then .thermal else k

/-- A trip is processed in the order of 06 R143; conditions of one cycle make one trip (R147); a latched fault of a held stall wakes the
module (02 R44). -/
def trip (r : Regs) (k : TripKind) (i : Nat) (c : Chip) : Chip :=
  let s := c.stall i
  if !s.active then c else
  let hot := decide (k = .thermal) || tripHot r c i
  let cause := (k.with hot).cause
  let att := min 15 (s.att + 1)
  let th := if hot then min 15 (s.th + 1) else s.th
  let lr := decide (retryE s ≤ att)
  let lt := decide (thM s ≤ th)
  let lw := decide (k = .wire) && bit (r.h (Reg.STALL_PROT i)) 10
  let latch := lr || lt || lw
  let pend := s.job.isSome || !s.jobsP.isEmpty
  let fb := s.fb || (s.st == .inrush && s.first)
  let s' := dropOutput (decide (k = .sc) || decide (k = .shortGnd)) { s with
    att := att, th := th, fb := fb, wasOn := s.wasOn || s.st == .on, first := false
    shortGnd := if k = .shortGnd then true else if k = .sc then false else s.shortGnd
    shortVbat := s.shortVbat || decide (k = .reverse)
    trips := (s.trips + 1) % 65536, thermal := if hot then (s.thermal + 1) % 65536 else s.thermal
    lastCause := cause, lastT := c.mt.val % 2 ^ 48
    wireWait := if k = .wire then some s.rise else s.wireWait }
  let c := if latch then
      (c.setStall i { s' with
        st := .latched, latchRetry := s.latchRetry || lr, latchTh := s.latchTh || lt, latchWire := s.latchWire || lw
        req := false, episode := false, dutyNew := none, duty := 0 })
    else c.setStall i { s' with st := .wait, pauseEnd := c.now + 10000000 * 2 ^ min (att - 1) 7 }
  let c := stallEvent r i cause Cls.fault (settleStall r i c)
  let c := if latch then wakeNow r i (stallPay r i 8 c) (stallEvent r i 8 Cls.latched c) else c
  if pend then finishStall r i (if latch then St.latched else okStatus r c i) (if latch then 0 else 2) false c else c

-- Commands --------------------------------------------------------------------------------------------------------------

/-- What the ring engine knows of a STALL_* descriptor (05 R125, R135). -/
def stallDesc (s : State) (opc u : Nat) : Desc :=
  { opc := opc, blk := 0x10, unit := u, target := leader s.regs s.chip u == u }

/-- A grant of one of the access functions in `mask` is valid (05 R134, 13 R307). -/
def granted (c : Chip) (mask : Nat) : Bool := (List.range 8).any fun f => mask.testBit f && (UMap.get {} c.acc.fns f : AccFn).grant.isSome

/-- A secure-owned stall that needs a grant has none (05 R134). -/
def authFails (r : Regs) (c : Chip) (i : Nat) : Bool :=
  ownerSecure r 0x10 i && bit (r.c (Reg.STALL_SEC i)) 8 && !granted c (bits (r.c (Reg.STALL_SEC i)) 7 0)

/-- The reservation of a stall or gang in mA and mW (02 Table 2.14). -/
def stallDemand (r : Regs) (c : Chip) (i : Nat) : Nat × Nat :=
  let g := gang r c i
  let share := 100 * bits (r.c (Reg.STALL_BUDGET i)) 9 0
  (share * g.length, (g.map fun j => lossMw share (rdsNow c j (c.stall j).tj)).sum)

/-- Checks 7 and 8 of a turn-on (05 R134, R135; 06 Table 6.4). -/
def turnOnChecks (r : Regs) (c : Chip) (i : Nat) : List (Bool × Nat) :=
  let d := stallDemand r c i
  checkSupply r c i ++
    [((c.stall i).st == .shed, St.shed),
     (decide (shedClass r i ≠ 0) && !budgetFits r c (srcFeed i) d.1 d.2, St.shed),
     (authFails r c i, St.authFail), ((c.stall i).st == .latched, St.latched),
     ((c.stall i).st == .off && crossBlocked r c i, St.busy)]

/-- A static turn-on asks for the state already in force (05 R135). -/
def staticInForce (s : Stall) : Bool := s.active && !s.pwm

/-- A static turn-on takes effect in the halter (05 R113, R135): a new episode, static in place of PWM, or nothing while it waits. One that
repeats a turn-on still rising completes at once with OUTCOME ON, as for the state in force; a STALL_PWM whose duty it replaces before it took
effect completes with it (log entry 55). -/
def staticOn (r : Regs) (i id : Nat) (pwmJob slewFirst : Bool) (c : Chip) : Chip :=
  let s := c.stall i
  let done (outcome : Nat) (c : Chip) : Chip :=
    yardResult (stallYard i) id (okStatus r c i) (if pwmJob then pwmResult c i 0x10000 outcome false else setResult r c i outcome false) c
  match s.st with
  | .wait => done 3 (c.modStall i fun s => { s with duty := if pwmJob then 0x10000 else 0, dutyNew := none })
  | .off =>
    let c := c.modStall i fun s => { s with duty := if pwmJob then 0x10000 else 0, dutyNew := none }
    let c := openEpisode r i slewFirst c
    if (c.stall i).st = .wait then done 3 c else c.modStall i fun s => { s with job := some id, jobPwm := pwmJob }
  | _ =>
    if staticInForce s then done 1 c
    else
      let was := s.out
      let c := c.modStall i fun s => { s with
        duty := if pwmJob then 0x10000 else 0, dutyNew := none, out := true, pulseDue := false, falling := false, rampHold := false
        tOn := if s.pulseDue then c.now else s.tOn }
      let c := applyDeferred r (stallYard i) c
      if was then done 1 (pwmEffect r i c) else c.modStall i fun s => { s with job := some id, jobPwm := pwmJob }

/-- A turn-off takes effect in the halter and its descriptor completes, at once or when the output has fallen (05 R135). -/
def staticOff (r : Regs) (i id : Nat) (pwmJob : Bool) (c : Chip) : Chip :=
  let c := turnOff r i c
  if (c.stall i).falling then c.modStall i fun s => { s with offJobs := s.offJobs ++ [(id, pwmJob)] }
  else yardResult (stallYard i) id St.ok (if pwmJob then pwmResult c i 0 0 false else setResult r c i 0 false) c

/-- A command or SAFE action that reaches a stall during the off time of a feed cycle stands, and the cycle's turn-on is cancelled (12
R283). -/
def cancelCycle (i : Nat) (c : Chip) : Chip := c.modStall i fun s => { s with cycling := false }

/-- STALL_SET in the halter (05 R135). -/
def setStall (u : Nat) (on slewFirst : Bool) (id : Nat) (r : Regs) (c : Chip) : Chip :=
  let c := cancelCycle u c
  if on then staticOn r u id false slewFirst c else staticOff r u id false c

/-- The budget grants a static turn-on (02 R54): none is asked for in WAIT or while a static on is in force. -/
def reserveOn (u : Nat) (r : Regs) (c : Chip) : Chip :=
  let d := stallDemand r c u
  if (c.stall u).st = .wait ∨ staticInForce (c.stall u) then c else reserve (srcFeed u) d.1 d.2 c

/-- Body of STALL_SET (05 R135). -/
def bodyStallSet (u : Nat) (on slewFirst : Bool) (id : Nat) (s : State) : State :=
  gated (fun r c => checks56 r c 0x10 u ++ (if on && staticInForce (c.stall u) then [(authFails r c u, St.authFail)] else if on then turnOnChecks r c u else [(u / 24 == 2 && c.ycOff, St.supplyLow)]))
    (fun id s => yardCommand (stallYard u) id none (State.onChip (setStall u on slewFirst id)) (if on then s.onChip (reserveOn u) else s)) id s

/-- STALL_SET (05 R135). -/
def execStallSet (h : Hdr) (u : Fin 64) (on slewFirst : Bool) (s : State) : Answer :=
  .next (runDesc (stallDesc s 0x10 u.val) h (.stallSet h u on slewFirst) (bodyStallSet u.val on slewFirst) s)

/-- The duty after the TMIN rule, in 1/65,536 of the period, rounded up (05 R131; log entry 9). -/
def dutyApplied (c : Chip) (i duty : Nat) : Nat :=
  let p := rowPeriod c (stallRow i)
  let m := (tMin (stallKind i) * 65536 + p - 1) / p
  if duty < m then m else if 65536 - duty < m then 65536 - m else duty

/-- A non-zero duty below 0x10000 takes effect in the halter from the pulse after the next wrap (05 R130, R131). A STALL_PWM whose duty
another replaces before it took effect completes with the other, with that one's DUTY_APPLIED and status (log entry 55). -/
def pwmOn (r : Regs) (i id duty : Nat) (c : Chip) : Chip :=
  let s := c.stall i
  let d := dutyApplied c i duty
  let clamp := decide (d ≠ duty)
  match s.st with
  | .wait =>
    let c := c.modStall i fun s => { s with dutyNew := some d, clampP := clamp }
    yardResult (stallYard i) id (okStatus r c i) (pwmResult c i d 3 false) (c.modStall i fun s => { s with clampP := false })
  | .off =>
    let c := c.modStall i fun s => { s with dutyNew := some d, clampP := clamp }
    let c := openEpisode r i false c
    if (c.stall i).st = .wait then
      yardResult (stallYard i) id (okStatus r c i) (pwmResult c i d 3 false) (c.modStall i fun s => { s with clampP := false })
    else c.modStall i fun s => { s with jobsP := s.jobsP ++ [id] }
  | _ => c.modStall i fun s => { s with dutyNew := some d, clampP := clamp, jobsP := s.jobsP ++ [id] }

/-- STALL_PWM in the halter (05 R130, R131): 0 and 0x10000 act as STALL_SET. -/
def setPwm (u duty : Nat) (id : Nat) (r : Regs) (c : Chip) : Chip :=
  let c := cancelCycle u c
  if duty = 0 then staticOff r u id true c else if duty = 0x10000 then staticOn r u id true false c else pwmOn r u id duty c

/-- The budget grants the turn-on of a STALL_PWM (02 R54). -/
def reservePwm (u duty : Nat) (r : Regs) (c : Chip) : Chip :=
  let d := stallDemand r c u
  if duty = 0 then c
  else if duty = 0x10000 then reserveOn u r c
  else if (c.stall u).st = .off then reserve (srcFeed u) d.1 d.2 c
  else c

/-- Body of STALL_PWM (05 R130, R131). The budget is checked from zero duty (02 R54). -/
def bodyStallPwm (u duty : Nat) (id : Nat) (s : State) : State :=
  gated (fun r c => checks56 r c 0x10 u ++
      (if duty = 0 then [(u / 24 == 2 && c.ycOff, St.supplyLow)]
       else if (c.stall u).active then
         checkSupply r c u ++ [(authFails r c u, St.authFail)]
       else turnOnChecks r c u))
    (fun id s => yardCommand (stallYard u) id none (State.onChip (setPwm u duty id)) (s.onChip (reservePwm u duty))) id s

/-- What checks 1 to 4 see of STALL_PWM. -/
def descStallPwm (u : Fin 64) (duty : Fin 131072) (s : State) : Desc :=
  { stallDesc s 0x11 u.val with valid := decide (duty.val ≤ 0x10000) }

/-- STALL_PWM (05 R130, R131). -/
def execStallPwm (h : Hdr) (u : Fin 64) (duty : Fin 131072) (s : State) : Answer :=
  .next (runDesc (descStallPwm u duty s) h (.stallPwm h u duty) (bodyStallPwm u.val duty.val) s)

/-- STALL_PROFILE SELECT in the halter (05 R117): the slot waits until the stall is off. -/
def selectSlot (u slot : Nat) (id : Nat) (s : State) : State :=
  let y := stallYard u
  let on := !(s.chip.stall u).isOff
  (applyCfg y (Reg.STALL_CFG u) (setBits (s.regs.h (Reg.STALL_CFG u)) 13 10 slot) s).onChip fun r c =>
    yardResult y id St.ok (b2n on) (applyDeferred r y (c.modStall u fun st => { st with slotNew := if on then some slot else none }))

/-- Body of STALL_PROFILE SELECT (05 R117, R137): STALL_CFG.PROFILE reads the slot from now on. -/
def bodyProfileSelect (u slot : Nat) (id : Nat) (s : State) : State :=
  gated (fun r c => checks56 r c 0x10 u ++ [(u / 24 == 2 && c.ycOff, St.supplyLow)])
    (fun id s =>
      let off := Reg.STALL_CFG u
      let s := { s with regs := { s.regs with ctl := s.regs.ctl.wr off (setBits (s.regs.c off) 13 10 slot) } }
      yardCommand (stallYard u) id none (selectSlot u slot id) s) id s

/-- What checks 1 to 4 see of STALL_PROFILE_SELECT. -/
def descStallProfileSelect (u : Fin 64) (slot : Fin 16) (s : State) : Desc :=
  { stallDesc s 0x12 u.val with valid := decide (slot.val ≤ 8) }

/-- STALL_PROFILE SELECT (05 R117, R137). -/
def execStallProfileSelect (h : Hdr) (u : Fin 64) (slot : Fin 16) (s : State) : Answer :=
  .next (runDesc (descStallProfileSelect u slot s) h (.stallProfileSelect h u slot) (bodyProfileSelect u.val slot.val) s)

/-- A user slot is selected by a secure-owned stall (05 R136). -/
def userSlotSecure (r : Regs) (user : Bool) : Bool :=
  (List.range 64).any fun i => ownerSecure r 0x10 i && bits (r.c (Reg.STALL_CFG i)) 13 10 == 7 + b2n user

/-- STALL_PROFILE LOAD_USER in the halter of yard `y` (05 R136): its stalls that select the slot are signed anew (03 R69). -/
def loadCurve (y : Nat) (user : Bool) (pts : List (Nat × Nat)) (r : Regs) (c : Chip) : Chip :=
  let c := { c with halt := { c.halt with curves := c.halt.curves.put (2 * y + b2n user) pts } }
  (List.range 64).foldl (fun c i => if stallYard i = y ∧ bits (r.h (Reg.STALL_CFG i)) 13 10 = 7 + b2n user then resign r i c else c) c

/-- Body of STALL_PROFILE LOAD_USER (05 R136): the curve is sent to every halter that CTL may command, the others get it with their
adoption (05 R137, 01 R20); the descriptor completes with the last of the acknowledgements. -/
def bodyProfileLoad (u : Nat) (user : Bool) (pts : List (Nat × Nat)) (id : Nat) (s : State) : State :=
  gated (fun r c => checks56 r c 0x10 u ++ [(u / 24 == 2 && c.ycOff, St.supplyLow)])
    (fun id s =>
      let ys := (List.range 4).filter fun y => yardCommandable s.chip y
      let s := ys.foldl (fun s y => yardCommand y id none (State.onChip (loadCurve y user pts)) s) s
      s.onChip fun r c =>
        jobOutcome r id St.ok 0 c.mt.val { c with curves := (List.range 4).foldl (fun m y => m.put (2 * y + b2n user) pts) c.curves }) id s

/-- What checks 1 to 4 see of STALL_PROFILE_LOAD_USER. -/
def descStallProfileLoadUser (h : Hdr) (u : Fin 64) (user : Bool) (addr : Nat) (pts : List (Nat × Nat)) (s : State) : Desc :=
  { stallDesc s 0x12 u.val with
      valid := decide (2 ≤ pts.length) && decide (pts.length ≤ 8) && decide (addr % 4 = 0), content := curveValid pts
      bufs := [(addr, 4 * pts.length, false)], foreign := userSlotSecure s.regs user && !h.secure }

/-- STALL_PROFILE LOAD_USER (05 R136). A curve that breaks R115 fails check 1; a user slot of a secure-owned stall is the secure
world's. -/
def execStallProfileLoadUser (h : Hdr) (u : Fin 64) (user : Bool) (addr : Nat) (pts : List (Nat × Nat)) (s : State) : Answer :=
  .next (runDesc (descStallProfileLoadUser h u user addr pts s)
    h (.stallProfileLoadUser h u user addr pts) (bodyProfileLoad u.val user pts) s)

/-- Both sides of every cross table entry of stall `i` are cleared (06 R153). -/
def clearCross (i : Nat) (c : Chip) : Chip :=
  (List.range 64).foldl (fun c j =>
    if (c.stall j).cross.testBit i then c.modStall j fun s => { s with cross := s.cross - 2 ^ i } else c)
    (c.modStall i fun s => { s with cross := 0 })

/-- STALL_CLEAR in the halter (06 R145, Table 6.7). -/
def clearStall (r : Regs) (i id : Nat) (diag cross : Bool) (c : Chip) : Chip :=
  let s := c.stall i
  let res := s.st.code + s.latches * 16 + s.att * 256 + s.th * 4096
  let latched := s.st == .latched
  let c := c.setStall i (if latched then { s with
      att := 0, th := 0, st := .off, fb := false, latchRetry := false, latchTh := false, latchWire := false, pauseEnd := c.now, episode := false }
    else { s with att := 0, th := 0 })
  let c := if diag then c.modStall i fun s => { s with openLoad := false, shortVbat := false, onLow := false, dgCnt := 0, dgRep := none } else c
  let c := if cross then clearCross i c else c
  let c := if latched then stallEvent r i 0x0A Cls.state c else c
  jobOutcome r id St.ok res c.mt.val c

/-- Body of STALL_CLEAR (06 R159): it completes once the halter has acknowledged it. -/
def bodyStallClear (u : Nat) (diag cross : Bool) (id : Nat) (s : State) : State :=
  gated (fun r c => checks56 r c 0x10 u ++ [(u / 24 == 2 && c.ycOff, St.supplyLow)])
    (fun id s => yardCommand (stallYard u) id none (State.onChip fun r c => clearStall r u id diag cross c) s) id s

/-- STALL_CLEAR (06 R145, R159). -/
def execStallClear (h : Hdr) (u : Fin 64) (diag cross : Bool) (s : State) : Answer :=
  .next (runDesc (stallDesc s 0x13 u.val) h (.stallClear h u diag cross) (bodyStallClear u.val diag cross) s)

-- Happenings in the halter ------------------------------------------------------------------------------------------------

/-- STALL_SENSE_SAMPLE (05 R133, R115; 06 Table 6.2): current, voltage and junction temperature of one stall and the reference of its
row are measured, L(t) is recomputed, and the thermal conditions are counted over consecutive samples. -/
def senseSample (r : Regs) (u : Nat) (ma mv tj ref : Int) (c : Chip) : Chip :=
  let lead := leader r c u
  let c := c.modRow (stallRow u) fun w => { w with ref := ref }
  let hot := decide (1000 * (tsdE r c lead : Int) ≤ tj)
  let dyn := decide (80000 ≤ tj - ref)
  let c := c.modStall u fun s => { s with
    iMa := ma, vMv := mv, tj := tj, tjRef := if (tj - s.tjRef).natAbs ≤ 1000 then s.tjRef else tj
    tjT := if (tj - s.tjRef).natAbs ≤ 1000 then s.tjT else c.now, tHot := if hot then min 2 (s.tHot + 1) else 0, tDyn := if dyn then min 2 (s.tDyn + 1) else 0 }
  c.modStall lead fun s => { s with limNow := limitAt r s lead (if s.pulseDue then 0 else c.now - s.tOn) }

/-- STALL_SENSE_SAMPLE (05 R133). -/
def execStallSenseSample (u : Fin 64) (ma mv tj ref : Int) (s : State) : Answer :=
  .next (s.onChip fun r c => senseSample r u.val ma mv tj ref c)

/-- TRIP_OC (06 R142; 05 R125): a member's current is above the leader's L(t); in RAMP the comparison is inactive. -/
def execTripOc (u : Fin 64) (ma : Nat) (s : State) : Answer :=
  .next (s.onChip fun r c =>
    let i := leader r c u.val
    let st := c.stall i
    if (st.st == .inrush || st.st == .on) && decide (st.limNow < ma) then trip r .oc i (c.modStall u.val fun s => { s with iMa := ma }) else c)

/-- The short-circuit threshold in mA (06 Table 6.2). -/
def scThreshold (s : Stall) (i : Nat) : Nat := min (s.limNow * 3 / 2) (100 * scAbs (stallKind i))

/-- TRIP_SC (06 R142, R147; 05 R125): reported as SHORT_GND when the output is below 10 % of the feed; while a stall turns off on command
it only changes the edge. -/
def execTripSc (u : Fin 64) (ma mv : Nat) (s : State) : Answer :=
  .next (s.onChip fun r c =>
    let i := leader r c u.val
    let st := c.stall i
    if !decide (scThreshold st i < ma) then c
    else if st.active then
      trip r (if (10 * mv : Int) < (c.feed (srcFeed i)).mv then .shortGnd else .sc) i (c.modStall u.val fun s => { s with iMa := ma })
    else if st.falling then c.setStall i { st with fast := true } else c)

/-- TRIP_THERMAL (06 R142): two consecutive samples of a member reached the static or the dynamic threshold. -/
def execTripThermal (u : Fin 64) (s : State) : Answer :=
  .next (s.onChip fun r c => if tripHot r c u.val then trip r .thermal (leader r c u.val) c else c)

/-- SHORT_VBAT_ON (06 R142; 05 R125): a reverse trip. -/
def execShortVbatOn (u : Fin 64) (s : State) : Answer := .next (s.onChip fun r c => trip r .reverse (leader r c u.val) c)

/-- RAMP_TIMEOUT (05 R119 step 4). -/
def execRampTimeout (u : Fin 64) (s : State) : Answer :=
  .next (s.onChip fun r c => if (c.stall u.val).st = .ramp then trip r .ramp u.val c else c)

/-- k in 0.00001 K/A² and τ in 0.1 s of a stall's conductor (05 Tables 5.4, 5.14): codes 12 to 14, and 15 with unusable user values, act
as code 0. -/
def wireParams (r : Regs) (i : Nat) : Nat × Nat :=
  let x := bits (r.h (Reg.STALL_WIRE i)) 3 0
  let k := bits (r.h (Reg.STALL_WIRE_USER i)) 15 0
  let t := bits (r.h (Reg.STALL_WIRE_USER i)) 31 16
  if x = 15 ∧ k ≠ 0 ∧ 10 ≤ t then (k * 10, t)
  else ([(265000, 130), (120000, 170), (60000, 220), (35000, 260), (19000, 320), (12000, 370), (6800, 460), (3100, 590),
    (1550, 740), (850, 910), (390, 1180), (194, 1490)] : List (Nat × Nat)).getD x (265000, 130)

/-- θ_amb of a stall in °C (05 R121). -/
def wireAmb (r : Regs) (c : Chip) (i : Nat) : Rat :=
  let w := r.h (Reg.STALL_WIRE i)
  (toSigned 8 (bits w 23 16) : Rat) + (if bit w 24 then (c.sys.tbp : Rat) / 1000 else 0)

/-- TLIM − MARGIN in °C (05 R122, Table 5.13). -/
def wireLimit (r : Regs) (i : Nat) : Int :=
  let w := r.h (Reg.STALL_WIRE i)
  (max 60 (bits w 11 4) : Nat) - (bits w 15 12 : Nat)

/-- One millisecond of the wire model: the rise after a forward step of the equation of 05 R121 with I² in mA² (log entry 8). -/
def wireStep (r : Regs) (c : Chip) (i i2 : Nat) : Rat :=
  let p := wireParams r i
  let d := (c.stall i).rise
  let heat : Rat := (p.1 : Rat) / 100000 * ((i2 : Rat) / 1000000) * (1 + 393 / 100000 * (wireAmb r c i + d - 20))
  d + (heat - d) / 1000 / ((p.2 : Rat) / 10)

/-- WIRE_MODEL_UPDATE (05 R121, R122): the rise follows the equation, an active stall trips at TLIM − MARGIN, and a stall that tripped
re-arms at half the rise of its trip. -/
def wireUpdate (r : Regs) (i i2 : Nat) (c : Chip) : Chip :=
  let d := wireStep r c i i2
  let hit := bit (r.h (Reg.STALL_WIRE i)) 31 && decide ((wireLimit r i : Rat) ≤ wireAmb r c i + d)
  let c := c.modStall i fun s => { s with
    rise := d, wireWait := match s.wireWait with
      | some x => if d ≤ x / 2 then none else some x
      | none => none }
  if hit then trip r .wire i c else c

/-- WIRE_MODEL_UPDATE (05 R121): `i2` is the mean of the squared current of the stall or gang over the millisecond, in mA². -/
def execWireModelUpdate (u : Fin 64) (i2 : Nat) (s : State) : Answer := .next (s.onChip fun r c => wireUpdate r u.val i2 c)

/-- RAMP_END (05 R119 step 3, R120): ON, in PWM held on until the next period start. -/
def execRampEnd (u : Fin 64) (s : State) : Answer :=
  .next (s.onChip fun r c =>
    if (c.stall u.val).st = .ramp then
      c.modStall u.val fun st => { st with
        st := .on, limNow := ilimE r st u.val, rampHold := decide (0 < st.dutyDue) && decide (st.dutyDue < 0x10000) }
    else c)

/-- INRUSH_END (05 R114; 06 Table 6.4): ON, with L(t) = ILIM_e. -/
def execInrushEnd (u : Fin 64) (s : State) : Answer :=
  .next (s.onChip fun r c =>
    if (c.stall u.val).st = .inrush ∧ !(c.stall u.val).pulseDue then
      c.modStall u.val fun st => { st with st := .on, limNow := ilimE r st u.val, wasOn := true }
    else c)

/-- The output first reaches 90 % of the feed with `ma` flowing, and the pending static turn-on completes with OUTCOME ON (05 R135), with
it a STALL_PWM that it replaced. -/
def stallOnComplete (r : Regs) (i ma : Nat) (c : Chip) : Chip :=
  let st := c.stall i
  if st.active && st.out && st.job.isSome then
    let c := c.setStall i { st with iMa := ma }
    let c := if st.pwm then c else pwmEffect r i c
    (yardResultOpt (stallYard i) st.job (okStatus r c i)
      (if st.jobPwm then pwmResult c i 0x10000 1 false else setResult r c i 1 false) c).modStall i fun st => { st with job := none }
  else c

/-- E_AR of a row kind in µJ (05 Table 5.1). -/
def stallEar (k : Nat) : Nat := rating k [25000, 12000, 5000, 15000, 6000]

/-- The output falls below 10 % of the feed (05 R135): the pending turn-offs complete, deferred configuration is applied (03 R70), and
the turn-off, also that at the end of a PWM pulse, counts as wear (15 R341). -/
def stallOffComplete (r : Regs) (i clampUj : Nat) (c : Chip) : Chip :=
  let st := c.stall i
  if st.falling then
    let c := clampHeat clampUj (c.setStall i { st with
      falling := false, fast := false, wear := st.wear + wearUnits clampUj (stallEar (stallKind i)) })
    settleStall r i (finishOffs r i c)
  else c

/-- RESTART (06 R144): all restart conditions hold, and the next attempt starts. -/
def execRestart (u : Fin 64) (s : State) : Answer :=
  .next (s.onChip fun r c =>
    if (c.stall u.val).st == .wait && canStart r c u.val then
      stallEvent r u.val 9 Cls.state (startAttempt r u.val c)
    else c)

/-- CLEAN_RUN (06 R146): CLEAN seconds in ON without a trip. -/
def execCleanRun (u : Fin 64) (s : State) : Answer :=
  .next (s.onChip fun r c =>
    if (c.stall u.val).st == .on && bits (r.h (Reg.STALL_PROT u.val)) 23 16 != 0 then
      c.modStall u.val fun st => { st with att := 0, th := 0 }
    else c)

/-- ROW_PERIOD_WRAP (05 R120, R129, R130): pending duties and phases are in force for the pulses that start from now on, and a pulse
stretched by a ramp ends. -/
def execRowPeriodWrap (w : Fin 8) (s : State) : Answer :=
  .next (s.onChip fun _ c =>
    let c := c.modRow w.val fun x => { x with start := c.now }
    (List.range 8).foldl (fun c p => c.modStall (8 * w.val + p) fun st => { st with
      duty := st.dutyNew.getD st.duty, dutyNew := none, phase := st.phaseNew.getD st.phase, phaseNew := none
      out := st.out && !(st.rampHold && st.st == .on), rampHold := st.rampHold && !(st.st == .on) }) c)

/-- PWM_PULSE (05 R129, R130): a pulse starts, with which a due attempt rises and a new duty takes effect; or it ends, unless a ramp holds
the output on. -/
def execPwmPulse (u : Fin 64) (start : Bool) (s : State) : Answer :=
  .next (s.onChip fun r c =>
    let st := c.stall u.val
    if !(st.active && decide (0 < st.duty) && decide (st.duty < 0x10000)) then c
    else if start then
      let c := c.setStall u.val { st with
        out := true, falling := false, pulseDue := false, tOn := if st.pulseDue then c.now else st.tOn
        limNow := if st.pulseDue then limitAt r st u.val 0 else st.limNow }
      if st.dutyNew.isNone then pwmEffect r u.val c else c
    else if st.st == .ramp || st.rampHold then c
    else c.setStall u.val { st with out := false, falling := st.out || st.falling })

end Sys2Proof.Machine
end

