-- ==== Sys2Proof/Machine/Access.lean ====
section
/-!
DEFINITION. Sys2Proof/Machine/Access.lean: access functions, polls, ranging, grants, lock-out and enrolment (13).
-/

namespace Sys2Proof.Machine

-- Time, state of a function ----------------------------------------------------------------------------------------------

/-- Access seconds (13 R307): elapsed time less the time for which a debug halt froze them. -/
def accSec (c : Chip) : Nat :=
  (c.now - c.acc.frozen - (match c.acc.frozenAt with
    | some t => c.now - t
    | none => 0)) / 1000000000

/-- An access function. -/
def accFn (c : Chip) (f : Nat) : AccFn := UMap.get {} c.acc.fns f
/-- The chip with an access function changed. -/
def modFn (f : Nat) (g : AccFn → AccFn) (c : Chip) : Chip := { c with acc := { c.acc with fns := c.acc.fns.put f (g (accFn c f)) } }

/-- The set-up registers of a function as a poll or a frame takes them over (16 R359). -/
def accSet (r : Regs) (f : Nat) : AccSet := {
  cfg := r.c (Reg.ACC_CFG f), time := r.c (Reg.ACC_TIME f), tpc := r.c Reg.TPC_CFG, tack := r.c Reg.TACK_CFG
  anchor := (List.range 8).map fun a => (r.c (Reg.ANCHOR_ID a), r.c (Reg.ANCHOR_OFS a)) }

/-- KIND, RANGE_EN, LF_MASK, BOUND, GRANT_S and N_RANGE (16 Table 16.7). -/
def AccSet.kind (x : AccSet) : Nat := bits x.cfg 1 0
def AccSet.ranges (x : AccSet) : Bool := bit x.cfg 2
def AccSet.lfMask (x : AccSet) : Nat := bits x.cfg 7 4
def AccSet.bound (x : AccSet) : Nat := clampN 10 4000 (bits x.cfg 27 16)
def AccSet.grantS (x : AccSet) : Nat := max 1 (bits x.time 15 0)
def AccSet.nRange (x : AccSet) : Nat := clampN 2 7 (bits x.tack 6 4)

/-- ANCHOR_ID and OFFSET in cm of an anchor (16 Table 16.7). -/
def AccSet.anchorId (x : AccSet) (a : Nat) : Nat := (x.anchor.getD a (0, 0)).1
def AccSet.offset (x : AccSet) (a : Nat) : Int := toSigned 16 (bits (x.anchor.getD a (0, 0)).2 15 0)

/-- The anchors a function ranges with, in ascending order: the valid ones of its ANCHOR_MASK (13 R295, R302). -/
def AccSet.anchors (x : AccSet) : List Nat := (List.range 8).filter fun a => bit x.cfg (8 + a) && bit (x.anchorId a) 0

/-- KIND of a function in its registers. -/
def fnKind (r : Regs) (f : Nat) : Nat := (accSet r f).kind

/-- The payload of an access event of function `f`, in state `x` (13 R314): 255 names no function or no slot. -/
def accPay (x : AccFn) (f cause slot v : Nat) : Nat :=
  pay ([cause, f, slot] ++ two (v % 65536) ++ [if f = 255 then 0 else x.level % 8 + min 31 x.fails.length * 8])

/-- An access event (13 R314). -/
def accEvent (r : Regs) (f cause cls slot v : Nat) (c : Chip) : Chip := raise r 238 cls (accPay (accFn c f) f cause slot v) c

-- Tokens ---------------------------------------------------------------------------------------------------------------------

/-- A token slot is occupied. -/
def slotUsed (c : Chip) (s : Nat) : Bool := c.acc.used.testBit s
/-- A token. -/
def tokenAt (c : Chip) (s : Nat) : Token := UMap.get {} c.acc.tokens s
/-- The slot of an enrolled TID. -/
def slotOfTid (c : Chip) (tid : Nat) : Option Nat := (List.range 8).find? fun s => slotUsed c s && (tokenAt c s).tid == tid

/-- How a reply is judged (13 R299, R300). -/
inductive Verdict | valid (slot : Nat) | notPermitted | pending | invalid
  deriving DecidableEq, Repr

/-- The counter of a token whose MAC holds is judged by Table 13.3: what it leaves, and whether it is accepted, recorded or refused. -/
def judgeCounter (r : Regs) (slot cnt : Nat) (c : Chip) : Verdict × Chip :=
  let t := tokenAt c slot
  let a := c.acc
  let pends := a.pend.filter fun (p : PendRec) => !(p.tid == t.tid)
  let take : Chip := tackCommit r { c with acc := { a with tokens := a.tokens.put slot { t with ctr := cnt } } }
  if cnt ≤ t.ctr then (.invalid, c)
  else if cnt - t.ctr ≤ 256 then (.valid slot, take)
  else if cnt - t.ctr ≤ 32768 then
    match a.pend.find? fun (p : PendRec) => p.tid == t.tid with
    | some p =>
      if p.ctr < cnt ∧ cnt - p.ctr ≤ 16 ∧ accSec c ≤ p.sec + 60 then
        (.valid slot, { take with acc := { take.acc with pend := pends } })
      else (.pending, { c with acc := { a with pend := { tid := t.tid, ctr := cnt, sec := accSec c } :: pends } })
    | none => (.pending, { c with acc := { a with pend := { tid := t.tid, ctr := cnt, sec := accSec c } :: a.pend } })
  else (.invalid, c)

/-- A reply with a good CRC is classed for a function (13 R299): the MAC over `msg` under the token's key, then the counter. The counter of a
token that is not permitted is judged all the same; whatever comes of it, the reply is no failure (log entry 63). -/
def judgeReply (r : Regs) (f tid cnt mac : Nat) (msg : List Nat) (c : Chip) : Verdict × Chip :=
  match slotOfTid c tid with
  | none => (.invalid, c)
  | some s =>
    let t := tokenAt c s
    if aesCmac64 t.key msg ≠ mac then (.invalid, c)
    else if t.fnMask.testBit f then judgeCounter r s cnt c
    else (.notPermitted, (judgeCounter r s cnt c).2)

-- Distance -----------------------------------------------------------------------------------------------------------------------

/-- The distance in cm that an exchange gives, times in ps (13 R303). -/
def exchangeCm (ra rb da db : Nat) : Rat :=
  ((ra * rb : Nat) - (da * db : Nat) : Rat) / ((ra + rb + da + db : Nat) : Rat) * 299792458 / 10000000000

/-- A list in rising order. -/
def insertRat (x : Rat) : List Rat → List Rat
  | [] => [x]
  | y :: l => if x ≤ y then x :: y :: l else y :: insertRat x l

/-- The median of a list; of an even number the mean of the middle two (13 R303). -/
def median (l : List Rat) : Rat :=
  let s := l.foldl (fun a x => insertRat x a) []
  let n := s.length
  if n % 2 = 1 then s.getD (n / 2) 0 else (s.getD (n / 2 - 1) 0 + s.getD (n / 2) 0) / 2

/-- Every exchange of a token's ranging has been made, or its anchor is lost (13 R302, R304). -/
def rangedDone (x : AccSet) (t : Ranged) : Bool := x.anchors.all fun a => t.lost.contains a || decide (x.nRange ≤ t.tried.count a)

/-- The distance an anchor gives for a token, from two good exchanges on, less its OFFSET, at least 0 (13 R303). -/
def anchorCm (x : AccSet) (t : Ranged) (a : Nat) : Option Rat :=
  let l := (t.good.filter fun e => e.1 == a).map fun e => e.2
  if l.length < 2 ∨ t.lost.contains a then none
  else some (max 0 (median l - (x.offset a : Rat)))

/-- The lesser of two distances. -/
def nearCm (m : Option Rat) (d : Rat) : Option Rat :=
  match m with
  | some e => some (if d < e then d else e)
  | none => some d

/-- The distance of a token in cm: the least over its anchors; none while its ranging is unfinished (13 R303, R306). -/
def tokenCm (x : AccSet) (t : Ranged) : Option Rat :=
  if rangedDone x t then (x.anchors.filterMap (anchorCm x t)).foldl nearCm none else none

/-- A distance as the results and events report it: whole cm, rounded to the nearest (log entry 9). -/
def wholeCm (d : Rat) : Nat := (d + 1 / 2).floor.toNat

-- Grants and lock-out --------------------------------------------------------------------------------------------------------------

/-- A grant of function `f` naming a token, for `life` access seconds (13 R307); GRANT reports 0xFFFF where no distance was measured (log entry
63). -/
def grantFn (r : Regs) (f slot life dist : Nat) (c : Chip) : Chip :=
  let c := modFn f (fun x => { x with grant := some slot, grantEnd := accSec c + life, level := 0 }) (if (accFn c f).level = 0 then c else tackCommit r c)
  accEvent r f 1 Cls.security slot dist c

/-- Failures are entered in a function's window, each with its AUTH_FAILURE; five lock it out (13 R308). -/
def enterFails (r : Regs) (f n : Nat) (c : Chip) : Chip :=
  let c := (List.range n).foldl (fun c _ => accEvent r f 2 Cls.security 255 0 (modFn f (fun x => { x with fails := x.fails ++ [accSec c] }) c)) c
  let x := accFn c f
  if 5 ≤ x.fails.length then
    let len := 180 * 2 ^ x.level
    accEvent r f 3 Cls.security 255 len (tackCommit r <| modFn f (fun x => { x with
      locked := true, lockEnd := accSec c + len, lockLen := len, level := min 4 (x.level + 1), fails := [] }) c)
  else c

-- Polls ---------------------------------------------------------------------------------------------------------------------------------

/-- The antennas that send (13 R314). -/
def antennas (c : Chip) (mask : Nat) : Nat := flagBits ((List.range 4).map fun a => (a, mask.testBit a && !c.acc.lfBad.testBit a))

/-- The frames of Table 13.2 as numbers, MSB first, the CRC-8 over every field before it but the wake pattern (13 R296): an LF challenge of
112 bits, an LF search frame of 48 and a TPC downlink of 88. -/
def lfChallenge (vid f kind round nonce seed : Nat) : Nat :=
  let w := ((vid * 2 ^ 8 + (f * 32 + kind * 8 + round * 2)) * 2 ^ 48 + nonce) * 2 ^ 8 + seed
  (0xA5 * 2 ^ 96 + w) * 2 ^ 8 + crc8 96 w
def lfSearchFrame (vid : Nat) : Nat := (0xA5 * 2 ^ 32 + vid) * 2 ^ 8 + crc8 32 vid
def tpcDownlink (vid nonce : Nat) : Nat := (vid * 2 ^ 48 + nonce) * 2 ^ 8 + crc8 80 (vid * 2 ^ 48 + nonce)

/-- A fresh NONCE is drawn and the TPC downlink is sent (13 R297, R305). -/
def tpcSend (c : Chip) : Chip :=
  let (n, c) := c.fresh 48
  match c.acc.poll with
  | some p => ({ c with acc := { c.acc with poll := some { p with nonce := n, coil := true } } }).emit (.radio 2 0 88 (tpcDownlink c.acc.vid n))
  | none => c

/-- The function of an ACCESS_POLL in progress. -/
def pollFn (c : Chip) (id : Nat) : Option Nat :=
  match c.job id with
  | some j => match j.op with
    | .accessPoll _ u _ => some u.val
    | _ => none
  | none => none

/-- An ACCESS_POLL starts (13 R306): LOCKED_OUT at once, with DIST unmeasured, else the coil is powered, or the poll waits for its first round or an RKE
frame. -/
def startPoll (r : Regs) (id f : Nat) (c : Chip) : Chip :=
  if (accFn c f).locked then complete r id St.lockedOut 0xFFF0 c
  else
    let x := accSet r f
    let c := { c with acc := { c.acc with poll := some { job := id, fn := f, set := x }, lfBad := 0 } }
    if x.kind = 3 then tpcSend c else c

/-- The lowest free slot (13 R311). -/
def freeSlot (c : Chip) : Option Nat := (List.range 8).find? fun s => !slotUsed c s

/-- A field of an ENROL buffer (13 Table 13.5). -/
def bufField (buf : List Nat) (at_ n : Nat) : List Nat := (buf.drop at_).take n

/-- ENROL ADD is carried out (13 R311, R312). -/
def runEnrolAdd (r : Regs) (id : Nat) (buf : List Nat) (c : Chip) : Chip :=
  let a := c.acc
  let tid := leNat (bufField buf 0 4)
  if !a.prov || !(aesCmac64 a.kvMac (buf.take 32) == leNat (bufField buf 32 8).reverse) then complete r id St.authFail (a.count * 256) c
  else if (slotOfTid c tid).isSome then complete r id St.busy 0 c
  else match freeSlot c with
    | none => complete r id St.enrolOut (a.count * 256) c
    | some s =>
      if 64 ≤ a.count then complete r id St.enrolOut (a.count * 256) c
      else
        let t : Token := {
          tid := tid, fnMask := leNat (bufField buf 4 1), ctr := leNat (bufField buf 8 4), key := aesDecrypt a.kvEnc (bufField buf 16 16) }
        let c := { c with acc := { a with tokens := a.tokens.put s t, used := a.used ||| 2 ^ s, count := a.count + 1 } }
        complete r id St.ok (s + (a.count + 1) * 256) (accEvent r 255 0x10 Cls.security s 0 (tackCommit r c))

/-- ENROL PROVISION is carried out (13 R312). -/
def runProvision (r : Regs) (id : Nat) (buf : List Nat) (c : Chip) : Chip :=
  if c.acc.prov then complete r id St.busy 0 c
  else
    let c := { c with acc := { c.acc with
      prov := true, vid := leNat (bufField buf 0 4), kvEnc := bufField buf 4 16, kvMac := bufField buf 0x14 16, kl := bufField buf 0x24 16 } }
    complete r id St.ok (c.acc.count * 256) (tackCommit r c)

/-- REVOKE is carried out (13 R311): slots are freed, their grants end, their pending records are erased. -/
def runRevoke (r : Regs) (id slots : Nat) (c : Chip) : Chip :=
  let hit := (List.range 8).filter fun s => slots.testBit s && slotUsed c s
  let c := hit.foldl (fun c s =>
    let tid := (tokenAt c s).tid
    let c := { c with acc := { c.acc with
      tokens := c.acc.tokens.del s, used := c.acc.used - 2 ^ s, pend := c.acc.pend.filter fun (p : PendRec) => !(p.tid == tid) } }
    let c := (List.range 8).foldl (fun c f =>
      if (accFn c f).grant == some s then accEvent r f 7 Cls.state s 0 (modFn f (fun x => { x with grant := none }) c) else c) c
    accEvent r 255 0x11 Cls.security s 0 c) c
  complete r id St.ok (flagBits (hit.map fun s => (s, true))) (if hit.isEmpty then c else tackCommit r c)

/-- The waiting access descriptors are carried out one at a time, in dispatch order; none starts in a debug halt (13 R311; 03 R77). -/
def accNext (r : Regs) : Nat → Chip → Chip
  | 0, c => c
  | n + 1, c =>
    if c.acc.poll.isSome || c.sys.halted then c
    else match c.acc.queue with
      | [] => c
      | id :: rest =>
        let c := { c with acc := { c.acc with queue := rest } }
        let c := match c.job id with
          | none => c
          | some j => match j.op with
            | .accessPoll _ u _ => startPoll r id u.val c
            | .enrolAdd _ _ buf => runEnrolAdd r id buf c
            | .enrolProvision _ _ buf => runProvision r id buf c
            | .revoke _ slots => runRevoke r id slots.val c
            | _ => c
        accNext r n c

/-- A descriptor is added to those that are carried out one at a time. -/
def accQueue (r : Regs) (id : Nat) (c : Chip) : Chip :=
  accNext r (c.acc.queue.length + 1) { c with acc := { c.acc with queue := c.acc.queue ++ [id] } }

/-- The running poll ends with a status and a result; its failures are entered, and the next descriptor starts (13 R306, R308). -/
def closePoll (r : Regs) (p : Poll) (st res fails : Nat) (c : Chip) : Chip :=
  let c := complete r p.job st res { c with acc := { c.acc with poll := none } }
  let c := enterFails r p.fn fails c
  accNext r (c.acc.queue.length + 1) c

/-- RESULT of ACCESS_POLL (13 Table 13.6). -/
def pollResult (named : Option Nat) (dist : Option Rat) (fails : Nat) (p : Poll) (noRange : Bool) (valid : Nat) : Nat :=
  (match named with
    | some s => s + 8
    | none => 0) + min 0xFFF ((dist.map wholeCm).getD 0xFFF) * 16 + min 7 fails * 2 ^ 16 + p.rounds % 4 * 2 ^ 19 +
    flagBits [(21, p.resync), (22, noRange)] + valid % 16 * 2 ^ 24

/-- The nearer of two measured tokens. -/
def nearer (best : Option (Nat × Rat)) (x : Nat × Rat) : Option (Nat × Rat) :=
  match best with
  | some b => if x.2 < b.2 then some x else some b
  | none => some x

/-- What a GRANT reports as its distance. -/
def grantCm (d : Option Rat) : Nat := (d.map fun x => min 0xFFFF (wholeCm x)).getD 0xFFFF

/-- The running poll decides on what it has verified and measured (13 R303, R306, R308). Without ranging the first valid token is named (log
entry 63). -/
def decidePoll (r : Regs) (p : Poll) (c : Chip) : Chip :=
  let f := p.fn
  let x := p.set
  let stsBad := p.valid.filter fun (t : Ranged) => t.stsFail
  let good := p.valid.filter fun (t : Ranged) => !t.stsFail
  let meas := good.filterMap fun (t : Ranged) => (tokenCm x t).map fun d => (t.slot, d)
  let near := meas.filter fun e => decide (e.2 ≤ (x.bound : Rat))
  let far := meas.filter fun e => decide ((x.bound : Rat) < e.2)
  let ranged := x.ranges && decide (x.kind ≤ 2)
  let named : Option (Nat × Option Rat) :=
    if x.kind = 3 then p.within.map fun s => (s, none)
    else if ranged then (near.foldl nearer none).map fun e => (e.1, some e.2)
    else good.head?.map fun (t : Ranged) => (t.slot, none)
  let fails := p.fails + stsBad.length + (if ranged then far.length else 0)
  let valid := good.length + p.count
  let noRange := ranged && decide (meas.length < good.length)
  let nearest := (meas.foldl nearer none).map fun e => e.2
  match named with
  | some (s, d) =>
    let c := complete r p.job St.ok (pollResult (some s) d fails p noRange valid) { c with acc := { c.acc with poll := none } }
    let c := enterFails r f fails (grantFn r f s x.grantS (grantCm d) c)
    accNext r (c.acc.queue.length + 1) c
  | none => closePoll r p (if p.overBound || (ranged && !far.isEmpty) then St.distance else St.authFail)
      (pollResult none nearest fails p noRange valid) fails c

/-- The running poll ends early with a status and grants nothing (13 R308, R315). -/
def stopPoll (r : Regs) (st : Nat) (c : Chip) : Chip :=
  match c.acc.poll with
  | some p => closePoll r p st (pollResult none none p.fails p false (p.valid.length + p.count)) p.fails c
  | none => c

/-- Block ACCESS is disabled: its descriptors complete ABORTED_DISABLED in fetch order (13 R315, 04 R105). -/
def accDisable (r : Regs) (c : Chip) : Chip :=
  let ids := c.acc.queue
  let c := { c with acc := { c.acc with queue := [], rke := [] } }
  completeAll r ids St.aborted (stopPoll r St.aborted c)

/-- A supply of VBAT_AON too low for a function's front end (13 R313). -/
def accLow (c : Chip) (kind : Nat) : Bool := decide ((c.feed 4).mv < (if kind = 3 then 4500 else 6000))

/-- VBAT_AON falls below the limit of the running poll's kind: it ends AUTH_FAIL (13 Table 13.10). -/
def accSupply (r : Regs) (c : Chip) : Chip :=
  match c.acc.poll with
  | some p => if accLow c p.set.kind then stopPoll r St.authFail c else c
  | none => c

/-- Body of ACCESS_POLL (13 R306, R313). -/
def bodyAccessPoll (f : Nat) (id : Nat) (s : State) : State :=
  gated (fun r c => checks56 r c 0x1D f ++ [(accLow c (fnKind r f), St.supplyLow)]) (fun id s => s.onChip fun r c => accQueue r id c) id s

/-- What checks 1 to 4 see of ACCESS_POLL. -/
def descAccessPoll (u : Fin 8) : Desc :=
  { opc := 0x80, blk := 0x1D, unit := u.val }

/-- ACCESS_POLL (13 R306). -/
def execAccessPoll (h : Hdr) (u : Fin 8) (tmo : Fin 4096) (s : State) : Answer :=
  .next (runDesc (descAccessPoll u) h (.accessPoll h u tmo) (bodyAccessPoll u.val) s)

/-- Body of ENROL and REVOKE (13 R311). -/
def bodyEnrol (id : Nat) (s : State) : State :=
  gated (fun r c => checks56 r c 0x1D 0) (fun id s => s.onChip fun r c => accQueue r id c) id s

/-- The buffer of an ENROL ADD is well-formed: 40 bytes, reserved fields 0, a TID that may be enrolled (13 Table 13.5, R297). -/
def addValid (buf : List Nat) : Bool :=
  decide (buf.length = 40) && (bufField buf 5 3 == [0, 0, 0]) && (bufField buf 12 4 == [0, 0, 0, 0]) &&
    !(leNat (bufField buf 0 4) == 0) && !(leNat (bufField buf 0 4) == 0xFFFFFFFF)

/-- What checks 1 to 4 see of ENROL_ADD. -/
def descEnrolAdd (addr : Nat) (buf : List Nat) : Desc :=
  { opc := 0x81, blk := 0x1D, unit := 0, valid := decide (addr % 4 = 0), content := addValid buf, bufs := [(addr, 40, false)] }

/-- ENROL with OP = ADD (13 R312). -/
def execEnrolAdd (h : Hdr) (addr : Nat) (buf : List Nat) (s : State) : Answer :=
  .next (runDesc (descEnrolAdd addr buf)
    h (.enrolAdd h addr buf) bodyEnrol s)

/-- What checks 1 to 4 see of ENROL_PROVISION. -/
def descEnrolProvision (addr : Nat) (buf : List Nat) : Desc :=
  {
      opc := 0x81, blk := 0x1D, unit := 0, valid := decide (addr % 4 = 0), content := decide (buf.length = 52), bufs := [(addr, 52, false)] }

/-- ENROL with OP = PROVISION (13 R312). -/
def execEnrolProvision (h : Hdr) (addr : Nat) (buf : List Nat) (s : State) : Answer :=
  .next (runDesc (descEnrolProvision addr buf)
    h (.enrolProvision h addr buf) bodyEnrol s)

/-- What checks 1 to 4 see of REVOKE. -/
def descRevoke (slots : Fin 256) : Desc :=
  { opc := 0x82, blk := 0x1D, unit := 0, valid := !(slots.val == 0) }

/-- REVOKE (13 R311): SLOTS 0 fails check 1. -/
def execRevoke (h : Hdr) (slots : Fin 256) (s : State) : Answer :=
  .next (runDesc (descRevoke slots) h (.revoke h slots) bodyEnrol s)

-- Rounds, replies, ranging ---------------------------------------------------------------------------------------------------------------

/-- The running poll changed. -/
def modPoll (g : Poll → Poll) (c : Chip) : Chip := { c with acc := { c.acc with poll := c.acc.poll.map g } }

/-- LF_ROUND (13 R298, R314): the first round of a poll, or one after a collision, up to three; `bad` are antennas whose current failed in
this frame. ROUND counts from 1 (log entry 63). -/
def execLfRound (bad : Fin 16) (s : State) : Answer :=
  .next (s.onChip fun r c =>
    match c.acc.poll with
    | none => c
    | some p =>
      if 2 ≤ p.set.kind || !(p.rounds == 0 || (p.coll && decide (p.rounds < 3))) then c
      else
        let (n, c) := c.fresh 48
        let (sd, c) := c.fresh 8
        let ants := antennas c p.set.lfMask
        let c := modPoll (fun p => { p with rounds := p.rounds + 1, coll := false, nonce := n, seed := sd, roundT := c.mt.val }) c
        let c := c.emit (.radio 0 ants 112 (lfChallenge c.acc.vid p.fn p.set.kind (p.rounds + 1) n sd))
        if bad.val &&& ants = 0 then c
        else accEvent r p.fn 0x21 Cls.fault 255 0 { c with acc := { c.acc with lfBad := c.acc.lfBad ||| (bad.val &&& ants) } })

/-- The reply slot in which an end of frame falls: eight of 1 ms, from 0.3 ms after the challenge of 7.668 ms (13 R298). -/
def replySlot (p : Poll) (eof : Nat) : Option Nat :=
  let t0 := p.roundT + 7968000
  if t0 ≤ eof ∧ eof < t0 + 8000000 then some ((eof - t0) / 1000000) else none

/-- A remote anchor is sent the slots of a ranging, at least 1 ms ahead (13 R304): zone and index of the anchor, the first slot, the anchors
that take turns and this one's turn, the exchanges of each, and the CMAC under KL. The layout is the model's (log entry 63). -/
def scheduleAnchors (x : AccSet) (start : Nat) (c : Chip) : Chip :=
  (x.anchors.filter fun a => bit (x.anchorId a) 1).foldl (fun c a =>
    let body := [bits (x.anchorId a) 11 8, bits (x.anchorId a) 14 12] ++ beBytes 8 start ++ [x.anchors.length, x.anchors.idxOf a, x.nRange]
    c.emit (.net 18 0x88B5 (body ++ beBytes 8 (aesCmac64 c.acc.kl body)))) c

/-- The slot behind the last ranging slot of a token, in ms. -/
def rangeEnd (x : AccSet) (t : Ranged) : Nat := t.start + x.nRange * x.anchors.length

/-- The first ranging slot of a token verified now (13 R302): a whole millisecond of MTIME at least 1 ms on, behind those of the tokens verified
before it. -/
def rangeStart (c : Chip) : Nat :=
  let polls := match c.acc.poll with
    | some p => p.valid.map (rangeEnd p.set)
    | none => []
  let rkes := c.acc.rke.flatMap fun (k : RkeTok) => k.fns.map fun e => rangeEnd e.2 k.tok
  (polls ++ rkes).foldl max ((c.mt.val + 1000000 + 999999) / 1000000)

/-- A verified token that is ranged, with its STS key (13 R302, Table 13.4). An RKE frame has no NONCE: its key is made without one (log entry
63). -/
def newRanged (x : AccSet) (slot cnt : Nat) (nonce : List Nat) (c : Chip) : Ranged :=
  let t := tokenAt c slot
  { slot := slot, cnt := cnt, start := if x.ranges then rangeStart c else 0
    key := if x.ranges then aesCmac t.key ([0x53] ++ nonce ++ beBytes 4 t.tid ++ beBytes 4 cnt) else [] }

/-- A verdict enters the running poll (13 R299, R300): a valid token is ranged, an invalid one is a failure, a recorded one counts as no
token. -/
def pollVerdict (r : Regs) (f cnt : Nat) (v : Verdict) (c : Chip) : Chip :=
  match v, c.acc.poll with
  | .valid s, some p =>
    let t := newRanged p.set s cnt (beBytes 6 p.nonce) c
    let c := modPoll (fun p => { p with valid := p.valid ++ [t] }) c
    if p.set.ranges then scheduleAnchors p.set t.start c else c
  | .invalid, _ => modPoll (fun p => { p with fails := p.fails + 1 }) c
  | .pending, _ => accEvent r f 5 Cls.info 255 0 (modPoll (fun p => { p with resync := true }) c)
  | _, _ => c

/-- The CRC-16 of a token reply, an RKE frame and a TPC uplink (13 R296, Table 13.2). -/
def replyCrc (tid cnt slot round mac : Nat) : Nat := crc16 136 (((tid * 2 ^ 32 + cnt) * 2 ^ 8 + (slot * 32 + round * 8)) * 2 ^ 64 + mac % 2 ^ 64)
def rkeCrc (tid cnt cmd mac : Nat) : Nat := crc16 136 (((tid * 2 ^ 32 + cnt) * 2 ^ 8 + cmd) * 2 ^ 64 + mac % 2 ^ 64)
def coilCrc (tid cnt mac : Nat) : Nat := crc16 128 ((tid * 2 ^ 32 + cnt) * 2 ^ 64 + mac % 2 ^ 64)

/-- What the MAC of a token reply covers (13 R297). -/
def replyMsg (vid kind : Nat) (p : Poll) (tid cnt slot round : Nat) : List Nat :=
  beBytes 4 vid ++ [p.fn * 32 + kind * 8 + p.rounds * 2] ++ beBytes 6 p.nonce ++ beBytes 4 tid ++ beBytes 4 cnt ++ [slot * 32 + round * 8]
/-- What the MAC of a TPC uplink covers (13 R297). -/
def coilMsg (vid nonce tid cnt : Nat) : List Nat := beBytes 4 vid ++ beBytes 6 nonce ++ beBytes 4 tid ++ beBytes 4 cnt
/-- What the MAC of an RKE frame covers (13 R297). -/
def rkeMsg (vid tid cnt cmd : Nat) : List Nat := beBytes 4 vid ++ beBytes 4 tid ++ beBytes 4 cnt ++ [cmd]

/-- TOKEN_REPLY (13 R298, R299): a frame whose end falls in a reply slot and that fails its CRC is a collision; a TID is evaluated once in a
poll, at its first reply with a good CRC; SLOT, ROUND and timing must match the slot of the round. -/
def execTokenReply (eof : Nat) (crc : Fin 65536) (tid cnt : Fin 4294967296) (slot : Fin 8) (round : Fin 4) (mac : Nat) (s : State) : Answer :=
  .next (s.onChip fun r c =>
    match c.acc.poll with
    | none => c
    | some p =>
      if 2 ≤ p.set.kind || p.rounds == 0 then c
      else if !(replyCrc tid.val cnt.val slot.val round.val mac == crc.val) then
        if (replySlot p eof).isSome then modPoll (fun p => { p with coll := true }) c else c
      else if p.seen.contains tid.val then c
      else
        let c := modPoll (fun p => { p with seen := tid.val :: p.seen }) c
        if !(replySlot p eof == some slot.val) || !(round.val == p.rounds) then pollVerdict r p.fn cnt.val .invalid c
        else
          let (v, c) := judgeReply r p.fn tid.val cnt.val mac
            (replyMsg c.acc.vid p.set.kind p tid.val cnt.val slot.val round.val) c
          pollVerdict r p.fn cnt.val v c)

/-- TPC_UPLINK (13 R305): the uplink of the coil is judged, with a coupling in % of full loading; a CRC failure repeats the exchange, up to
three times. -/
def execTpcUplink (crc : Fin 65536) (tid cnt : Fin 4294967296) (mac : Nat) (coupling : Fin 256) (s : State) : Answer :=
  .next (s.onChip fun r c =>
    match c.acc.poll with
    | none => c
    | some p =>
      if !p.coil then c
      else
        let c := modPoll (fun p => { p with coil := false }) c
        if !(coilCrc tid.val cnt.val mac == crc.val) then
          if p.tries < 3 then tpcSend (modPoll (fun p => { p with tries := p.tries + 1 }) c) else c
        else
          let (v, c) := judgeReply r p.fn tid.val cnt.val mac (coilMsg c.acc.vid p.nonce tid.val cnt.val) c
          match v with
          | .valid s =>
            let c := modPoll (fun p => { p with count := p.count + 1 }) c
            if bits p.set.tpc 7 0 ≤ coupling.val then modPoll (fun p => { p with within := some s }) c
            else modPoll (fun p => { p with overBound := true, fails := p.fails + 1 }) c
          | v => pollVerdict r p.fn cnt.val v c)

/-- One exchange of anchor `a` enters a token's measurements (13 R302, R303): as many as N_RANGE for each anchor of the function; round-trip and
reply times in ps; `sts` holds when its STS and its report's MAC do. One that did not come about gives nothing. -/
def addExchange (a ra rb da db : Nat) (sts : Option Bool) (x : AccSet) (t : Ranged) : Ranged :=
  if !x.anchors.contains a || t.lost.contains a || decide (x.nRange ≤ t.tried.count a) then t
  else
    let t := { t with tried := a :: t.tried }
    match sts with
    | none => t
    | some true => { t with good := t.good ++ [(a, exchangeCm ra rb da db)] }
    | some false => { t with stsFail := true }

/-- A token being ranged is changed, in the running poll or of an RKE frame. -/
def modRanged (slot : Nat) (g : AccSet → Ranged → Ranged) (c : Chip) : Chip :=
  let c := modPoll (fun p => { p with valid := p.valid.map fun (t : Ranged) => if t.slot == slot then g p.set t else t }) c
  { c with acc := { c.acc with rke := c.acc.rke.map fun (k : RkeTok) =>
    match k.fns with
    | (_, x) :: _ => if k.tok.slot == slot then { k with tok := g x k.tok } else k
    | [] => k } }

/-- RANGING_EXCHANGE (13 R302, R303): an exchange of anchor `a` with the token in `slot`. -/
def execRangingExchange (slot a : Fin 8) (ra rb da db : Nat) (sts : Option Bool) (s : State) : Answer :=
  .next (s.onChip fun _ c => modRanged slot.val (addExchange a.val ra rb da db sts) c)

/-- ANCHOR_LOST (13 R304): a remote anchor gives no distance for the token. -/
def execAnchorLost (slot a : Fin 8) (s : State) : Answer :=
  .next (s.onChip fun r c =>
    let busy := (match c.acc.poll with
      | some p => p.valid.any fun (t : Ranged) => t.slot == slot.val
      | none => false) || c.acc.rke.any fun (x : RkeTok) => x.tok.slot == slot.val
    if busy && bit (r.c (Reg.ANCHOR_ID a.val)) 1 then
      accEvent r (match c.acc.poll with
        | some p => p.fn
        | none => 255) 0x20 Cls.warning slot.val 0 (modRanged slot.val (fun _ t => { t with lost := a.val :: t.lost }) c)
    else c)

-- RKE -----------------------------------------------------------------------------------------------------------------------------------

/-- A function of kind RKE accepts a frame (13 R309): it grants and reports CMD, and a poll that waits completes with the outcome. CMD
stands in byte 3 of RKE_ACCEPTED (log entry 36). -/
def rkeAccept (r : Regs) (cmd slot : Nat) (dist : Option Rat) (c : Chip) (e : Nat × AccSet) : Chip :=
  let f := e.1
  let c := match c.acc.poll with
    | some p => if p.fn = f then
        complete r p.job St.ok (pollResult (some slot) dist 0 p false 1) { c with acc := { c.acc with poll := none } } else c
    | none => c
  let c := accEvent r f 6 Cls.security slot cmd (grantFn r f slot e.2.grantS (grantCm dist) c)
  accNext r (c.acc.queue.length + 1) c

/-- A function of kind RKE refuses a frame with a status; `fails` failures are entered (13 R308, R309). -/
def rkeRefuse (r : Regs) (st fails : Nat) (dist : Option Rat) (resync noRange : Bool) (c : Chip) (f : Nat) : Chip :=
  match c.acc.poll with
  | some p =>
    if p.fn = f then
      let p := { p with resync := p.resync || resync }
      closePoll r p st (pollResult none dist fails p noRange (if dist.isSome || noRange then 1 else 0)) fails c
    else enterFails r f fails c
  | none => enterFails r f fails c

/-- RKE_FRAME (13 R309): judged for every RKE function that is not locked out and that the token's FN_MASK names; not in debug halt, where the
cores stand still (03 R76). -/
def execRkeFrame (crc : Fin 65536) (tid cnt : Fin 4294967296) (cmd : Fin 256) (mac : Nat) (s : State) : Answer :=
  .next (s.onChip fun r c =>
    if !(rkeCrc tid.val cnt.val cmd.val mac == crc.val) || !(c.fwRuns && domBit r c 4) || c.sys.halted then c
    else match slotOfTid c tid.val with
      | none => c
      | some sl =>
        let t := tokenAt c sl
        let fns := (List.range 8).filter fun f => fnKind r f == 2 && t.fnMask.testBit f && !(accFn c f).locked
        if fns.isEmpty then c
        else
          let (v, c) := judgeReply r (fns.headD 0) tid.val cnt.val mac (rkeMsg c.acc.vid tid.val cnt.val cmd.val) c
          match v with
          | .valid sl =>
            let sets := fns.map fun f => (f, accSet r f)
            let ranged := sets.filter fun e => e.2.ranges
            let c := (sets.filter fun e => !e.2.ranges).foldl (rkeAccept r cmd.val sl none) c
            match ranged with
            | [] => c
            | e :: _ =>
              let k := newRanged e.2 sl cnt.val [] c
              let c := scheduleAnchors e.2 k.start c
              { c with acc := { c.acc with rke := c.acc.rke ++ [{ cmd := cmd.val, tok := k, fns := ranged }] } }
          | .pending => fns.foldl (fun c f => rkeRefuse r St.authFail 0 none true false (accEvent r f 5 Cls.info 255 0 c) f) c
          | .invalid => fns.foldl (rkeRefuse r St.authFail 1 none false false) c
          | .notPermitted => c)

/-- The ranging of an RKE frame's token ends, and its functions decide (13 R303, R309). -/
def decideRke (r : Regs) (k : RkeTok) (c : Chip) : Chip :=
  k.fns.foldl (fun c e =>
    if k.tok.stsFail then rkeRefuse r St.authFail 1 none false false c e.1
    else match tokenCm e.2 k.tok with
      | none => rkeRefuse r St.authFail 0 none false true c e.1
      | some d =>
        if d ≤ (e.2.bound : Rat) then rkeAccept r k.cmd k.tok.slot (some d) c e
        else rkeRefuse r St.distance 1 (some d) false false c e.1) c

/-- POLL_END (13 R306): the running poll's rounds and rangings are over, or its timeout has come; with `rke`, the ranging of the oldest RKE
frame is over (R309). -/
def execPollEnd (rke : Bool) (s : State) : Answer :=
  .next (s.onChip fun r c =>
    if rke then
      match c.acc.rke with
      | x :: rest => decideRke r x { c with acc := { c.acc with rke := rest } }
      | [] => c
    else match c.acc.poll with
      | some p => decidePoll r p c
      | none => c)

/-- LOCKOUT_END (13 R308): the access second at which the lock-out ends has come. -/
def execLockoutEnd (f : Fin 8) (s : State) : Answer :=
  .next (s.onChip fun r c =>
    let x := accFn c f.val
    if x.locked && !c.sys.halted && decide (x.lockEnd ≤ accSec c) then
      accEvent r f.val 4 Cls.state 255 0 (tackCommit r (modFn f.val (fun x => { x with locked := false }) c))
    else c)

/-- GRANT_END (13 R307): the access second at which the grant ends has come; a later grant has put it off. -/
def execGrantEnd (f : Fin 8) (s : State) : Answer :=
  .next (s.onChip fun r c =>
    match (accFn c f.val).grant with
    | some sl =>
      if c.sys.halted || decide (accSec c < (accFn c f.val).grantEnd) then c
      else accEvent r f.val 7 Cls.state sl 0 (modFn f.val (fun x => { x with grant := none }) c)
    | none => c)

/-- FAILURE_WINDOW_AGE (13 R308): the failures that are 60 access seconds old leave the window. -/
def execFailureWindowAge (f : Fin 8) (s : State) : Answer :=
  .next (s.onChip fun _ c =>
    if c.sys.halted then c else modFn f.val (fun x => { x with fails := x.fails.filter fun t => decide (accSec c < t + 60) }) c)

/-- LF_SEARCH (13 R310): in WATCH, WNA sends a search frame; `bad` as in LF_ROUND. -/
def execLfSearch (bad : Fin 16) (s : State) : Answer :=
  .next (s.onChip fun r c =>
    if c.sys.power == .watch && c.sys.aon then
      let ants := antennas c (bits (r.c Reg.TACK_CFG) 11 8)
      ({ c with acc := { c.acc with lfSearchT := some c.mt.val, lfBad := c.acc.lfBad ||| (bad.val &&& ants) } }).emit (.radio 1 ants 48 (lfSearchFrame c.acc.vid))
    else c)

/-- TOKEN_WAKE (13 R310): the UHF receiver interrupts within 10 ms of a search frame. -/
def execTokenWake (s : State) : Answer :=
  .next (s.onChip fun r c =>
    match c.acc.lfSearchT with
    | some t => if c.sys.power == .watch && decide (c.mt.val ≤ t + 10000000) then wakeNow r 238 (pay [0x30, 255, 255]) c else c
    | none => c)

-- Reset and status ------------------------------------------------------------------------------------------------------------------------

/-- A CTL reset loses grants, pending records, the running poll and what waits; S, lock-out and enrolment are kept (13 R301, R307, R315). -/
def accReset (c : Chip) : Chip :=
  { c with acc := { c.acc with
    fns := c.acc.fns.map fun e => (e.1, { e.2 with grant := none }), pend := [], poll := none, queue := [], rke := [], frozenAt := none
    frozen := c.acc.frozen + (match c.acc.frozenAt with
      | some t => c.now - t
      | none => 0) } }

/-- After an AON power-on a running lock-out restarts with its full length; the failure window, which no commit has written, is empty (13 R301,
R308; log entry 63). -/
def accPowerOn (c : Chip) : Chip :=
  { c with acc := { c.acc with fns := c.acc.fns.map fun e => (e.1, { e.2 with lockEnd := accSec c + e.2.lockLen, fails := [] }), lfSearchT := none } }

/-- ACC_STATUS (16 Table 16.7). -/
def accStatus (c : Chip) (f : Nat) : Nat :=
  let x := accFn c f
  flagBits [(0, x.grant.isSome), (1, x.locked)] + x.level % 8 * 4 + min 7 x.fails.length * 32 +
    (if x.locked then min 65535 (x.lockEnd - accSec c) else 0) * 2 ^ 16

/-- TACK_STATUS (16 Table 16.7). -/
def tackStatus (c : Chip) : Nat := b2n c.acc.prov + c.acc.count % 128 * 2 ^ 8 + c.acc.used % 256 * 2 ^ 16

end Sys2Proof.Machine
end

