-- ==== Sys2Proof/Machine/Bridle.lean ====
section
/-!
DEFINITION. Sys2Proof/Machine/Bridle.lean: the Bridle loops: arithmetic, profile generator, samples, plausibility, anti-pinch, and the
loop commands (08).
-/

namespace Sys2Proof.Machine

-- Registers in force ----------------------------------------------------------------------------------------------------

/-- A register of a loop as in force: taken over at the last start from IDLE (08 R205). -/
def lv (r : Regs) (off : Nat) : Nat := r.h (liveKey off)

/-- The words of a loop's page that a start takes over, by offset; those of the halter are LOOP_LIM, BRIDGE_CFG and LOOP_POLICY (03 Table
3.12). -/
def loopWords : List Nat := [0x00, 0x04, 0x08, 0x0C, 0x10, 0x14, 0x18, 0x20, 0x24, 0x28, 0x2C, 0x30, 0x34, 0x38, 0x3C, 0x40, 0x44, 0x48, 0x4C, 0x50]

/-- A loop takes its set-up registers over (08 R205). -/
def latchLoop (n : Nat) (s : State) : State :=
  let copy (f : RegFile) (k : Nat) : RegFile :=
    let off := Reg.LOOP_CFG n + k
    f.wr (liveKey off) (if k = 0x04 ∨ k = 0x08 ∨ k = 0x0C then s.regs.h off else s.regs.c off)
  { s with regs := { s.regs with halt := loopWords.foldl copy s.regs.halt } }

/-- Fields of the registers in force (08 Table 8.12). POS_SRC: QUAD with ENC 11 acts as NONE. -/
def posSrc (r : Regs) (n : Nat) : Nat :=
  let w := lv r (Reg.LOOP_CFG n)
  if bits w 1 0 = 1 ∧ bits w 7 4 = 11 then 0 else bits w 1 0
/-- ILIM in mA. -/
def loopIlim (w n : Nat) : Nat := 100 * clampN 1 (if n < 6 then 400 else 30) (bits w 9 0)
/-- POS_MIN and POS_MAX. -/
def posMin (r : Regs) (n : Nat) : Int := toSigned 32 (lv r (Reg.POS_MIN n))
def posMax (r : Regs) (n : Nat) : Int := toSigned 32 (lv r (Reg.POS_MAX n))
/-- PROF_VMAX, PROF_AMAX and PROF_JMAX; 0 acts as 1. -/
def profV (r : Regs) (n : Nat) : Nat := max 1 (bits (lv r (Reg.PROF_VMAX n)) 23 0)
def profA (r : Regs) (n : Nat) : Nat := max 1 (lv r (Reg.PROF_AMAX n))
def profJ (r : Regs) (n : Nat) : Nat := max 1 (lv r (Reg.PROF_JMAX n))
/-- FPWM in kHz: 5 to 50, above 25 acting as 25 on MB6 to MB9 (08 Tables 8.1, 8.12). -/
def loopFpwm (r : Regs) (n : Nat) : Nat := clampN 5 (if n < 6 then 50 else 25) (bits (lv r (Reg.BRIDGE_CFG n)) 5 0)
/-- TS_NOM in ns: 10 to 1,000 µs (08 Table 8.12). -/
def tsNom (r : Regs) (n : Nat) : Nat := 1000 * clampN 10 1000 (bits (lv r (Reg.LOOP_CFG n)) 31 16)
/-- The closing direction: +1 when DIR = 0 (08 R199). -/
def closeSign (r : Regs) (n : Nat) : Int := if bit (lv r (Reg.PINCH_CFG n)) 1 then -1 else 1
/-- Anti-pinch is enabled (08 R199, Table 8.12). -/
def pinchOn (r : Regs) (n : Nat) : Bool := bit (lv r (Reg.PINCH_CFG n)) 0 && decide (posMin r n < posMax r n)

/-- The code of a loop state (08 Table 8.2). -/
def LState.code : LState → Nat
  | .idle => 0 | .moving => 1 | .regulating => 2 | .held => 3 | .braking => 4 | .fault => 5 | .learning => 6

/-- ILIM_ACTIVE is set: from the sample that reported it to the end of the PWM period (08 R184; log entry 57). -/
def ilimSet (r : Regs) (c : Chip) (n : Nat) : Bool :=
  (c.loop n).ilimAct && decide (c.now < (c.loop n).ilimT + 1000000 / loopFpwm r n)

/-- The bridge is driven and the loop takes samples (08 R186). -/
def Loop.running (l : Loop) : Bool :=
  match l.st with
  | .moving | .regulating | .held | .learning => true
  | _ => false

/-- The loop has work: it runs, or the brake of a pinch has its reverse to come (08 R199). -/
def Loop.working (l : Loop) : Bool := l.running || (l.st == .braking && l.brakeShort && l.pinched)

/-- The velocity of a motor outside a sample in counts/s (08 R191, R196; log entry 57): the reciprocal of the interval of its last two
edges, or of the time since the last one where that is longer. -/
def Loop.speedNow (now : Nat) (l : Loop) : Int :=
  if l.edge = 0 then 0 else (if l.edge < 0 then -1 else 1) * (1000000000 / (max l.edge.natAbs (now - l.edgeT) : Nat) : Nat)

-- Q16.16 ----------------------------------------------------------------------------------------------------------------

/-- A result saturated to Q16.16, and whether it saturated (08 R188). -/
def satQ (x : Int) : Int × Bool :=
  let y := clampI (-2147483648) 2147483647 x
  (y, decide (y ≠ x))

/-- A product (08 R188). -/
def mulQ (a b : Int) : Int × Bool := satQ ((a * b + 0x8000) / 65536)

/-- A quotient, toward zero; division by 0 saturates (08 R188; log entry 9). -/
def divQ (a b : Int) : Int × Bool :=
  if b = 0 then satQ (if a < 0 then -(2 : Int) ^ 62 else if a = 0 then 0 else (2 : Int) ^ 62) else satQ (Int.tdiv (a * 65536) b)

/-- The sign of a number. -/
def sgn (x : Int) : Int := if x < 0 then -1 else if x = 0 then 0 else 1

/-- The greatest x below 2^n with x^k ≤ m. -/
def rootDown (k m : Nat) : Nat → Nat → Nat
  | 0, x => x
  | n + 1, x => if (x + 2 ^ n) ^ k ≤ m then rootDown k m n (x + 2 ^ n) else rootDown k m n x

-- Profile ---------------------------------------------------------------------------------------------------------------

/-- v_allow of a distance, both with 16 fractional bits, rounded down (08 R191; log entry 9). -/
def vAllow (a j d : Nat) : Nat :=
  if d * j ^ 2 < a ^ 3 * 65536 then rootDown 3 (j * d ^ 2 * 65536) 100 0
  else rootDown 2 (a ^ 4 * 2 ^ 32 / (4 * j ^ 2) + 2 * a * d * 65536) 100 0 - a ^ 2 * 65536 / (2 * j)

/-- The velocity the profile aims at, with 16 fractional bits (08 R191): 0 while a STOP RAMP decelerates (Table 8.7). -/
def vStar (r : Regs) (n : Nat) (l : Loop) : Int :=
  if l.stopping then 0
  else if l.mode = 0 then
    let dist := l.target * 65536 - l.p
    sgn dist * (min (l.vmax * 65536) (vAllow (profA r n) (profJ r n) dist.natAbs) : Nat)
  else clampI (-((l.vmax * 65536 : Nat) : Int)) ((l.vmax * 65536 : Nat) : Int) (l.target * 65536)

/-- One step of the profile generator over `ts` ns (08 R191). -/
def profileStep (r : Regs) (n ts : Nat) (l : Loop) : Loop :=
  let ja : Int := (profJ r n * 65536 : Nat)
  let aa : Int := (profA r n * 65536 : Nat)
  let t : Int := ts
  let dv := vStar r n l - l.v - Int.tdiv (l.a * l.a.natAbs) (2 * ja)
  let jr : Int :=
    if (dv.natAbs : Int) * 10 ^ 18 ≤ ja * t * t then clampI (-ja) ja (Int.tdiv (-(l.a * 1000000000)) t)
    else if 0 < dv ∧ l.a < aa then ja
    else if dv < 0 ∧ -aa < l.a then -ja
    else 0
  let p := l.p + Int.tdiv (l.v * t * (6 * 10 ^ 18) + l.a * t * t * (3 * 10 ^ 9) + jr * t * t * t) (6 * 10 ^ 27)
  let v := l.v + Int.tdiv (l.a * t * (2 * 10 ^ 9) + jr * t * t) (2 * 10 ^ 18)
  let a := clampI (-aa) aa (l.a + Int.tdiv (jr * t) (10 ^ 9))
  let goal := l.target * 65536
  let near := (goal - p).natAbs * 10 ^ 9 ≤ v.natAbs * ts ∧ v.natAbs * 10 ^ 9 ≤ profA r n * 65536 * ts
  if l.mode = 0 ∧ !l.stopping ∧ near then { l with p := goal, v := 0, a := 0, profDone := true }
  else { l with p := p, v := v, a := a }

/-- The profile's velocity has reached `goal` (08 R199, R202; log entry 9): within J·ts². -/
def vReached (r : Regs) (n ts : Nat) (l : Loop) (goal : Int) : Bool :=
  decide ((goal - l.v).natAbs * 10 ^ 18 ≤ profJ r n * 65536 * ts * ts)

-- Events and results ----------------------------------------------------------------------------------------------------

/-- The payload of a Bridle event (08 R203). -/
def loopPay (l : Loop) (cause : Nat) : Nat := pay ([cause, l.st.code + b2n l.posUnc * 8] ++ four (ofSigned 32 l.pos))

/-- CTL raises a Bridle event. -/
def loopEvent (r : Regs) (n cause cls : Nat) (c : Chip) : Chip := raise r (80 + n) cls (loopPay (c.loop n) cause) c

/-- The halter raises a Bridle event. -/
def bridgeEvent (n cause cls : Nat) (c : Chip) : Chip := yardEvent (80 + n) cls (loopPay (c.loop n) cause) c

/-- POS_UNCERTAIN sets; its first setting raises its cause (08 R197, Table 8.10). -/
def setUncertain (r : Regs) (n : Nat) (c : Chip) : Chip :=
  if (c.loop n).posUnc then c else loopEvent r n 0x0A Cls.warning (c.modLoop n fun l => { l with posUnc := true })

/-- RESULT of MOVE (08 Table 8.6). -/
def moveResult (l : Loop) (stopped superseded endStop : Bool) : Nat :=
  ofSigned 16 (clampI (-32768) 32767 (l.moveTgt - l.pos)) + l.sat % 64 * 65536 +
    flagBits [(22, stopped), (23, superseded), (24, endStop), (25, l.pinched), (26, l.posUnc)]

/-- The bin of a position (08 R199). -/
def posBin (r : Regs) (n : Nat) (pos : Int) : Nat :=
  (clampI 0 255 ((pos - posMin r n) * 256 / (posMax r n - posMin r n))).toNat

/-- An element of a table of 256. -/
def binAt (l : List Nat) (b : Nat) : Nat := l.getD b 0

/-- A closing MOVE has ended: every visited bin of the table adapts (08 R200). -/
def adaptTable (r : Regs) (n : Nat) (c : Chip) : Chip :=
  c.modLoop n fun l =>
    if l.closing && !l.pinched && !l.posUnc && l.tabValid then
      let w := lv r (Reg.PINCH_TH n)
      let sh := clampN 1 8 (bits w 23 16)
      { l with tabRef := l.binSum.foldl (fun t e =>
          let b := e.1
          let mean : Int := e.2.1 / ((10 * max 1 e.2.2.2 : Nat) : Int)
          let last : Int := binAt l.tabLearn b
          if last * (bits w 31 24 : Nat) < 100 * ((mean - last).natAbs : Int) then t
          else t.modify b fun x => ((x : Int) + (mean - x) / ((2 ^ sh : Nat) : Int)).toNat) l.tabRef }
    else l

/-- RESULT of the pending MOVE or LEARN of a loop (08 Tables 8.6, 8.9). -/
def workResult (l : Loop) (stopped superseded endStop : Bool) : Nat :=
  if l.st = .learning ∨ l.learnPh ≠ 0 then l.binSum.length % 256 + b2n stopped * 2 ^ 22 else moveResult l stopped superseded endStop

/-- The pending MOVE or LEARN of a loop completes (08 R202). -/
def moveDone (r : Regs) (n st : Nat) (stopped superseded endStop : Bool) (c : Chip) : Chip :=
  let l := c.loop n
  match l.job with
  | none => c
  | some id =>
    let c := if l.st = .learning then c else adaptTable r n c
    complete r id st (workResult l stopped superseded endStop) (c.modLoop n fun l => { l with job := none, binSum := [], learnPh := 0 })

-- Coefficients ----------------------------------------------------------------------------------------------------------

/-- A coefficient value clamped to its range (08 Table 8.4). -/
def coefClamp (i : Nat) (v : Int) : Int := if i = 3 then clampI 0 65536 v else if i = 6 ∨ i = 7 then clampI 0 (60 * 65536) v else v

/-- A coefficient in use (08 Table 8.4). -/
def coefOf (l : Loop) (i : Nat) : Int := toSigned 32 (UMap.get (if i = 3 then 65536 else if i = 7 then 12 * 65536 else 0) l.coefs i)

/-- A pair takes effect. -/
def applyPairCoef (i v : Nat) (l : Loop) : Loop := { l with coefs := l.coefs.put i (ofSigned 32 (coefClamp i (toSigned 32 v))) }

/-- The status of a COEF_WRITE: OK_CLAMPED where a value was outside its range (08 R193). -/
def coefStatus (pairs : List (Nat × Nat)) : Nat :=
  if pairs.all fun p => coefClamp p.1 (toSigned 32 p.2) == toSigned 32 p.2 then St.ok else St.okClamped

/-- The pairs of a COEF_WRITE in progress. -/
def jobPairs (c : Chip) (id : Nat) : List (Nat × Nat) :=
  match c.job id with
  | some j => (match j.op with
    | .coefWrite _ _ _ pairs => pairs.map fun p => (p.1.val, p.2.val)
    | _ => [])
  | none => []

/-- One queued pair is applied at the start of a sample; with its last pair a COEF_WRITE completes (08 R193). -/
def coefApplyOne (r : Regs) (n : Nat) (c : Chip) : Chip :=
  let l := c.loop n
  match l.coefQ with
  | [] => c.setLoop n { l with coefIdx := none }
  | (i, v, id) :: rest =>
    let first := if l.coefCur = some id then l.coefFirst else l.seq % 65536
    let l := applyPairCoef i v { l with coefQ := rest, coefCur := some id, coefFirst := first, coefIdx := some i }
    let c := c.setLoop n l
    if rest.any fun q => q.2.2 == id then c else complete r id (coefStatus (jobPairs c id)) (first + l.seq % 65536 * 65536) c

/-- A loop stops taking samples: the queued pairs are applied at once, LAST reads 0 (08 R193). -/
def coefDrain (r : Regs) (n : Nat) (c : Chip) : Chip :=
  let l := c.loop n
  let ids := (l.coefQ.map fun q => q.2.2).eraseDups
  let c := c.setLoop n (l.coefQ.foldl (fun l q => applyPairCoef q.1 q.2.1 l) { l with coefQ := [], coefIdx := none })
  ids.foldl (fun c id => complete r id (coefStatus (jobPairs c id)) (if l.coefCur = some id then l.coefFirst else 0) c) c

-- State changes ---------------------------------------------------------------------------------------------------------

/-- The loop brakes: 20 ms for a pinch, else 200 ms (08 R185, R199). A duty already on its way to the bridge is overtaken by the brake, but
its delay is measured (R187). -/
def brakeLoop (r : Regs) (n : Nat) (short : Bool) (c : Chip) : Chip :=
  coefDrain r n (c.modLoop n fun l => { l with
    st := .braking, brakeShort := short, sample := l.sent, ilimAct := false, limRaised := false, stopping := false, cruise := false, dutyOut := 0, badRun := 0, pinchRun := 0 })

/-- The loop becomes IDLE, its bridge coasts, and what waited for that completes: a MOVE or LEARN with STOPPED, every STOP (08 R202). -/
def idleLoop (r : Regs) (n : Nat) (c : Chip) : Chip :=
  let l := c.loop n
  let c := moveDone r n St.ok (!l.stopJobs.isEmpty) false false c
  let c := c.modLoop n fun l => { l with
    st := .idle, sample := l.sent, ilimAct := false, limRaised := false, stopping := false, cruise := false, dutyOut := 0, pinched := false, reversing := false
    brakeShort := false, stopJobs := [], runOn := 0 }
  coefDrain r n (l.stopJobs.foldl (fun c j => complete r j.1 St.ok j.2 c) c)

/-- The loop's work ends with a status and the bridge brakes for 200 ms; a brake in progress, also that of a pinch, runs to its own end
(08 R201, Table 8.13). -/
def endLoop (r : Regs) (n status : Nat) (c : Chip) : Chip :=
  let run := (c.loop n).running
  if (c.loop n).working then
    let c := moveDone r n status false false false (c.modLoop n fun l => { l with pinched := false, reversing := false })
    if run then brakeLoop r n false c else c
  else c

/-- Queued coefficient pairs are discarded and every pending descriptor of the loop completes ABORTED_DISABLED (08 R201). -/
def disableLoop (r : Regs) (n : Nat) (c : Chip) : Chip :=
  let run := (c.loop n).running
  let c := c.modLoop n fun l => { l with coefQ := [], job := none, stopJobs := [], pinched := false, reversing := false }
  let c := completeAll r (jobsOf c 0x14 (· == n)) St.aborted c
  if run then brakeLoop r n false c else c

/-- The loop's SAFE action (08 R201, 04 R103): its dispatched descriptors complete ABORTED_DISABLED, and it brakes. The reverse of a pinch is
given up, and no pair still queued is applied (log entry 57). -/
def safeLoop (r : Regs) (n : Nat) (c : Chip) : Chip :=
  if (c.loop n).running then
    let ids := (c.jobs.filter fun j => j.blk == 0x14 && j.unit == n && !j.waiting).map fun j => j.id
    let c := c.modLoop n fun l => { l with coefQ := [], job := none, stopJobs := [], pinched := false, reversing := false }
    loopEvent r n 0x22 Cls.state (brakeLoop r n false (completeAll r ids St.aborted c))
  else endLoop r n St.aborted c

/-- The loop is headed for FAULT: its work completes LATCHED, and it brakes for 200 ms first (08 R195). -/
def faultLoop (r : Regs) (n cause : Nat) (c : Chip) : Chip :=
  let c := moveDone r n St.latched false false false (c.modLoop n fun l => { l with pinched := false, reversing := false })
  let c := brakeLoop r n false (c.modLoop n fun l => { l with toFault := true, fault := cause })
  loopEvent r n cause Cls.latched c

-- Commands --------------------------------------------------------------------------------------------------------------

/-- TARGET is valid for its MODE (08 Table 8.6). -/
def targetValid (mode : Nat) (t : Int) : Bool :=
  if mode = 0 then decide (-2147483648 ≤ t) && decide (t ≤ 2147483647)
  else if mode = 1 then decide (t.natAbs ≤ 16000000) else decide (t.natAbs ≤ 65536)

/-- A MOVE moves in the closing direction (08 R199). -/
def closes (r : Regs) (l : Loop) (n mode : Nat) (t : Int) : Bool :=
  decide (0 < closeSign r n * (if mode = 0 then t - l.pos else t))

/-- The reservation of a MOVE in mA and mW (02 Table 2.14). -/
def moveDemand (r : Regs) (c : Chip) (n : Nat) : Nat × Nat :=
  let ma := loopIlim (r.h (Reg.LOOP_LIM n)) n
  (ma, if n < 6 then 400 else lossMw ma (rdsNow c (80 + n) (Config.junction (80 + n) c.now)))

/-- The loop starts afresh: only then is a MOVE checked by the budget manager (08 R192). -/
def Loop.fromRest (l : Loop) : Bool := l.st == .idle || l.st == .braking

/-- Checks 5 to 8 of a MOVE (08 R192, R202). -/
def moveChecks (n mode : Nat) (target : Int) (r : Regs) (c : Chip) : List (Bool × Nat) :=
  let l := c.loop n
  let d := moveDemand r c n
  checks56 r c 0x14 n ++ (if l.fromRest then check7 r c (80 + n) d.1 d.2 else checkSupply r c (80 + n)) ++
    [(l.st == .fault || l.toFault, St.latched), (l.st == .held || l.st == .learning, St.busy),
     (closes r l n mode target && pinchOn r n && !l.tabValid, St.busy),
     (decide (mode ≠ 2) && posSrc r n == 0, St.disabled)]

/-- A loop starts from rest (08 R191, R196): the profile from its position and measured velocity, the counts and times of the samples from
now. A duty still on its way is forgotten. -/
def startRun (c : Chip) (l : Loop) : Loop :=
  { l with
    p := l.pos * 65536, v := l.speedNow c.now * 65536, a := 0, iAcc := 0, d := 0, tPrev := c.mt.val, cntP := l.cnt, missT := c.mt.val, missK := 0
    badRun := 0, sample := false, sent := false }

/-- A MOVE starts, or re-plans a running loop (08 R191, R192). -/
def startMove (n mode endAct : Nat) (ref : Bool) (target : Int) (vmax tol settle id : Nat) (r : Regs) (c : Chip) : Chip :=
  let l := c.loop n
  let rest := l.fromRest
  let d := moveDemand r c n
  let c := moveDone r n St.ok false true false c
  let c := if rest then reserve 2 d.1 d.2 c else c
  c.modLoop n fun l =>
    let l := { l with
      st := .moving, mode := mode, endAct := endAct, ref := ref, target := target, moveTgt := target, vmax := if vmax = 0 then profV r n else vmax
      tol := if tol = 0 then 2 else tol, settle := if settle = 0 then 10 else settle, settled := 0, profDone := false, cruise := false
      sat := 0, closing := closes r l n mode target, job := some id, stopping := false, pinched := false, reversing := false, pinchRun := 0
      brakeShort := false, learnPh := 0, binSum := [], bumpless := false }
    if rest then startRun c l else l

/-- The state with the loop's registers taken over if it is IDLE (08 R205). -/
def latchIdle (n : Nat) (s : State) : State := if (s.chip.loop n).st = .idle then latchLoop n s else s

/-- A MOVE, STOP or LEARN of a loop: on an IDLE one its checks and its effect see the registers as they stand now, which are in force from
then on where it passes (08 R205). -/
def gatedLoop (n : Nat) (checks : Regs → Chip → List (Bool × Nat)) (effect : Nat → State → State) (id : Nat) (s : State) : State :=
  match firstFail (checks (latchIdle n s).regs (latchIdle n s).chip) with
  | some st => s.onChip fun r c => complete r id st 0 c
  | none => effect id (latchIdle n s)

/-- Body of MOVE (08 R202). -/
def bodyMove (n mode endAct : Nat) (ref : Bool) (target : Int) (vmax tol settle : Nat) (id : Nat) (s : State) : State :=
  gatedLoop n (moveChecks n mode target) (fun id s => s.onChip (startMove n mode endAct ref target vmax tol settle id)) id s

/-- What checks 1 to 4 see of MOVE. -/
def descMove (u : Fin 10) (mode : Fin 4) (endAct : Fin 4) (target : Int) : Desc :=
  { opc := 0x40, blk := 0x14, unit := u.val, valid := decide (mode.val ≠ 3) && decide (endAct.val ≠ 3) && targetValid mode.val target }

/-- MOVE (08 R202). -/
def execMove (h : Hdr) (u : Fin 10) (mode endAct : Fin 4) (ref : Bool) (target : Int) (vmax : Fin 16777216) (tol settle : Fin 65536) (s : State) :
    Answer :=
  .next (runDesc (descMove u mode endAct target)
    h (.move h u mode endAct ref target vmax tol settle) (bodyMove u.val mode.val endAct.val ref target vmax.val tol.val settle.val) s)

/-- What the ring engine knows of a Bridle descriptor without further fields. -/
def loopDesc (opc n : Nat) : Desc := { opc := opc, blk := 0x14, unit := n }

/-- Body of HOLD (08 R194). -/
def bodyHold (n : Nat) (id : Nat) (s : State) : State :=
  gated (fun r c => checks56 r c 0x14 n ++ [(!((c.loop n).st == .moving || (c.loop n).st == .regulating), St.busy)])
    (fun id s => s.onChip fun r c =>
      complete r id St.ok (ofSigned 32 (c.loop n).duty) (c.modLoop n fun l => { l with st := .held, prev := l.st })) id s

/-- HOLD with RESUME = 0 (08 R194). -/
def execHold (h : Hdr) (u : Fin 10) (s : State) : Answer := .next (runDesc (loopDesc 0x41 u.val) h (.hold h u) (bodyHold u.val) s)

/-- Body of HOLD with RESUME = 1 (08 R194): the next sample presets the integrator. Without a held loop RESULT is stated nowhere: a free
value (log entry 1). -/
def bodyHoldResume (n : Nat) (id : Nat) (s : State) : State :=
  gated (fun r c => checks56 r c 0x14 n)
    (fun id s => s.onChip fun r c =>
      let l := c.loop n
      if l.st = .held then complete r id St.ok (ofSigned 32 l.duty) (c.setLoop n { l with st := l.prev, bumpless := true })
      else
        let f := c.fresh 32
        complete r id St.ok f.1 f.2) id s

/-- HOLD with RESUME = 1 (08 R194). -/
def execHoldResume (h : Hdr) (u : Fin 10) (s : State) : Answer :=
  .next (runDesc (loopDesc 0x41 u.val) h (.holdResume h u) (bodyHoldResume u.val) s)

/-- RESULT of STOP (08 Table 8.7). -/
def stopResult (l : Loop) : Nat := l.st.code + l.fault % 256 * 256

/-- A STOP acts on a loop (08 R202, Table 8.7): it completes when the loop is IDLE; FAULT counts as idle (R185). -/
def stopLoop (n mode id : Nat) (r : Regs) (c : Chip) : Chip :=
  let l := c.loop n
  match l.st with
  | .idle | .fault => complete r id St.ok (stopResult l) c
  | .braking =>
    let c := c.setLoop n { l with stopJobs := l.stopJobs ++ [(id, stopResult l)] }
    if mode = 2 ∧ !l.toFault then idleLoop r n c else c
  | _ =>
    let c := c.setLoop n { l with stopJobs := l.stopJobs ++ [(id, stopResult l)] }
    if mode = 2 then idleLoop r n c
    else if mode = 1 then brakeLoop r n false c
    else c.modLoop n fun l =>
      let l := if l.mode = 2 then { l with p := l.pos * 65536, v := l.speedNow c.now * 65536, a := 0, iAcc := 0, d := 0 } else l
      { l with stopping := true, mode := 1, st := if l.st = .learning then .learning else .moving }

/-- Body of STOP with CLEAR = 0. -/
def bodyStop (n mode : Nat) (id : Nat) (s : State) : State :=
  gatedLoop n (fun r c => checks56 r c 0x14 n) (fun id s => s.onChip (stopLoop n mode id)) id s

/-- What checks 1 to 4 see of STOP. -/
def descStop (u : Fin 10) (mode : Fin 4) : Desc :=
  { loopDesc 0x42 u.val with valid := decide (mode.val ≠ 3) }

/-- STOP with CLEAR = 0 (08 R202). -/
def execStop (h : Hdr) (u : Fin 10) (mode : Fin 4) (s : State) : Answer :=
  .next (runDesc (descStop u mode) h (.stop h u mode) (bodyStop u.val mode.val) s)

/-- STOP with CLEAR = 1 on a loop in FAULT: the halter's latch is cleared and the loop is IDLE (08 R184). -/
def clearBridge (n id : Nat) (r : Regs) (c : Chip) : Chip :=
  let res := stopResult (c.loop n)
  jobOutcome r id St.ok res c.mt.val (c.modLoop n fun l => { l with st := .idle, latch := false, fault := 0, toFault := false, runOn := 0 })

/-- Body of STOP with CLEAR = 1 (08 R184, Table 8.7): in FAULT the halter's latch is cleared and the loop is IDLE. -/
def bodyStopClear (n mode : Nat) (id : Nat) (s : State) : State :=
  gatedLoop n (fun r c => checks56 r c 0x14 n) (fun id s =>
    if (s.chip.loop n).st = .fault then
      yardCommand 3 id none (State.onChip (clearBridge n id)) s
    else s.onChip (stopLoop n mode id)) id s

/-- What checks 1 to 4 see of STOP_CLEAR. -/
def descStopClear (u : Fin 10) (mode : Fin 4) : Desc :=
  { loopDesc 0x42 u.val with valid := decide (mode.val ≠ 3) }

/-- STOP with CLEAR = 1 (08 R184). -/
def execStopClear (h : Hdr) (u : Fin 10) (mode : Fin 4) (s : State) : Answer :=
  .next (runDesc (descStopClear u mode) h (.stopClear h u mode) (bodyStopClear u.val mode.val) s)

/-- Body of COEF_WRITE (08 R193). -/
def bodyCoefWrite (n : Nat) (pairs : List (Nat × Nat)) (id : Nat) (s : State) : State :=
  gated (fun r c => checks56 r c 0x14 n ++ [((c.loop n).running && decide (32 < (c.loop n).coefQ.length + pairs.length), St.busy)])
    (fun id s => s.onChip fun r c =>
      if (c.loop n).running then c.modLoop n fun l => { l with coefQ := l.coefQ ++ pairs.map fun p => (p.1, p.2, id) }
      else complete r id (coefStatus pairs) 0 (c.modLoop n fun l => pairs.foldl (fun l p => applyPairCoef p.1 p.2 l) l)) id s

/-- What checks 1 to 4 see of COEF_WRITE. -/
def descCoefWrite (u : Fin 10) (addr : Nat) (pairs : List (Fin 8 × Fin 4294967296)) : Desc :=
  { loopDesc 0x43 u.val with
      valid := decide (1 ≤ pairs.length) && decide (pairs.length ≤ 32) && decide (addr % 8 = 0), bufs := [(addr, 8 * pairs.length, false)] }

/-- COEF_WRITE (08 R193). -/
def execCoefWrite (h : Hdr) (u : Fin 10) (addr : Nat) (pairs : List (Fin 8 × Fin 4294967296)) (s : State) : Answer :=
  .next (runDesc (descCoefWrite u addr pairs)
    h (.coefWrite h u addr pairs) (bodyCoefWrite u.val (pairs.map fun p => (p.1.val, p.2.val))) s)

/-- Body of LEARN RUN (08 R200 step 1): it drives in the opening direction at VMAX ÷ 2. -/
def bodyLearnRun (n : Nat) (id : Nat) (s : State) : State :=
  gatedLoop n (fun r c =>
      let l := c.loop n
      checks56 r c 0x14 n ++ checkSupply r c (80 + n) ++
        [(l.st == .fault || l.toFault, St.latched), (l.st == .held || l.st == .learning || l.st == .moving, St.busy)])
    (fun id s => s.onChip fun r c =>
      let c := moveDone r n St.ok false true false c
      c.modLoop n fun l => startRun c { l with
        st := .learning, mode := 1, target := -(closeSign r n) * (profV r n / 2 : Nat), vmax := profV r n, learnPh := 1, job := some id, ref := false
        profDone := false, cruise := false, stopping := false, binSum := [], closing := false, bumpless := false, pinched := false
        reversing := false, brakeShort := false }) id s

/-- What checks 1 to 4 see of LEARN_RUN. -/
def descLearnRun (u : Fin 10) (addr : Nat) : Desc :=
  { loopDesc 0x44 u.val with valid := decide (addr % 4 = 0), bufs := if addr = 0 then [] else [(addr, 1024, true)] }

/-- LEARN with OP = RUN (08 R200). -/
def execLearnRun (h : Hdr) (u : Fin 10) (addr : Nat) (s : State) : Answer :=
  .next (runDesc (descLearnRun u addr)
    h (.learnRun h u addr) (bodyLearnRun u.val) s)

/-- LEARN to a loop in HELD or LEARNING is BUSY (08 R202). -/
def learnBusy (n : Nat) (r : Regs) (c : Chip) : List (Bool × Nat) :=
  checks56 r c 0x14 n ++ [((c.loop n).st == .held || (c.loop n).st == .learning, St.busy)]

/-- A table is put in use and kept in the settings store (08 R200). -/
def keepTable (r : Regs) (n : Nat) (ref vl : List Nat) (c : Chip) : Chip :=
  saveSettings r (fun x => { x with tabs := x.tabs.put n (ref, vl, ref) })
    (c.modLoop n fun l => { l with tabRef := ref, tabV := vl, tabLearn := ref, tabValid := true })

/-- Body of LEARN LOAD (08 R200). -/
def bodyLearnLoad (n : Nat) (ref vl : List Nat) (id : Nat) (s : State) : State :=
  gatedLoop n (learnBusy n) (fun id s => s.onChip fun r c => complete r id St.ok 0 (keepTable r n ref vl c)) id s

/-- What checks 1 to 4 see of LEARN_LOAD. -/
def descLearnLoad (u : Fin 10) (addr : Nat) (ref : List Nat) (vlearn : List Nat) : Desc :=
  { loopDesc 0x44 u.val with
      valid := decide (addr % 4 = 0), bufs := [(addr, 1024, false)]
      content := decide (ref.length = 256) && decide (vlearn.length = 256) && (ref.all fun x => decide (x < 65536)) &&
        vlearn.all fun x => decide (0 < x) && decide (x < 65536) }

/-- LEARN with OP = LOAD (08 R200): a V_learn of 0 fails check 1. -/
def execLearnLoad (h : Hdr) (u : Fin 10) (addr : Nat) (ref vlearn : List Nat) (s : State) : Answer :=
  .next (runDesc (descLearnLoad u addr ref vlearn)
    h (.learnLoad h u addr ref vlearn) (bodyLearnLoad u.val ref vlearn) s)

/-- The 1,024 bytes of a table (08 Table 8.9). -/
def tableBytes (l : Loop) : List Nat :=
  ((List.range 256).flatMap fun b => two (binAt l.tabRef b)) ++ (List.range 256).flatMap fun b => two (binAt l.tabV b)

/-- Body of LEARN READ (08 R200). -/
def bodyLearnRead (n addr : Nat) (id : Nat) (s : State) : State :=
  gatedLoop n (learnBusy n) (fun id s => s.onChip fun r c => complete r id St.ok 0 (dmaJob id addr (tableBytes (c.loop n)) c)) id s

/-- What checks 1 to 4 see of LEARN_READ. -/
def descLearnRead (u : Fin 10) (addr : Nat) : Desc :=
  { loopDesc 0x44 u.val with valid := decide (addr % 4 = 0), bufs := [(addr, 1024, true)] }

/-- LEARN with OP = READ (08 R200). -/
def execLearnRead (h : Hdr) (u : Fin 10) (addr : Nat) (s : State) : Answer :=
  .next (runDesc (descLearnRead u addr)
    h (.learnRead h u addr) (bodyLearnRead u.val addr) s)

-- Samples ---------------------------------------------------------------------------------------------------------------

/-- A zero step of the loop's trigger channel takes a sample, unless it is dropped (08 R186). -/
def takeSample (n : Nat) (c : Chip) : Chip :=
  let l := c.loop n
  if l.running && !l.sample && (decide (l.sampT + 10000 ≤ c.mt.val) || !l.sampled) then
    c.setLoop n { l with
      sample := true, sent := false, sampled := true, sampT := c.mt.val, missT := c.mt.val, missK := 0, posS := l.pos, cntS := l.cnt }
  else c

/-- ω_meas in counts/s (08 R196): the count change over ts, since the sample computed before, from 4 counts on, else the reciprocal of the
signed interval of the last two edges in ns. -/
def measured (l : Loop) (ts : Nat) (edge : Int) : Int :=
  let dn := l.cntS - l.cntP
  if 4 ≤ dn.natAbs then Int.tdiv (dn * 1000000000) ts else if edge = 0 then 0 else Int.tdiv 1000000000 edge

/-- A physical value in thousandths as Q16.16. -/
def milliQ (x : Int) : Int × Bool := satQ (Int.tdiv (x * 65536) 1000)

/-- The winding resistance in Q16.16 Ω (08 R195). -/
def windingR (r : Regs) (c : Chip) (n : Nat) : Int :=
  let tw : Rat := (c.sys.tbp : Rat) / 1000 + (c.loop n).tw
  ((toSigned 32 (lv r (Reg.MOTOR_RM n)) : Rat) * (1 + 393 / 100000 * (tw - 20))).floor

/-- The plausibility model (08 R195): ω_est and r in Q16.16 kcounts/s, and whether a step of it saturated. -/
def plausModel (r : Regs) (c : Chip) (n ts : Nat) (i di vt w : Int) : Int × Int × Bool :=
  let rm := satQ (windingR r c n)
  let iq := milliQ i
  let vq := milliQ vt
  let rate := satQ (Int.tdiv (di * 65536 * 1000) ts)
  let ir := mulQ iq.1 rm.1
  let ldi := mulQ (toSigned 32 (lv r (Reg.MOTOR_L n))) rate.1
  let a := satQ (vq.1 - ir.1)
  let b := satQ (a.1 - ldi.1)
  let est := divQ b.1 (toSigned 32 (lv r (Reg.MOTOR_KE n)))
  let wq := milliQ w
  let res := satQ (wq.1 - est.1)
  (est.1, res.1, rm.2 || iq.2 || vq.2 || rate.2 || ir.2 || ldi.2 || a.2 || b.2 || est.2 || wq.2 || res.2)

/-- A sample fails the residual test (08 R195). -/
def residualFails (r : Regs) (n : Nat) (est res : Int) : Bool :=
  let w := lv r (Reg.PLAUS_CFG n)
  decide (bits w 15 0 * 65536 * 100 + bits w 23 16 * 1000 * est.natAbs < res.natAbs * 100000)

/-- A failing or passing sample is counted, a missed one as a failure; PLAUS_N failures in a row end the loop in FAULT. With RES_TH = 0 no
sample taken fails, and without a position source nothing is checked (08 R195). -/
def countPlaus (r : Regs) (n : Nat) (missed bad : Bool) (c : Chip) : Chip :=
  let w := lv r (Reg.PLAUS_CFG n)
  if posSrc r n = 0 then c
  else if !missed && (bits w 15 0 == 0 || !bad) then c.modLoop n fun l => { l with badRun := 0 }
  else
    let c := c.modLoop n fun l => { l with badRun := l.badRun + 1 }
    if max 1 (bits w 31 24) ≤ (c.loop n).badRun then faultLoop r n 4 c else c

/-- Sticky flags are set, each first setting with its SATURATION event (08 R190). -/
def setSat (r : Regs) (n : Nat) (flags : List (Nat × Bool)) (c : Chip) : Chip :=
  flags.foldl (fun c f =>
    if f.2 && !(c.loop n).sat.testBit f.1 then
      loopEvent r n 9 Cls.limit (c.modLoop n fun l => { l with sat := l.sat + 2 ^ f.1 })
    else c) c

/-- The control law of one sample (08 R189, R190, R194): the new loop and the flags SAT_P, I, D, FF, OUT. -/
def controlLaw (r : Regs) (n ts : Nat) (vb : Int) (ilim : Bool) (l0 : Loop) : Loop × List (Nat × Bool) :=
  let one := 65536
  let frozen := mulQ l0.duty vb
  let l := profileStep r n ts l0
  let vref := satQ (Int.tdiv l.v 1000)
  let aref := satQ (Int.tdiv l.a 1000)
  let e := satQ (l.p - l.posS * 65536)
  let p := mulQ (coefOf l 0) e.1
  let de := satQ (e.1 - l.ePrev)
  let kd := mulQ (coefOf l 2) de.1
  let dd := satQ (kd.1 - l.d)
  let df := mulQ (coefOf l 3) dd.1
  let d := satQ (l.d + df.1)
  let f1 := mulQ (coefOf l 4) vref.1
  let f2 := mulQ (coefOf l 5) aref.1
  let f3 := satQ (coefOf l 6 * sgn vref.1)
  let f4 := satQ (f1.1 + f2.1)
  let ff := satQ (f4.1 + f3.1)
  let pre1 := satQ (p.1 + d.1)
  let pre2 := satQ (pre1.1 + ff.1)
  let preset := satQ (frozen.1 - pre2.1)
  let iAcc := if l.bumpless then preset.1 else l.iAcc
  let s1 := satQ (p.1 + iAcc)
  let s2 := satQ (s1.1 + d.1)
  let raw := satQ (s2.1 + ff.1)
  let umax := coefOf l 7
  let u := clampI (-umax) umax raw.1
  let hold := ilim || (decide (u ≠ raw.1) && decide (sgn e.1 = sgn raw.1))
  let ki := mulQ (coefOf l 1) e.1
  let i2 := satQ (iAcc + ki.1)
  let q := divQ u (max vb one)
  let duty := clampI (-one) one q.1
  ({ l with d := d.1, u := u, iAcc := if hold then iAcc else i2.1, ePrev := e.1, duty := duty, bumpless := false },
   [(0, e.2 || p.2), (1, (l.bumpless && (preset.2 || pre1.2 || pre2.2)) || (!hold && (ki.2 || i2.2))),
    (2, de.2 || kd.2 || dd.2 || df.2 || d.2), (3, vref.2 || aref.2 || f1.2 || f2.2 || f3.2 || f4.2 || ff.2),
    (4, s1.2 || s2.2 || raw.2 || decide (u ≠ raw.1) || q.2 || decide (duty ≠ q.1))])

/-- A sample adds to the sums of its bin at constant velocity (08 R200). -/
def addBin (r : Regs) (n : Nat) (l : Loop) : Loop :=
  if l.cruise ∧ posMin r n < posMax r n then
    let b := posBin r n l.posS
    let x := UMap.get (0, 0, 0) l.binSum b
    { l with binSum := l.binSum.put b (x.1 + l.iMa.natAbs, x.2.1 + l.vbMv, x.2.2 + 1) }
  else l

/-- The sample is a pinch sample (08 R199). -/
def pinchSample (r : Regs) (n : Nat) (l : Loop) : Bool :=
  let b := posBin r n l.posS
  let sealN := bits (lv r (Reg.PINCH_CFG n)) 7 2
  let inSeal := if closeSign r n = 1 then decide (256 ≤ b + sealN) else decide (b < sealN)
  let ref := if l.posUnc then l.tabRef.foldl max 0 else binAt l.tabRef b
  let th : Int := bits (lv r (Reg.PINCH_TH n)) 15 0
  let vl : Int := 10 * binAt l.tabV b
  pinchOn r n && l.tabValid && !l.reversing && !(l.st == .learning) && l.cruise && decide (0 < closeSign r n * l.v) && !inSeal &&
    decide (10 * th * min vl l.vbMv < ((l.iMa.natAbs : Int) - 10 * (ref : Int)) * vl)

/-- Pinch samples are counted; PINCH_N of them brake the loop for 20 ms (08 R199). -/
def countPinch (r : Regs) (n : Nat) (c : Chip) : Chip :=
  if pinchSample r n (c.loop n) then
    let c := c.modLoop n fun l => { l with pinchRun := l.pinchRun + 1 }
    if max 1 (bits (lv r (Reg.PINCH_CFG n)) 15 8) ≤ (c.loop n).pinchRun then
      loopEvent r n 3 Cls.fault (brakeLoop r n true (c.modLoop n fun l => { l with pinched := true }))
    else c
  else c.modLoop n fun l => { l with pinchRun := 0 }

/-- What a sample completes (08 R199, R202; Table 8.7): a RAMP that has stopped, a pinch reverse, a settled position, a reached velocity. -/
def sampleEnds (r : Regs) (n ts : Nat) (c : Chip) : Chip :=
  let l := c.loop n
  if l.stopping then (if vReached r n ts l 0 then brakeLoop r n false c else c)
  else if l.reversing then (if l.profDone then brakeLoop r n false c else c)
  else if l.st != .moving then c
  else if l.mode = 0 then
    if l.profDone && decide ((l.target - l.posS).natAbs ≤ l.tol) then
      let c := c.setLoop n { l with settled := l.settled + 1 }
      if l.settle ≤ l.settled + 1 ∧ l.job.isSome then
        let c := loopEvent r n 1 Cls.state (moveDone r n St.ok false false false c)
        if l.endAct = 0 then c.modLoop n fun l => { l with st := .regulating }
        else if l.endAct = 1 then brakeLoop r n false c else idleLoop r n c
      else c
    else c.setLoop n { l with settled := 0 }
  else if l.mode = 1 && vReached r n ts l (vStar r n l) then moveDone r n St.ok false false false c
  else c

/-- The loop computes a sample (08 R187 to R195): current, terminal and supply voltage of the sample in mA and mV, ILIM_ACTIVE of the last
PWM period, and the signed interval of the last two edges in ns (0: none). -/
def computeLoop (r : Regs) (n : Nat) (i vt vb : Int) (ilim : Bool) (edge : Int) (c : Chip) : Chip :=
  let l := c.loop n
  let ts := max 1 (l.sampT - l.tPrev)
  let w := measured l ts edge
  let c := c.setLoop n { l with
    tPrev := l.sampT, seq := (l.seq + 1) % 2 ^ 32, missRun := false, iPrev := l.iMa, iMa := i, vtMv := vt, vbMv := vb, ilimAct := ilim
    ilimT := c.now, limRaised := l.limRaised && ilim, wMeas := w, cntP := l.cntS, dutyJob := if l.mode = 2 ∧ l.st = .moving then l.job else none }
  let c := coefApplyOne r n c
  let l := c.loop n
  let vq := (milliQ vb).1
  let c : Chip :=
    if l.st = .held then c
    else if l.mode = 2 then c.setLoop n { l with duty := l.target, u := (mulQ l.target vq).1, bumpless := false }
    else
      let k := controlLaw r n ts vq ilim l
      let goal := if k.1.mode = 0 then sgn (k.1.target * 65536 - k.1.p) * (k.1.vmax * 65536 : Nat) else vStar r n k.1
      setSat r n k.2 (c.setLoop n { k.1 with cruise := k.1.cruise || (decide (goal ≠ 0) && vReached r n ts k.1 goal) })
  let c := c.modLoop n fun l => { addBin r n l with sent := true }
  let m := plausModel r c n ts i (i - (c.loop n).iPrev) vt w
  let c := c.modLoop n fun l => { l with wEst := m.1, resid := clampI (-32768) 32767 (Int.tdiv (m.2.1 * 1000) 65536) }
  let c := setSat r n [(5, m.2.2)] c
  let c := countPlaus r n false (m.2.2 || residualFails r n m.1 m.2.1) c
  let c := if (c.loop n).running then countPinch r n c else c
  if (c.loop n).running && !((c.loop n).st == .held) then sampleEnds r n ts c else c

/-- A sample of the loop waits for the engine (08 R187). -/
def Loop.ready (l : Loop) : Bool := l.sample && !l.sent && l.running

/-- The loop is the next that the engine computes (08 R187): in the order of the sample instants, and at one instant in ascending loop
number (log entry 57). -/
def engineNext (c : Chip) (n : Nat) : Bool :=
  (c.loop n).ready && (List.range 10).all fun m =>
    !(c.loop m).ready || decide ((c.loop n).sampT < (c.loop m).sampT) || ((c.loop n).sampT == (c.loop m).sampT && decide (n ≤ m))

/-- LOOP_COMPUTE (08 R187, R189): the engine takes the sample at the front of its queue. -/
def execLoopCompute (u : Fin 10) (i vt vb : Int) (ilim : Bool) (edge : Int) (s : State) : Answer :=
  .next (s.onChip fun r c =>
    if engineNext c u.val && c.fwRuns then computeLoop r u.val i vt vb ilim edge c else c)

/-- The telemetry record of a sample whose delay is `delay` in 10 ns (08 Table 8.11). -/
def tlmRecord (l : Loop) (delay : Nat) : List Nat :=
  [l.seq % 2 ^ 32, l.sampT % 2 ^ 32, l.sampT / 2 ^ 32 % 65536 + min 65535 delay * 65536, ofSigned 32 l.posS, ofSigned 32 ((l.p + 32768) / 65536),
   ofSigned 16 (l.iMa / 10) + ofSigned 16 (l.vbMv / 10) * 65536, ofSigned 32 l.u,
   ofSigned 16 l.resid + l.sat % 64 * 2 ^ 16 + l.st.code * 2 ^ 22 +
     flagBits [(25, l.posUnc), (26, l.ilimAct), (27, l.coefIdx.isSome)] + l.coefIdx.getD 0 * 2 ^ 28].flatMap four

/-- A telemetry record is written for every DECIM + 1 samples, if its ring lies in a window of the world that owns BRIDLE (08 R204). -/
def writeTlm (r : Regs) (n delay : Nat) (c : Chip) : Chip :=
  let w := lv r (Reg.TLM_CFG n)
  let l := c.loop n
  let size := 2 ^ clampN 4 12 (bits w 19 16)
  let base := lv r (Reg.TLM_BASE_HI n) * 2 ^ 32 + lv r (Reg.TLM_BASE_LO n)
  let pf := b2n (ownerSecure r 0x14 n)
  if bit w 0 && l.seq % (bits w 15 8 + 1) == 0 && inWindow r pf base (32 * size) true then
    dma pf (base + 32 * (l.tlmIdx % size)) (tlmRecord l delay) (c.setLoop n { l with tlmIdx := (l.tlmIdx + 1) % size })
  else c

/-- DUTY_APPLY (08 R187): the duty acts at once, unless the loop brakes or coasts by now; the delay is measured and reported, a late sample
counted, and the DUTY MOVE whose duty it is completes (R202). -/
def execDutyApply (u : Fin 10) (s : State) : Answer :=
  .next (s.onChip fun r c =>
    let l := c.loop u.val
    if l.sent then
      let delay := c.mt.val - l.sampT
      let c := c.setLoop u.val { l with
        dutyOut := if l.running then l.duty else l.dutyOut, sent := false, sample := false, late := if 3200 < delay then (l.late + 1) % 65536 else l.late }
      let c := writeTlm r u.val (delay / 10) c
      if l.st = .moving ∧ l.dutyJob.isSome ∧ l.dutyJob = l.job then moveDone r u.val St.ok false false false c else c
    else c)

/-- A sample is missed (08 R186): 1.5 × TS_NOM after the last one, and each further TS_NOM. -/
def sampleLate (r : Regs) (c : Chip) (n : Nat) : Bool :=
  decide (2 * (c.loop n).missT + (3 + 2 * (c.loop n).missK) * tsNom r n ≤ 2 * c.mt.val)

/-- MISSED_SAMPLE (08 R186, R187, R195): no sample in time, or (`dropped`) a sample whose frame needed more than four transmissions. -/
def execMissedSample (u : Fin 10) (dropped : Bool) (s : State) : Answer :=
  .next (s.onChip fun r c =>
    let l := c.loop u.val
    if l.running && (if dropped then l.sample else sampleLate r c u.val) then
      let c := c.setLoop u.val { l with
        missK := l.missK + b2n (!dropped), missed := (l.missed + 1) % 65536, missRun := true, sample := l.sample && !dropped, sent := l.sent && !dropped }
      let c := if l.missRun then c else loopEvent r u.val 0x0B Cls.warning c
      countPlaus r u.val true true c
    else c)

/-- BRAKE_END (08 R185, R195): the 200 ms brake ends; the loop is IDLE, or in FAULT where the plausibility check ended it. -/
def execBrakeEnd (u : Fin 10) (s : State) : Answer :=
  .next (s.onChip fun r c =>
    let l := c.loop u.val
    if l.st = .braking ∧ !l.brakeShort then
      if l.toFault then
        l.stopJobs.foldl (fun c j => complete r j.1 St.ok j.2 c) (c.setLoop u.val { l with st := .fault, latch := true, toFault := false, stopJobs := [], runOn := 0 })
      else idleLoop r u.val c
    else c)

/-- PINCH_REVERSE (08 R199): the loop moves PINCH_REV counts in the opening direction under the profile limits; where its work has ended
meanwhile the brake was the last of it, and the loop is IDLE (R201). -/
def execPinchReverse (u : Fin 10) (s : State) : Answer :=
  .next (s.onChip fun r c =>
    let l := c.loop u.val
    if l.st = .braking ∧ l.brakeShort ∧ !l.pinched then idleLoop r u.val c
    else if l.st = .braking ∧ l.brakeShort then
      c.setLoop u.val { l with
        st := .moving, brakeShort := false, reversing := true, mode := 0, target := l.pos - closeSign r u.val * (bits (lv r (Reg.PINCH_CFG u.val)) 31 16 : Nat)
        vmax := profV r u.val, p := l.pos * 65536, v := 0, a := 0, iAcc := 0, d := 0, tPrev := c.mt.val, cntP := l.cnt, missT := c.mt.val, missK := 0
        profDone := false, cruise := false }
    else c)

/-- The protections of a bridge (08 Table 8.1): desaturation (0) and gate undervoltage (3) of MB0 to MB5, over-current (1) and temperature (2)
of MB6 to MB9. -/
def bridgeHas (n kind : Nat) : Bool := if n < 6 then kind == 0 || kind == 3 else kind == 1 || kind == 2

/-- BRIDGE_TRIP (08 R184): the halter turns the switches off and latches the loop into FAULT. Its work ends LATCHED. -/
def execBridgeTrip (u : Fin 10) (kind : Fin 4) (s : State) : Answer :=
  .next (s.onChip fun r c =>
    let l := c.loop u.val
    if l.st = .fault || !bridgeHas u.val kind.val then c
    else
      let cause := kind.val + 5
      let c := yardResultOpt 3 l.job St.latched (workResult l false false false) c
      let c := l.stopJobs.foldl (fun c j => yardResult 3 j.1 St.ok j.2 c) c
      let c := coefDrain r u.val (c.modLoop u.val fun l => { l with
        st := .fault, latch := true, fault := cause, toFault := false, dutyOut := 0, job := none, stopJobs := [], sample := l.sent, ilimAct := false, limRaised := false, runOn := 0
        stopping := false, pinched := false, reversing := false, brakeShort := false, cruise := false, binSum := [], learnPh := 0 })
      bridgeEvent u.val cause Cls.latched c)

/-- CURRENT_LIMIT (08 R203). -/
def execCurrentLimit (u : Fin 10) (s : State) : Answer :=
  .next (s.onChip fun r c =>
    let l := c.loop u.val
    if l.ilimAct && !l.limRaised then loopEvent r u.val 0x0C Cls.limit (c.setLoop u.val { l with limRaised := true }) else c)

/-- The nearest visited bin's entry (08 R200 step 3). -/
def nearestBin (m : UMap (Int × Int × Nat)) (b : Nat) : Int × Int × Nat :=
  match m.foldl (fun (best : Option (Nat × (Int × Int × Nat))) e =>
      match best with
      | some k => if (Int.natAbs ((e.1 : Int) - b)) < (Int.natAbs ((k.1 : Int) - b)) then some e else best
      | none => some e) none with
  | some k => k.2
  | none => (0, 0, 1)

/-- LEARN RUN has reached the closing end stop: the table is stored, and the loop brakes (08 R200 steps 3, 4). With no bin visited the
table's values are stated nowhere: free values (log entry 1). -/
def finishLearn (r : Regs) (n : Nat) (c : Chip) : Chip :=
  let l := c.loop n
  let bins := l.binSum
  let f1 := c.fresh 16
  let f2 := f1.2.fresh 16
  let ref := (List.range 256).map fun b => if bins.isEmpty then f1.1 else (nearestBin bins b).1.toNat / (10 * (nearestBin bins b).2.2) % 65536
  let vl := (List.range 256).map fun b => if bins.isEmpty then f2.1 else (nearestBin bins b).2.1.toNat / (10 * (nearestBin bins b).2.2) % 65536
  let c := if bins.isEmpty then f2.2 else c
  let c := keepTable r n ref vl (c.modLoop n fun l => { l with posUnc := false })
  let c : Chip := match l.job.bind c.job with
    | some j => (match j.op with
      | .learnRun _ _ addr => if addr = 0 then c else dmaJob j.id addr (tableBytes (c.loop n)) c
      | _ => c)
    | none => c
  brakeLoop r n false (moveDone r n St.ok false false false c)

/-- END_STOP (08 R198, R200): `up` says that the motion was positive. -/
def execEndStop (u : Fin 10) (up : Bool) (s : State) : Answer :=
  .next (s.onChip fun r c =>
    let n := u.val
    let l := c.loop n
    if l.running && decide (bits (lv r (Reg.LOOP_LIM n)) 31 16 ≠ 0) then
      let open_ := if closeSign r n = 1 then posMin r n else posMax r n
      if l.st = .learning ∧ !l.stopping then
        if l.learnPh = 1 then
          loopEvent r n 2 Cls.state (c.setLoop n { l with
            pos := open_, target := closeSign r n * (profV r n : Nat), learnPh := 2, p := open_ * 65536, v := 0, a := 0, iAcc := 0, d := 0
            cruise := false, binSum := [] })
        else loopEvent r n 2 Cls.state (finishLearn r n c)
      else
        let c := if l.ref then c.setLoop n { l with pos := if up then posMax r n else posMin r n, posUnc := false } else c
        loopEvent r n 2 Cls.state (brakeLoop r n false (moveDone r n St.ok false false true c))
    else c)

-- Position --------------------------------------------------------------------------------------------------------------

/-- The position moves by counted steps; INVERT reverses them (08 R196, Table 8.12). A filled one enters no velocity (R197). -/
def moveCount (r : Regs) (n : Nat) (k : Int) (filled : Bool) (c : Chip) : Chip :=
  let k := if bit (lv r (Reg.LOOP_CFG n)) 2 then -k else k
  c.modLoop n fun l =>
    let l := { l with pos := toSigned 32 (ofSigned 32 (l.pos + k)) }
    if filled || decide (k = 0) then l
    else { l with cnt := l.cnt + k, edge := if l.edgeT = 0 then 0 else k * max 1 (c.now - l.edgeT : Nat), edgeT := max 1 c.now }

/-- RIPPLE (08 R197): one step in the direction of the applied duty. -/
def execRipple (u : Fin 10) (s : State) : Answer :=
  .next (s.onChip fun r c =>
    if posSrc r u.val = 3 then
      (moveCount r u.val (sgn (c.loop u.val).dutyOut) false c).modLoop u.val fun l => { l with fills := 0 }
    else c)

/-- RIPPLE_FILL (08 R197): one count is filled while |ω_est| > 50 counts/s; more than FILL_MAX in a row leave the position uncertain. -/
def execRippleFill (u : Fin 10) (s : State) : Answer :=
  .next (s.onChip fun r c =>
    let l := c.loop u.val
    if posSrc r u.val = 3 ∧ 50 * 65536 < 1000 * l.wEst.natAbs then
      let c := (moveCount r u.val (sgn l.dutyOut) true c).modLoop u.val fun l => { l with fills := min 255 (l.fills + 1) }
      if bits (lv r (Reg.RIPPLE_CFG u.val)) 15 8 < (c.loop u.val).fills then setUncertain r u.val c else c
    else c)

/-- One millisecond of the winding model (08 R195; log entry 8): `i` in mA. -/
def windingStep (r : Regs) (c : Chip) (n : Nat) (i : Int) : Rat :=
  let w := lv r (Reg.MOTOR_THERM n)
  let l := c.loop n
  let amp : Rat := (i : Rat) / 1000
  let heat : Rat := (bits w 15 0 : Rat) / 100 * amp * amp * ((windingR r c n : Rat) / 65536)
  l.tw + (heat - l.tw) / 1000 / ((max 1 (bits w 31 16) : Nat) : Rat)

/-- WINDING_UPDATE (08 R195, R197): the winding rise, and, while the motor coasts under ripple counting, the run-on integrated from the
back-EMF in mV. -/
def execWindingUpdate (u : Fin 10) (i emf : Int) (s : State) : Answer :=
  .next (s.onChip fun r c =>
    let n := u.val
    let c := c.modLoop n fun l => { l with tw := windingStep r c n i }
    let l := c.loop n
    let ke := toSigned 32 (lv r (Reg.MOTOR_KE n))
    if posSrc r n = 3 ∧ (l.st = .idle ∨ l.st = .fault) ∧ ke ≠ 0 then
      let run := l.runOn + (emf.natAbs : Rat) / 1000 / ((ke.natAbs : Rat) / 65536)
      let c := c.setLoop n { l with runOn := run }
      if (bits (lv r (Reg.RIPPLE_CFG n)) 15 8 : Rat) < run then setUncertain r n c else c
    else c)

/-- LOOP_STATUS (08 Table 8.12). -/
def loopStatus (r : Regs) (c : Chip) (n : Nat) : Nat :=
  let l := c.loop n
  l.st.code + flagBits [(3, l.posUnc), (4, l.tabValid)] + l.sat % 64 * 32 + flagBits [(11, ilimSet r c n)] + l.fault % 256 * 65536 +
    min 63 l.coefQ.length * 2 ^ 24

/-- LOOP_MISSED (08 Table 8.12). -/
def loopMissed (l : Loop) : Nat := l.missed % 65536 + l.late % 65536 * 65536

end Sys2Proof.Machine
end

