-- ==== Sys2Proof/Machine/StallDiag.lean ====
section
/-!
DEFINITION. Sys2Proof/Machine/StallDiag.lean: off-state and on-state diagnosis, STALL_DIAG and the cross-check (06 R149 to R154, R159).
-/

namespace Sys2Proof.Machine

/-- Off-state diagnosis is permitted by the feed's band (06 R156). -/
def diagBand (c : Chip) (i : Nat) : Bool :=
  let b := (c.feed (srcFeed i)).band
  if srcFeed i = 3 then b == 3 else b == 3 || b == 4

/-- The stall is in OFF, WAIT, SHED or LATCHED (06 R149). -/
def Stall.diagState (s : Stall) : Bool := !s.active

/-- The bytes of the record of STALL_DIAG (06 Table 6.9). -/
def diagRecord (r : Regs) (c : Chip) (i : Nat) : List Nat :=
  let s := c.stall i
  let cond : Rat := wireAmb r c i + s.rise
  let rearm := match s.wireWait with
    | some x => rearmTime s.rise (x / 2) (wireParams r i).2
    | none => 0
  let words := [stallStatus r c i,
    (gangCurrent r c i).toNat / 10 % 65536 + ofSigned 16 (s.vMv / 10) * 65536,
    ofSigned 16 (s.tj / 250) + (c.feed (srcFeed i)).mv.toNat / 10 % 65536 * 65536,
    ilimE r s i / 100 % 65536 + s.limNow / 100 % 65536 * 65536,
    ofSigned 16 (cond * 10).floor + rearm % 65536 * 65536,
    pauseLeft c s % 65536 + s.lastCause % 256 * 65536,
    stallCount s, s.cross % 2 ^ 32, s.cross / 2 ^ 32 % 2 ^ 32,
    ceilE s i / 100 % 1024 + tsdE r c i * 2 ^ 16 + retryE s * 2 ^ 24,
    s.lastT % 2 ^ 32, s.lastT / 2 ^ 32 % 65536]
  (words.flatMap fun w => leBytes 4 w) ++ List.replicate 16 0

/-- RESULT of STALL_DIAG (06 Table 6.8). -/
def diagResult (r : Regs) (c : Chip) (i : Nat) : Nat :=
  let s := c.stall i
  s.st.code + s.att * 16 + s.latches * 256 + flagBits [(11, s.openLoad), (12, s.shortVbat), (13, s.onLow)] +
    (gangCurrent r c i).toNat / 10 % 65536 * 65536

/-- STALL_DIAG samples the stall: its record is written and its result reported (06 R159). -/
def finishDiag (r : Regs) (i id addr : Nat) (c : Chip) : Chip :=
  let c := if addr = 0 then c else dmaJob id addr (diagRecord r c i) c
  yardResult (stallYard i) id St.ok (diagResult r c i) c

/-- STALL_DIAG in the halter (06 R159): with OFFDIAG_NOW on a stall that is off, where R156 permits, it waits for one measurement. -/
def diagStall (u : Nat) (offNow : Bool) (addr : Nat) (id : Nat) (r : Regs) (c : Chip) : Chip :=
  if offNow && (c.stall u).diagState && diagBand c u && !(c.stall u).crossTest then
    c.modStall u fun st => { st with diagJobs := st.diagJobs ++ [(id, addr)] }
  else finishDiag r u id addr c

/-- Body of STALL_DIAG (06 R159). -/
def bodyStallDiag (u : Nat) (offNow : Bool) (addr : Nat) (id : Nat) (s : State) : State :=
  gated (fun r c => checks56 r c 0x10 u ++ [(u / 24 == 2 && c.ycOff, St.supplyLow)])
    (fun id s => yardCommand (stallYard u) id none (State.onChip (diagStall u offNow addr id)) s) id s

/-- What checks 1 to 4 see of STALL_DIAG. -/
def descStallDiag (u : Fin 64) (addr : Nat) (s : State) : Desc :=
  { stallDesc s 0x14 u.val with
      valid := decide (addr % 64 = 0), bufs := if addr = 0 then [] else [(addr, 64, true)] }

/-- STALL_DIAG (06 R159). -/
def execStallDiag (h : Hdr) (u : Fin 64) (offNow : Bool) (addr : Nat) (s : State) : Answer :=
  .next (runDesc (descStallDiag u addr s)
    h (.stallDiag h u offNow addr) (bodyStallDiag u.val offNow addr) s)

/-- A verdict of off-state diagnosis is reported: the flags follow it, and a change of the verdict or of a flag raises one event (06 Table
6.5, R150, R151). 0 NORMAL, 1 OPEN_LOAD, 2 SHORT_VBAT; a NORMAL that clears no flag raises none (Table 6.11). -/
def applyVerdict (r : Regs) (i kind : Nat) (c : Chip) : Chip :=
  let s := c.stall i
  let t := { s with openLoad := kind == 1, shortVbat := kind == 2, onLow := false, dgRep := some kind }
  let same := s.openLoad == t.openLoad && s.shortVbat == t.shortVbat && !s.onLow
  let c := c.setStall i t
  if kind = 0 then (if same then c else stallEvent r i 0x13 Cls.diag c)
  else if same && s.dgRep == some kind then c
  else stallEvent r i (if kind = 1 then 0x10 else 0x11) Cls.diag c

/-- The verdict of a measurement: pull-up and pull-down samples in mV against 0.40 of the feed (06 R149, Table 6.5). -/
def verdict (up dn feed : Int) : Nat := if 10 * up ≤ 4 * feed then 0 else if 10 * dn ≤ 4 * feed then 1 else 2

/-- One off-state measurement of a stall (06 R149): waiting STALL_DIAG report its verdict at once, otherwise three that agree do. Where the
stall has turned on or the feed left its band meanwhile there is no measurement, and waiting STALL_DIAG complete without one (R159). -/
def offMeasure (r : Regs) (u : Nat) (up dn : Int) (c : Chip) : Chip :=
  let s := c.stall u
  let inPwm := s.pwm && !s.out && bit (r.h (Reg.STALL_DIAG_CFG u)) 1
  let own := bit (r.h (Reg.STALL_DIAG_CFG u)) 0 && c.awake
  if !((s.diagState || inPwm) && diagBand c u && !s.crossTest && !s.testing) then
    s.diagJobs.foldl (fun c j => finishDiag r u j.1 j.2 c) (c.modStall u fun s => { s with diagJobs := [] })
  else if !own && s.diagJobs.isEmpty then c
  else
    let k := verdict up dn (c.feed (srcFeed u)).mv
    let cnt := if s.dgCnt ≠ 0 ∧ k = s.dgKind then min 3 (s.dgCnt + 1) else 1
    let jobs := s.diagJobs
    let c := c.setStall u { s with dgKind := k, dgCnt := cnt, diagJobs := [] }
    let c := if jobs.isEmpty && cnt < 3 then c else applyVerdict r u k c
    jobs.foldl (fun c j => finishDiag r u j.1 j.2 c) c

/-- OFFSTATE_DIAG (06 R149): one measurement, with the samples in mV at the end of the pull-up and of the pull-down. -/
def execOffstateDiag (u : Fin 64) (up dn : Int) (s : State) : Answer := .next (s.onChip fun r c => offMeasure r u.val up dn c)

/-- ON_LOW_CURRENT (06 R150): 10 ms of assessed time below OL_ON, or at or above it. -/
def execOnLowCurrent (u : Fin 64) (low : Bool) (s : State) : Answer :=
  .next (s.onChip fun r c =>
    let st := c.stall u.val
    let band := (c.feed (srcFeed u.val)).band
    if !(st.st == .on && bits (r.h (Reg.STALL_DIAG_CFG u.val)) 15 8 != 0 && (if srcFeed u.val = 3 then band == 3 else decide (3 ≤ band))) then c
    else if low && !st.onLow then stallEvent r u.val 0x12 Cls.warning (c.setStall u.val { st with onLow := true })
    else if !low && st.onLow then stallEvent r u.val 0x13 Cls.diag (c.setStall u.val { st with onLow := false })
    else c)

-- Cross-check -----------------------------------------------------------------------------------------------------------

/-- The stalls of a MASK that stand for themselves: a gang is represented by its leader (06 R152 step 1). -/
def maskStalls (r : Regs) (c : Chip) (mask : Nat) : List Nat :=
  (List.range 64).filter fun i => mask.testBit i && leader r c i == i

/-- The stall is pulsed: not LATCHED and without GRANT_REQ (06 R152 step 3). -/
def pulsable (r : Regs) (c : Chip) (i : Nat) : Bool := (c.stall i).st != .latched && !bit (r.c (Reg.STALL_SEC i)) 8

/-- A feed lies in its normal band, VBAT48 in its full-function band (06 R152). -/
def feedNormal (c : Chip) (f : Nat) : Bool := (c.feed f).band == 3

/-- Step 1 of a cross-check: every stall off or latched, every feed in its normal band (06 R152). -/
def crossStepOne (r : Regs) (c : Chip) (mask : Nat) : List (Bool × Nat) :=
  [((maskStalls r c mask).any fun i => !((c.stall i).st == .off || (c.stall i).st == .latched), St.busy),
   ((maskStalls r c mask).any fun i => !feedNormal c (srcFeed i), St.supplyLow)]

/-- The pair's word in the buffer of a cross-check, where CROSS was found (06 Table 6.10). -/
def pairWord (x : Cross) (i j : Nat) : Option Nat :=
  let ij := x.found.contains (i, j)
  let ji := x.found.contains (j, i)
  if ij || ji then some (i + j * 256 + b2n ij * 65536 + b2n ji * 131072) else none

/-- All pairs i < j of a list in ascending order. -/
def pairsOf : List Nat → List (Nat × Nat)
  | [] => []
  | i :: rest => (rest.map fun j => (i, j)) ++ pairsOf rest

/-- The cross table entry of a pair is set or cleared on both sides (06 R153). -/
def setCross (i j : Nat) (on : Bool) (c : Chip) : Chip :=
  let put (m n : Nat) : Nat := if on then m ||| 2 ^ n else if m.testBit n then m - 2 ^ n else m
  (c.modStall i fun s => { s with cross := put s.cross j }).modStall j fun s => { s with cross := put s.cross i }

/-- Step 5 of a cross-check (06 R152): entries of pairs both pulsed follow the finding; others are only ever set, and only when the
cross-check ran to its end. -/
def crossStepFive (x : Cross) (whole : Bool) (c : Chip) : Chip :=
  (pairsOf ((List.range 64).filter fun i => x.mask.testBit i)).foldl (fun c p =>
    let both := x.pulsed.testBit p.1 && x.pulsed.testBit p.2
    let hit := (pairWord x p.1 p.2).isSome
    if both then setCross p.1 p.2 hit c else if whole && hit then setCross p.1 p.2 true c else c) c

/-- The cross-check in front ends with a status: step 5, its pairs and result (06 R152, Table 6.20). -/
def closeCross (r : Regs) (st : Nat) (whole : Bool) (c : Chip) : Chip :=
  match c.cross with
  | [] => c
  | x :: rest =>
    let c := { c with cross := rest }
    let c := crossStepFive x whole c
    let c := (List.range 64).foldl (fun c i => if x.mask.testBit i then c.modStall i fun s => { s with crossTest := false } else c) c
    let keep := (pairsOf ((List.range 64).filter fun i => x.mask.testBit i)).filter fun p =>
      whole || (x.pulsed.testBit p.1 && x.pulsed.testBit p.2)
    let words := keep.filterMap fun p => pairWord x p.1 p.2
    let c := match c.job x.job with
      | some j => (match j.op with
        | .stallCrosscheck _ _ _ addr => if words.isEmpty then c else dma j.h.fn addr (words.flatMap fun w => leBytes 4 w) c
        | _ => c)
      | none => c
    complete r x.job st (words.length % 4096 + (x.missed + x.todo.length) % 256 * 65536) c

/-- The cross-check in front goes on in at most `n` moves (06 R152): it makes its step 1 checks and starts, or completes and makes place for
the next; one that has no stall left to pulse ends. -/
def runCross (r : Regs) : Nat → Chip → Chip
  | 0, c => c
  | n + 1, c =>
    match c.cross with
    | [] => c
    | x :: rest =>
      if x.started then (if x.todo.isEmpty then runCross r n (closeCross r St.ok true c) else c)
      else match firstFail (crossStepOne r c x.mask) with
        | some st => runCross r n (complete r x.job st 0 { c with cross := rest })
        | none =>
          let all := maskStalls r c x.mask
          let todo := all.filter fun i => pulsable r c i
          let c := all.foldl (fun c i => c.modStall i fun s => { s with crossTest := true }) c
          runCross r n { c with cross := { x with started := true, todo := todo, missed := all.length - todo.length } :: rest }

/-- The cross-checks go on as far as they can: each takes at most two moves. -/
def crossStep (r : Regs) (c : Chip) : Chip := runCross r (2 * c.cross.length) c

/-- The running cross-check ends with a status before its last pulse, and the next one starts (06 R152, Table 6.20). -/
def endCross (r : Regs) (st : Nat) (c : Chip) : Chip := crossStep r (closeCross r st false c)

/-- Yards of the stalls of a MASK. -/
def maskYards (mask : Nat) : List Nat := (List.range 3).filter fun y => (List.range 64).any fun i => mask.testBit i && stallYard i == y

/-- Body of STALL_CROSSCHECK (06 R152): it runs, or waits for the running one. -/
def bodyStallCrosscheck (u mask : Nat) (id : Nat) (s : State) : State :=
  gated (fun r c => checks56 r c 0x10 u ++
      [((maskYards mask).any fun y => !(y == 2 && c.ycOff) && ((c.yard y).unreach || (c.yard y).adopting || (c.yard y).resetting), St.busy),
       (u / 24 == 2 && c.ycOff, St.supplyLow)])
    (fun id s => s.onChip fun r c =>
      crossStep r { c with cross := c.cross ++ [{ job := id, mask := mask }] }) id s

/-- A MASK of STALL_CROSSCHECK fails check 1 (06 Table 6.10): a stall that is not fitted, YC together with YA or YB, or without UNIT. -/
def maskValid (c : Chip) (u mask : Nat) : Bool :=
  decide (mask < 2 ^ 64) && !(c.sys.y3 && decide (2 ^ 48 ≤ mask)) && !(decide (2 ^ 48 ≤ mask) && decide (mask % 2 ^ 48 ≠ 0)) && mask.testBit u

/-- What checks 1 to 4 see of STALL_CROSSCHECK. -/
def descStallCrosscheck (h : Hdr) (u : Fin 64) (mask : Nat) (addr : Nat) (s : State) : Desc :=
  { stallDesc s 0x15 u.val with
      valid := maskValid s.chip u.val mask && decide (addr % 4 = 0), bufs := [(addr, 8192, true)]
      foreign := (List.range 64).any fun i => mask.testBit i && !(ownerSecure s.regs 0x10 i == h.secure) }

/-- STALL_CROSSCHECK (06 R152, R159). -/
def execStallCrosscheck (h : Hdr) (u : Fin 64) (mask addr : Nat) (s : State) : Answer :=
  .next (runDesc (descStallCrosscheck h u mask addr s)
    h (.stallCrosscheck h u mask addr) (bodyStallCrosscheck u.val mask) s)

/-- CROSS_PULSE (06 R152 steps 3, 4): the next stall is pulsed; `hits` are the stalls that one of its four samples found above half its
feed; `tripped` says that the pulse ended in a trip, which counts in neither ATT nor TH. -/
def crossPulse (r : Regs) (hits : List (Fin 64)) (tripped : Bool) (c : Chip) : Chip :=
  match c.cross with
  | [] => c
  | x :: rest =>
    match x.todo with
    | [] => c
    | i :: todo =>
      if !x.started || c.sys.halted then c
      else
        let seen := (hits.map fun j => j.val).filter fun j => x.mask.testBit j && j != i && leader r c j == j && leader r c j != leader r c i
        crossStep r { c with cross := { x with
          todo := todo, pulsed := x.pulsed ||| 2 ^ i, found := x.found ++ seen.map fun j => (i, j), missed := x.missed + b2n tripped } :: rest }

/-- A feed has left its normal band: a running cross-check of its stalls ends SUPPLY_LOW with the pairs found so far (06 R152). -/
def crossFeedLost (r : Regs) (f : Nat) (c : Chip) : Chip :=
  match c.cross with
  | [] => c
  | x :: _ =>
    if x.started && (List.range 64).any fun i => x.mask.testBit i && srcFeed i == f then endCross r St.supplyLow c else c

end Sys2Proof.Machine
end

