-- ==== Sys2Proof/Machine/Valve.lean ====
section
/-!
DEFINITION. Sys2Proof/Machine/Valve.lean: the valve channels and groups: fire phases, peak arbitration, the duty window, diagnosis,
sequences and the valve commands (07).
-/

namespace Sys2Proof.Machine

/-- The code of a phase (07 Table 7.2). -/
def VPhase.code : VPhase → Nat
  | .idle => 0 | .peak => 1 | .trans => 2 | .hold => 3 | .end_ => 4 | .defer => 5

/-- The channel is active: from admission to the end of END (07 R164). -/
def Valve.active (v : Valve) : Bool :=
  match v.phase with
  | .peak | .trans | .hold | .end_ => true
  | _ => false

/-- The channels of group `g` (07 R163). -/
def groupChannels (g : Nat) : List Nat := (List.range 4).map fun k => 4 * g + k

/-- The peak sum of a group in 10 mA (07 R170). -/
def peakSum (c : Chip) (g : Nat) : Nat :=
  ((groupChannels g).map fun n => if (c.valve n).phase = .peak then (c.valve n).ipk else 0).sum

/-- PEAK_BUDGET of a group in 10 mA (07 Table 7.12). -/
def peakBudget (r : Regs) (g : Nat) : Nat := 100 * clampN 2 20 (bits (r.h (Reg.VG_CFG g)) 20 16)

/-- PEAK_WAIT of a group in 10 µs (07 Table 7.12). -/
def peakWait (r : Regs) (g : Nat) : Nat := min 500 (bits (r.h (Reg.VG_CFG g)) 8 0)

/-- I_PEAK of VALVE_CFG in 10 mA (07 Table 7.11). -/
def cfgPeak (r : Regs) (n : Nat) : Nat := clampN 50 1200 (bits (r.h (Reg.VALVE_CFG n)) 10 0)

/-- I_HOLD of VALVE_CFG in 10 mA. -/
def cfgHold (r : Regs) (n : Nat) : Nat := clampN 30 400 (bits (r.h (Reg.VALVE_CFG n)) 25 16)

/-- The current in 10 mA about which a channel chops: I_PEAK in PEAK once it has been reached, I_HOLD in HOLD (07 Table 7.2). -/
def Valve.chopTarget (v : Valve) : Option Nat :=
  match v.phase with
  | .peak => if v.reached then some v.ipk else none
  | .hold => some v.ihold
  | _ => none

/-- The least on-time and off-time in ns, 1 ÷ (2 × FMAX) (07 R166, Table 7.11). -/
def Valve.chopMin (v : Valve) : Nat := 500000 / clampN 5 40 (bits v.chop 5 0)

/-- BAND in % of the target (07 Table 7.11). -/
def Valve.chopBand (v : Valve) : Nat := clampN 2 50 (bits v.chop 13 8)

/-- The low side of a chopping channel (07 R166) at the current last seen: on from target × (1 − BAND ÷ 200) down, off from
target × (1 + BAND ÷ 200) up, and unchanged between them or within the least time after its latest switching. -/
def Valve.chopSide (now target : Nat) (v : Valve) : Bool :=
  if now < v.lsT + v.chopMin then v.ls
  else if 20 * v.iMa ≤ (target * (200 - v.chopBand) : Nat) then true
  else if ((target * (200 + v.chopBand) : Nat) : Int) ≤ 20 * v.iMa then false
  else v.ls

/-- Where the low side of a channel stands while its group's rail is live or not (07 R164, Table 7.2): fully on in PEAK until I_PEAK,
chopping in PEAK and HOLD, off otherwise. -/
def Valve.lowSide (now : Nat) (rail : Bool) (v : Valve) : Bool :=
  rail && (match v.chopTarget with
    | some t => v.chopSide now t
    | none => v.phase == .peak)

/-- The low side of a channel follows its phase and current (07 R164, R166; log entry 56). -/
def driveLow (n : Nat) (c : Chip) : Chip :=
  let v := c.valve n
  let on := v.lowSide c.now (c.vg (n / 4)).hsOn
  if on == v.ls then c else c.setValve n { v with ls := on, lsT := c.now }

/-- The low sides of every channel follow (07 R166). -/
def driveLows (c : Chip) : Chip := (c.halt.valves.map fun e => e.1).foldl (fun c n => driveLow n c) c

/-- The decay that a bit of VALVE_CHOP.DECAY gives the phase: the recirculation switch is open for fast decay (07 R167, Table 7.3). -/
def Valve.phaseFast (v : Valve) : Bool :=
  match v.phase with
  | .peak => bit v.chop 16
  | .trans => bit v.chop 17
  | .hold => bit v.chop 18
  | .end_ => v.fastEnd
  | _ => false

/-- The decay in force in a channel while its low side is off is fast (07 R167); under the over-voltage cut every coil decays slowly
through its recirculation path (R169). -/
def fastDecay (c : Chip) (n : Nat) : Bool := !c.halt.ovCut && (c.valve n).phaseFast

/-- The group high side is on while a channel is active, unless the group is latched or the over-voltage cut is in force (07 R164, R169);
the low sides follow it. -/
def setHighSide (g : Nat) (c : Chip) : Chip :=
  (groupChannels g).foldl (fun c n => driveLow n c)
    (c.modVg g fun x => { x with hsOn := !x.latch && !c.halt.ovCut && (groupChannels g).any fun n => (c.valve n).active })

/-- A channel's phase changes, and its low side with it (07 R165). -/
def toPhase (n : Nat) (p : VPhase) (c : Chip) : Chip := driveLow n (c.modValve n fun v => { v with phase := p })

/-- The current of a channel has been seen, and its low side follows (07 R166). -/
def coilSeen (n : Nat) (ma : Int) (c : Chip) : Chip := driveLow n (c.modValve n fun v => { v with iMa := ma })

/-- The payload of a valve channel's events (07 R180). -/
def valvePay (n cause : Nat) (c : Chip) : Nat :=
  let v := c.valve n
  pay ([cause, v.phase.code + flagBits [(3, v.latched), (4, (c.vg (n / 4)).latch)], 0] ++ two (v.iMa.toNat / 10) ++
    [peakSum c (n / 4) / 10 % 256])

/-- An event of a valve channel (07 R180). -/
def valveEvent (n cause cls : Nat) (c : Chip) : Chip := yardEvent (64 + n) cls (valvePay n cause c) c

/-- The outcome of a fire or of a sequence step starts on its way to CTL (01 R19, 07 R179). -/
def valveReport (who : Nat × Option Nat) (status result : Nat) (c : Chip) : Chip :=
  c.modYard 3 fun d => { d with results := d.results ++ [{ job := who.1, st := status, res := result, step := who.2, t := c.mt.val }] }

/-- RESULT of a fire (07 Table 7.6). T_RISE of a fire that neither reached I_PEAK nor timed out is stated nowhere: a free value (log
entry 1). -/
def fireResult (v : Valve) (holding : Bool) (c : Chip) : Nat × Chip :=
  let f := c.fresh 12
  let rise := if v.pkTmo then (0xFFF, c) else if v.reached then (v.tRise, c) else f
  (rise.1 + flagBits [(12, v.pkTmo), (13, v.released), (14, holding)] + min 8191 v.waited * 65536, rise.2)

/-- The pending fire of a channel completes (07 R178); for a step of a sequence it is reported whether it was admitted (07 R179). -/
def fireDone (n status : Nat) (holding : Bool) (c : Chip) : Chip :=
  let v := c.valve n
  match v.who with
  | none => c
  | some who =>
    let c := c.setValve n { v with who := none }
    if who.2.isSome then valveReport who status (b2n v.adm) c
    else
      let res := fireResult v holding c
      valveReport who status res.1 res.2

/-- A channel becomes inactive or was refused: the fire completes, and with it the RELEASE descriptors that waited. A re-fire of an indefinite
hold that is refused, times out or is withdrawn leaves the channel idle without an END (log entry 56). -/
def channelIdle (n status : Nat) (c : Chip) : Chip :=
  let rel := (c.valve n).relWho
  let c := fireDone n status false c
  let c := rel.foldl (fun c who => valveReport who St.ok (b2n who.2.isSome) c) c
  toPhase n .idle (c.modValve n fun v => { v with relWho := [] })

/-- OK, or OK_CLAMPED for a clamped peak (07 R172). -/
def Valve.okSt (v : Valve) : Nat := if v.clamped then St.okClamped else St.ok

-- Duty window -----------------------------------------------------------------------------------------------------------

/-- WIN of a VALVE_DUTY in ns (07 Table 7.11). -/
def dutyWin (w : Nat) : Nat := clampN 1 100 (bits w 6 0) * 100000000

/-- PCT of a VALVE_DUTY (07 Table 7.11; log entry 9 for values out of its range). -/
def dutyPct (w : Nat) : Nat := clampN 1 100 (bits w 14 8)

/-- The used time U in ns: the present bin and the 99 before it (07 R173). -/
def dutyUsed (c : Chip) (v : Valve) : Nat := v.bins.sum + (if v.active then c.now - v.actT else 0)

/-- The active time since the last account goes into the present bin (07 R173). -/
def account (n : Nat) (c : Chip) : Chip :=
  c.modValve n fun v =>
    { v with bins := (v.bins.headD 0 + (if v.active then c.now - v.actT else 0)) :: v.bins.tail, actT := c.now }

/-- The planned time P in ns (07 R173). -/
def firePlan (r : Regs) (n hold : Nat) : Nat :=
  (max 1 (bits (r.h (Reg.VALVE_TIME n)) 7 0) + bits (r.h (Reg.VALVE_TIME n)) 15 8) * 100000 + (if hold = 65535 then 0 else hold) * 1000000

/-- U + P exceeds the cap (07 R173). -/
def dutyExceeded (r : Regs) (c : Chip) (n hold : Nat) : Bool :=
  let w := r.h (Reg.VALVE_DUTY n)
  decide (dutyPct w < 100) && decide (dutyPct w * dutyWin w < 100 * (dutyUsed c (c.valve n) + firePlan r n hold))

-- Arbitration -----------------------------------------------------------------------------------------------------------

/-- The request of a channel fits into the group's peak budget: its peak added to the sum, or, for a peak of VALVE_CFG above the budget, no
channel in PEAK (07 R170, R172). -/
def peakFits (r : Regs) (c : Chip) (n : Nat) : Bool :=
  let v := c.valve n
  let b := peakBudget r (n / 4)
  if !v.expl && decide (b < v.ipk) then peakSum c (n / 4) == 0 else decide (peakSum c (n / 4) + v.ipk ≤ b)

/-- A request is admitted to PEAK (07 R164, R170, R172). -/
def startPeak (r : Regs) (n : Nat) (c : Chip) : Chip :=
  let b := peakBudget r (n / 4)
  let c := account n c
  setHighSide (n / 4) (c.modValve n fun v => { v with
    phase := .peak, tAdm := c.now, adm := true, waited := (c.now - v.tReq) / 1000, reached := false, pkTmo := false, released := false
    clamped := decide (b < v.ipk), ipk := min v.ipk b, ihold := min v.ihold (min v.ipk b), endSt := St.ok })

/-- The head of a group's queue is admitted while it fits (07 R171). -/
def testQueue (r : Regs) (g : Nat) : Nat → Chip → Chip
  | 0, c => c
  | k + 1, c =>
    match (c.vg g).queue with
    | [] => c
    | n :: rest =>
      if peakFits r c n then testQueue r g k (startPeak r n (c.modVg g fun x => { x with queue := rest })) else c

/-- A channel leaves the queue of its group, whose head is tested again (07 R171). -/
def withdraw (r : Regs) (n : Nat) (c : Chip) : Chip :=
  testQueue r (n / 4) 4 (c.modVg (n / 4) fun x => { x with queue := x.queue.filter fun m => !(m == n) })

/-- A deferred fire ends in its channel, with the time it waited (07 R171, Table 7.6). -/
def endWait (n status : Nat) (c : Chip) : Chip := channelIdle n status (c.modValve n fun v => { v with waited := (c.now - v.tReq) / 1000 })

/-- Deferred requests are withdrawn together, so that none of them is admitted in another's place (07 Table 7.13), and what is then at the
head of a queue is tested (07 R171). -/
def dropDeferred (r : Regs) (status : Nat) (p : Nat → Bool) (c : Chip) : Chip :=
  let c := (List.range 16).foldl (fun c n =>
    if (c.valve n).phase = .defer && p n then
      (endWait n status c).modVg (n / 4) fun x => { x with queue := x.queue.filter fun m => !(m == n) }
    else c) c
  (List.range 4).foldl (fun c g => testQueue r g 4 c) c

/-- A fire that passed its checks arrives in the halter (07 R170 to R172). One that PEAK_WAIT = 0 refuses raises no event (log entry 56). -/
def fireValve (r : Regs) (n hold ipk ihold : Nat) (who : Nat × Option Nat) (c : Chip) : Chip :=
  let c := account n c
  let peak := if ipk = 0 then cfgPeak r n else ipk
  let c := c.modValve n fun v => { v with
    ipk := peak, ihold := min peak (if ihold = 0 then cfgHold r n else ihold), holdMs := hold, expl := decide (ipk ≠ 0), who := some who
    tReq := c.now, adm := false, chop := r.h (Reg.VALVE_CHOP n), dutyCfg := r.h (Reg.VALVE_DUTY n), pol := r.h (Reg.VALVE_POLICY n), endSt := St.ok, fastEnd := false, reached := false, pkTmo := false, released := false, waited := 0
    clamped := false }
  if (c.vg (n / 4)).queue.isEmpty && peakFits r c n then startPeak r n c
  else if peakWait r (n / 4) = 0 then setHighSide (n / 4) (channelIdle n St.peakDefer c)
  else
    valveEvent n 1 Cls.info (setHighSide (n / 4) ((c.modValve n fun v => { v with phase := .defer }).modVg (n / 4)
      fun x => { x with queue := x.queue ++ [n] }))

-- Phases ----------------------------------------------------------------------------------------------------------------

/-- A fire ends through END, with fast decay if asked (07 R165, R167): a deferred request is withdrawn instead. `status` is that of the
fire; a fire already in END keeps its own. -/
def endFire (r : Regs) (n status : Nat) (fast : Bool) (c : Chip) : Chip :=
  let v := c.valve n
  match v.phase with
  | .idle => c
  | .defer => withdraw r n (endWait n status c)
  | .end_ => c.setValve n { v with fastEnd := v.fastEnd || fast }
  | .peak => testQueue r (n / 4) 4 (toPhase n .end_ (c.setValve n { v with endSt := status, fastEnd := fast }))
  | .trans | .hold => toPhase n .end_ (c.setValve n { v with endSt := status, fastEnd := fast })

/-- The decay that DECAY[3] of the fire gives END (07 Table 7.3). -/
def endDecay (v : Valve) : Bool := bit v.chop 19

/-- HOLD is entered, or END where there is no hold; on an indefinite hold the fire completes (07 R165, R178). -/
def enterHold (r : Regs) (n : Nat) (c : Chip) : Chip :=
  let v := c.valve n
  if v.holdMs = 0 then endFire r n v.okSt (endDecay v) c
  else
    let c := testQueue r (n / 4) 4 (toPhase n .hold c)
    if v.holdMs = 65535 then fireDone n v.okSt true c else c

/-- RELEASE in the halter (07 Table 7.6). -/
def releaseValve (r : Regs) (n : Nat) (who : Nat × Option Nat) (c : Chip) : Chip :=
  let v := c.valve n
  match v.phase with
  | .idle => valveReport who St.ok (b2n who.2.isSome) c
  | .end_ => c.setValve n { v with relWho := v.relWho ++ [who], released := v.released || v.endSt == v.okSt }
  | _ => endFire r n v.okSt (endDecay v) (c.setValve n { v with relWho := v.relWho ++ [who], released := true })

/-- A valve takes its shed action, or that of lock-out: fast decay, then off (02 Table 2.13, 07 R167). -/
def shedValve (r : Regs) (status n : Nat) (c : Chip) : Chip := endFire r n status true c

/-- Running sequences that name channel `n` end ABORTED_DISABLED (07 Table 7.13). -/
def abortSeqs (r : Regs) (p : Nat → Bool) (c : Chip) : Chip :=
  let hit := c.seqs.filter fun q => q.steps.any fun k => p k.ch
  completeAll r (hit.map fun q => q.job) St.aborted { c with seqs := c.seqs.filter fun q => !q.steps.any fun k => p k.ch }

/-- A valve takes its SAFE action (07 R177): its pending fire completes ABORTED_DISABLED, in END too. -/
def safeValve (r : Regs) (n : Nat) (c : Chip) : Chip :=
  let c := endFire r n St.aborted true c
  let c := if (c.valve n).active then c.modValve n fun v => { v with endSt := St.aborted } else c
  valveEvent n 0x22 Cls.state (abortSeqs r (· == n) c)

-- Commands --------------------------------------------------------------------------------------------------------------

/-- The encoding of a VALVE_FIRE is valid (07 Table 7.6, R172). -/
def fireValid (r : Regs) (n ipk ihold : Nat) : Bool :=
  (ipk == 0 || (decide (50 ≤ ipk) && decide (ipk ≤ 1200) && decide (ipk ≤ 100 * clampN 2 20 (bits (r.c (Reg.VG_CFG (n / 4))) 20 16)))) &&
    (ihold == 0 || (decide (30 ≤ ihold) && decide (ihold ≤ 400) &&
      decide (ihold ≤ (if ipk = 0 then clampN 50 1200 (bits (r.c (Reg.VALVE_CFG n)) 10 0) else ipk))))

/-- The reservation of a fire in mA and mW (02 Table 2.14): the peak target through the group high side and the channel low side. -/
def fireDemand (r : Regs) (c : Chip) (n ipk : Nat) : Nat × Nat :=
  let ma := 10 * (if ipk = 0 then cfgPeak r n else ipk)
  (ma, lossMw ma (rdsNow c (256 + n / 4) (Config.junction (256 + n / 4) c.now) + rdsNow c (64 + n) (Config.junction (64 + n) c.now)))

/-- Checks 5 to 8 of a fire (07 R178): LATCHED, BUSY but for an indefinite hold, DUTY_LIMIT. -/
def fireChecks (r : Regs) (c : Chip) (n hold ipk : Nat) : List (Bool × Nat) :=
  let v := c.valve n
  let d := fireDemand r c n ipk
  checks56 r c 0x13 n ++ check7 r c (64 + n) d.1 d.2 ++
    [(v.latched || (c.vg (n / 4)).latch, St.latched),
     (!(v.phase == .idle) && !(v.phase == .hold && v.holdMs == 65535), St.busy),
     (dutyExceeded r c n hold, St.duty)]

/-- The budget grants a fire (02 R54). -/
def reserveFire (n ipk : Nat) (r : Regs) (c : Chip) : Chip :=
  let d := fireDemand r c n ipk
  reserve 2 d.1 d.2 c

/-- Body of VALVE_FIRE (07 R165, R178). -/
def bodyValveFire (n hold ipk ihold : Nat) (id : Nat) (s : State) : State :=
  gated (fun r c => fireChecks r c n hold ipk)
    (fun id s => yardCommand 3 id none (State.onChip fun r c => fireValve r n hold ipk ihold (id, none) c) (s.onChip (reserveFire n ipk))) id s

/-- What the ring engine knows of a VALVE_FIRE. -/
def fireDesc (s : State) (n ipk ihold : Nat) : Desc := { opc := 0x30, blk := 0x13, unit := n, valid := fireValid s.regs n ipk ihold }

/-- VALVE_FIRE with RELEASE = 0 (07 R165, R178). -/
def execValveFire (h : Hdr) (u : Fin 16) (hold : Fin 65536) (ipk : Fin 2048) (ihold : Fin 1024) (s : State) : Answer :=
  .next (runDesc (fireDesc s u.val ipk.val ihold.val) h (.valveFire h u hold ipk ihold) (bodyValveFire u.val hold.val ipk.val ihold.val) s)

/-- Body of VALVE_FIRE with RELEASE = 1: it raises no demand and fires nothing, so only checks 5 and 6 apply (07 Table 7.6). -/
def bodyValveRelease (n : Nat) (id : Nat) (s : State) : State :=
  gated (fun r c => checks56 r c 0x13 n) (fun id s => yardCommand 3 id none (State.onChip fun r c => releaseValve r n (id, none) c) s) id s

/-- VALVE_FIRE with RELEASE = 1 (07 R178). -/
def execValveRelease (h : Hdr) (u : Fin 16) (hold : Fin 65536) (ipk : Fin 2048) (ihold : Fin 1024) (s : State) : Answer :=
  .next (runDesc (fireDesc s u.val ipk.val ihold.val) h (.valveRelease h u hold ipk ihold) (bodyValveRelease u.val) s)

/-- DELAY_US does not decrease from step to step (07 R179). -/
def delaysRise : List SeqStep → Bool
  | a :: b :: rest => decide (a.delay ≤ b.delay) && delaysRise (b :: rest)
  | _ => true

/-- Body of VALVE_SEQ (07 R179): the sequence is held in CTL; the checks of its fires are made step by step. -/
def bodyValveSeq (n : Nat) (trig : Option (Fin 32)) (steps : List SeqStep) (id : Nat) (s : State) : State :=
  gated (fun r c => checks56 r c 0x13 n ++ [(c.seqs.any fun q => q.steps.any fun k => steps.any fun x => x.ch.val == k.ch, St.busy)])
    (fun id s => s.onChip fun _ c => { c with seqs := c.seqs ++ [{
      job := id, steps := steps.map fun x => { ch := x.ch.val, rel := x.rel, hold := x.hold.val, delay := x.delay.val }
      trig := trig.map fun t => t.val, t0 := c.mt.val }] }) id s

/-- What checks 1 to 4 see of VALVE_SEQ. -/
def descValveSeq (u : Fin 16) (trig : Option (Fin 32)) (addr : Nat) (steps : List SeqStep) : Desc :=
  {
      opc := 0x31, blk := 0x13, unit := u.val
      valid := decide (1 ≤ steps.length) && decide (steps.length ≤ 64) && decide (addr % 8 = 0)
      content := (trig.isSome || delaysRise steps) && steps.all fun x => !x.rsv
      bufs := [(addr, 8 * steps.length, false)] }

/-- VALVE_SEQ (07 R179). -/
def execValveSeq (h : Hdr) (u : Fin 16) (trig : Option (Fin 32)) (addr : Nat) (steps : List SeqStep) (s : State) : Answer :=
  .next (runDesc (descValveSeq u trig addr steps)
    h (.valveSeq h u trig addr steps) (bodyValveSeq u.val trig steps) s)

/-- The instant of step `k` of a running sequence has come (07 R179): its delay after the execution instant, or after its zero step of
TRIG_TC. -/
def stepDue (c : Chip) (q : VSeq) (k : Nat) (x : VStep) : Bool :=
  match q.trig with
  | none => decide (q.t0 + x.delay * 1000 ≤ c.mt.val)
  | some _ => (match q.zeros[k]? with
    | some t => decide (t + x.delay * 1000 ≤ c.mt.val)
    | none => false)

/-- A step of a sequence in YD (07 R179). -/
def actStep (id k : Nat) (x : VStep) (r : Regs) (c : Chip) : Chip :=
  if x.rel then releaseValve r x.ch (id, some k) c else fireValve r x.ch x.hold 0 0 (id, some k) c

/-- Step `k` of a running sequence. -/
def stepAt (c : Chip) (id k : Nat) : Option VStep := (c.seqs.find? fun q => q.job == id).bind fun q => q.steps[k]?

/-- A sequence step is fired after its checks; one that cannot act is recorded with its status (07 R179). -/
def seqStep (id k : Nat) (s : State) : State :=
  match s.chip.seqs.find? fun q => q.job == id with
  | none => s
  | some q =>
    match q.steps[k]? with
    | none => s
    | some x =>
      if x.fired || x.st.isSome || !stepDue s.chip q k x then s
      else
        let checks := if x.rel then checks56 s.regs s.chip 0x13 x.ch else fireChecks s.regs s.chip x.ch x.hold 0
        match firstFail checks with
        | some st => s.onChip fun r c => seqRecord r id k st false c
        | none => yardCommand 3 id (some k) (State.onChip (actStep id k x)) (s.onChip fun r c =>
          let c := { c with
            seqs := c.seqs.map fun q => if q.job == id then { q with steps := q.steps.modify k fun y => { y with fired := true } } else q }
          if x.rel then c else reserveFire x.ch 0 r c)

/-- VALVE_SEQ_STEP (07 R179): `q` counts the running sequences, oldest first. -/
def execValveSeqStep (q : Nat) (k : Fin 64) (s : State) : Answer :=
  .next (match s.chip.seqs[q]? with
    | some x => if s.chip.fwRuns then seqStep x.job k.val s else s
    | none => s)

/-- VALVE_STATUS (07 Table 7.11). -/
def valveStatus (r : Regs) (c : Chip) (n : Nat) : Nat :=
  let v := c.valve n
  v.phase.code + flagBits [(3, v.latched), (4, v.openLoad), (5, v.shortGnd), (6, v.shortVbat)] + v.latchCause % 256 * 256 +
    min 127 (100 * dutyUsed c v / dutyWin (if v.active then v.dutyCfg else r.h (Reg.VALVE_DUTY n))) * 65536

/-- VG_STATUS (07 Table 7.12). -/
def vgStatus (c : Chip) (g : Nat) : Nat :=
  flagBits [(0, (c.vg g).hsOn), (1, (c.vg g).latch)] + (c.vg g).queue.length % 8 * 16 + peakSum c g % 65536 * 65536

/-- VALVE_CLEAR in the halter (07 R176). -/
def clearValve (r : Regs) (n id : Nat) (diag group : Bool) (c : Chip) : Chip :=
  let before := valveStatus r c n % 256
  let c := c.modValve n fun v => { v with latched := false, latchCause := 0 }
  let c := if diag then c.modValve n fun v => { v with openLoad := false, shortGnd := false, shortVbat := false, dgCnt := 0 } else c
  let c := if group then c.modVg (n / 4) fun x => { x with latch := false } else c
  yardResult 3 id St.ok before c

/-- Body of VALVE_CLEAR (07 R176, R178): the group latch is cleared only while no channel of the group is active. -/
def bodyValveClear (n : Nat) (diag group : Bool) (id : Nat) (s : State) : State :=
  gated (fun r c => checks56 r c 0x13 n ++ [(group && (groupChannels (n / 4)).any fun m => (c.valve m).active, St.busy)])
    (fun id s => yardCommand 3 id none (State.onChip fun r c => clearValve r n id diag group c) s) id s

/-- What checks 1 to 4 see of VALVE_CLEAR. -/
def descValveClear (u : Fin 16) : Desc :=
  { opc := 0x32, blk := 0x13, unit := u.val }

/-- VALVE_CLEAR (07 R176, R178). -/
def execValveClear (h : Hdr) (u : Fin 16) (diag group : Bool) (s : State) : Answer :=
  .next (runDesc (descValveClear u) h (.valveClear h u diag group) (bodyValveClear u.val diag group) s)

-- Happenings in the halter ------------------------------------------------------------------------------------------------

/-- PEAK_DEFER_TIMEOUT (07 R171). -/
def execPeakDeferTimeout (u : Fin 16) (s : State) : Answer :=
  .next (s.onChip fun r c =>
    if (c.valve u.val).phase = .defer then
      valveEvent u.val 2 Cls.warning (withdraw r u.val (endWait u.val St.peakDefer c))
    else c)

/-- PEAK_REACHED (07 R165): T_RISE is the time from admission in 10 µs, and the channel chops about I_PEAK from now on. -/
def execPeakReached (u : Fin 16) (s : State) : Answer :=
  .next (s.onChip fun _ c =>
    let v := c.valve u.val
    if v.phase = .peak ∧ !v.reached then 
      coilSeen u.val (10 * v.ipk) (c.setValve u.val { v with reached := true, tRise := min 0xFFE ((c.now - v.tAdm) / 10000) })
    else c)

/-- PEAK_END (07 R165). -/
def execPeakEnd (u : Fin 16) (s : State) : Answer :=
  .next (s.onChip fun r c =>
    let v := c.valve u.val
    if v.phase = .peak ∧ v.reached then testQueue r (u.val / 4) 4 (toPhase u.val .trans c) else c)

/-- PEAK_TIMEOUT (07 R168). -/
def execPeakTimeout (u : Fin 16) (s : State) : Answer :=
  .next (s.onChip fun r c =>
    let v := c.valve u.val
    if v.phase = .peak ∧ !v.reached then
      enterHold r u.val (valveEvent u.val 3 Cls.warning (c.setValve u.val { v with pkTmo := true, tRise := 0xFFF }))
    else c)

/-- HOLD_REACHED (07 R165). -/
def execHoldReached (u : Fin 16) (s : State) : Answer :=
  .next (s.onChip fun r c =>
    if (c.valve u.val).phase = .trans then enterHold r u.val (coilSeen u.val (10 * (c.valve u.val).ihold) c) else c)

/-- HOLD_END (07 R165). -/
def execHoldEnd (u : Fin 16) (s : State) : Answer :=
  .next (s.onChip fun r c =>
    let v := c.valve u.val
    if v.phase = .hold ∧ v.holdMs ≠ 65535 then endFire r u.val v.okSt (endDecay v) c else c)

/-- VALVE_END_DONE (07 R164, R165; 15 R341): the channel becomes inactive, its fire completes, and the turn-off counts as wear with its
clamp energy in µJ. -/
def execValveEndDone (u : Fin 16) (clampUj : Nat) (s : State) : Answer :=
  .next (s.onChip fun _ c =>
    if (c.valve u.val).phase = .end_ then
      let c := account u.val (clampHeat clampUj c)
      let c := channelIdle u.val (c.valve u.val).endSt c
      setHighSide (u.val / 4) (c.modValve u.val fun v => { v with wear := v.wear + wearUnits clampUj 25000, iMa := 0 })
    else c)

/-- DUTY_CUT (07 R174): in END too, a fire that has not yet completed completes DUTY_LIMIT. -/
def execDutyCut (u : Fin 16) (s : State) : Answer :=
  .next (s.onChip fun r c =>
    let v := c.valve u.val
    if v.active && !(v.phase == .end_ && v.endSt == St.duty) && decide (dutyPct v.dutyCfg < 100) &&
        decide (dutyPct v.dutyCfg * dutyWin v.dutyCfg ≤ 100 * dutyUsed c v) then
      valveEvent u.val 9 Cls.limit ((endFire r u.val St.duty (endDecay v) c).modValve u.val fun v => { v with endSt := St.duty })
    else c)

/-- DUTY_BIN_ADVANCE (07 R173). -/
def execDutyBinAdvance (u : Fin 16) (s : State) : Answer :=
  .next (s.onChip fun _ c => (account u.val c).modValve u.val fun v => { v with bins := (0 :: v.bins).take 100 })

/-- OV_CUT (07 R169): in the 24 V class every group high side opens, the coils decay slowly (`fastDecay`), and the active channels raise the
cause. -/
def execOvCut (s : State) : Answer :=
  .next (s.onChip fun r c =>
    if bit (supplyCfg r 3) 0 && !c.halt.ovCut then
      let c := { c with halt := { c.halt with ovCut := true } }
      let c := (List.range 4).foldl (fun c g => setHighSide g c) c
      (List.range 16).foldl (fun c n => if (c.valve n).active then valveEvent n 0x20 Cls.warning c else c) c
    else c)

/-- OV_CUT_RELEASE (07 R169): the high sides close again, and each channel drives its coil as its phase asks. -/
def execOvCutRelease (s : State) : Answer :=
  .next (s.onChip fun _ c =>
    let c := { c with halt := { c.halt with ovCut := false } }
    (List.range 4).foldl (fun c g => setHighSide g c) c)

/-- The on-state fault kinds of a channel: 0 OPEN_LOAD_ON, 1 SHORT_VBAT_ON, 2 THERMAL (07 Table 7.5). -/
def valveFaultCause (k : Nat) : Nat := if k = 0 then 4 else if k = 1 then 5 else 8

/-- VALVE_FAULT (07 R175): the fire ends, with slow decay after a thermal fault, and the channel latches. -/
def execValveFault (u : Fin 16) (kind : Fin 3) (s : State) : Answer :=
  .next (s.onChip fun r c =>
    let v := c.valve u.val
    let cause := valveFaultCause kind.val
    if v.phase == .peak || v.phase == .trans || v.phase == .hold then
      let c := endFire r u.val St.latched (decide (kind.val ≠ 2))
        (c.setValve u.val { v with latched := true, latchCause := cause, shortVbat := v.shortVbat || kind.val == 1 })
      valveEvent u.val cause Cls.latched c
    else c)

/-- GROUP_FAULT (07 R175): an excess (SHORT_GND_GRP) or an over-current (GROUP_OC) latches the group; its active channels end with slow decay
and their fires, like the deferred ones, complete LATCHED (log entries 23 and 56). -/
def execGroupFault (g : Fin 4) (excess : Bool) (s : State) : Answer :=
  .next (s.onChip fun r c =>
    let act := (groupChannels g.val).filter fun n => (c.valve n).active
    let waiting := (c.vg g.val).queue
    let c := setHighSide g.val (c.modVg g.val fun x => { x with latch := true, queue := [] })
    let c := waiting.foldl (fun c n => endWait n St.latched c) c
    let c := act.foldl (fun c n => if (c.valve n).phase = .end_ then c.modValve n fun v => { v with fastEnd := false } else endFire r n St.latched false c) c
    act.foldl (fun c n => valveEvent n (if excess then 6 else 7) Cls.latched c) c)

/-- The verdict of an off-state drain measurement in mV (07 Table 7.5): 0 NORMAL, 1 OPEN_LOAD, 2 SHORT_GND, 3 SHORT_VBAT; none between
1.0 and 2.5 V with the group high side on, for which the table has no row. -/
def drainVerdict (hsOn : Bool) (mv : Nat) : Option Nat :=
  if mv < 1000 then some 2 else if mv < 2500 then (if hsOn then none else some 0) else if mv ≤ 5000 then some 1
  else some (if hsOn then 0 else 3)

/-- A verdict is reported: flags and, on a change of a flag, one event (07 R175; log entry 56). A measurement with the high side on keeps
SHORT_VBAT. -/
def valveVerdict (n k : Nat) (hsOn : Bool) (c : Chip) : Chip :=
  let v := c.valve n
  let w := { v with openLoad := k == 1, shortGnd := k == 2, shortVbat := k == 3 || (hsOn && v.shortVbat) }
  if w = v then c
  else valveEvent n (if k = 1 then 0x10 else if k = 2 then 0x11 else if k = 3 then 0x12 else 0x13) Cls.diag (c.setValve n w)

/-- VALVE_OFFSTATE_DIAG (07 R175): one drain measurement; three that agree report their verdict. -/
def execValveOffstateDiag (u : Fin 16) (mv : Nat) (s : State) : Answer :=
  .next (s.onChip fun r c =>
    let v := c.valve u.val
    let hs := (c.vg (u.val / 4)).hsOn
    let band := (c.feed 2).band
    if bit (r.h (Reg.VALVE_DIAG_CFG u.val)) 0 && v.phase == .idle && c.awake && (band == 3 || band == 4) && !c.halt.ovCut && !v.testing then
      match drainVerdict hs mv with
      | none => c
      | some k =>
        let cnt := if v.dgCnt ≠ 0 ∧ k = v.dgKind then min 3 (v.dgCnt + 1) else 1
        let c := c.setValve u.val { v with dgKind := k, dgCnt := cnt }
        if cnt = 3 then valveVerdict u.val k hs c else c
    else c)

end Sys2Proof.Machine
end

