-- ==== Sys2Proof/Machine/Timer.lean ====
section
/-!
DEFINITION. Sys2Proof/Machine/Timer.lean: timer channels, the common start, module time and its discipline (11).
-/

namespace Sys2Proof.Machine

-- Channels --------------------------------------------------------------------------------------------------------------

/-- CASCADE is in force: it exists on odd channels only (11 R258). -/
def cascaded (c : Chip) (n : Nat) : Bool := n % 2 == 1 && bit (c.timer n).cfg 1

/-- The payload of a timer event: bytes 1 to 4 and the occurrence count (11 R268). -/
def timerPay (cause v count : Nat) : Nat := pay ([cause] ++ four v ++ [min 255 count])

/-- A timer event (11 R268). -/
def timerEvent (r : Regs) (n cause cls v count : Nat) (c : Chip) : Chip := raise r (192 + n) cls (timerPay cause v count) c

/-- A zero step of channel `n`, counted `k` times at one instant (11 R253, R254, R265): the reload buffer is taken, a one-shot channel
stops, and the consumers are triggered: Bridle loops (08 R186) and sequences (07 R179). -/
def zeroStep (r : Regs) (n k : Nat) (c : Chip) : Chip :=
  let t := c.timer n
  let c := c.setTimer n { t with next := t.reload, zeros := (t.zeros + k) % 65536, running := t.running && bit t.cfg 0 }
  let c := if bit (r.c (Reg.TMR_CFG n)) 8 then timerEvent r n 1 Cls.info t.reload k c else c
  let c := (List.range 10).foldl (fun c m => if bits (lv r (Reg.LOOP_CFG m)) 12 8 = n then takeSample m c else c) c
  { c with seqs := c.seqs.map fun (q : VSeq) => if q.trig == some n then { q with zeros := q.zeros ++ List.replicate k c.mt.val } else q }

/-- A match of channel `n`, counted `k` times (11 R256, R268); in PARK and WATCH only one with WAKE is reported, as a wake (11 R266). -/
def matchStep (r : Regs) (n k : Nat) (c : Chip) : Chip :=
  if c.parked then
    if bit (r.c (Reg.TMR_CFG n)) 12 then wakeNow r (192 + n) (timerPay 5 (c.timer n).next k) c else c
  else if bit (r.c (Reg.TMR_CFG n)) 9 then timerEvent r n 2 Cls.info (c.timer n).next k c else c

/-- COUNT takes a value: a compare value equal to it, and not above the reload value of the present period, matches (11 R256). -/
def countTakes (r : Regs) (n v : Nat) (c : Chip) : Chip :=
  let t := c.timer n
  let c := c.setTimer n { t with count := v }
  if bit t.cfg 2 && t.cmp == v && decide (t.cmp ≤ t.next) then matchStep r n 1 c else c

/-- The zero step of a channel that counts itself, and of a cascaded high channel that holds 0 (11 R258). -/
def zeroOf (r : Regs) (n : Nat) (c : Chip) : Chip :=
  let c := zeroStep r n 1 c
  if n % 2 = 0 ∧ cascaded c (n + 1) ∧ (c.timer (n + 1)).running ∧ (c.timer (n + 1)).count = 0 then zeroStep r (n + 1) 1 c else c

/-- A cascaded high channel steps or reloads with the reload of its low channel (11 R258). -/
def carryStep (r : Regs) (n : Nat) (c : Chip) : Chip :=
  if n % 2 = 0 ∧ cascaded c (n + 1) ∧ (c.timer (n + 1)).running then
    let t := c.timer (n + 1)
    countTakes r (n + 1) (if t.count = 0 then t.next else t.count - 1) c
  else c

/-- One step of a running channel that counts itself (11 R253, R254). -/
def timerStep (r : Regs) (n : Nat) (c : Chip) : Chip :=
  let t := c.timer n
  if t.count = 0 then
    let c := countTakes r n t.next c
    let c := carryStep r n c
    if t.next = 0 then zeroOf r n c else c
  else
    let c := countTakes r n (t.count - 1) c
    if t.count = 1 then zeroOf r n c else c

/-- A buffer write that waits for its third edge (11 R254, R256): what is in force, and what still waits. -/
def bufEdge (now : Nat) : Option (Nat × Nat) → Nat × Option (Nat × Nat)
  | some (k, v) => if k ≤ 1 then (v, none) else (now, some (k - 1, v))
  | none => (now, none)

/-- The buffer writes of a channel at a CLK_TMR edge (11 R254, R256). -/
def bufStep (t : Timer) : Timer :=
  let rl := bufEdge t.reload t.reloadAt
  let cm := bufEdge t.cmp t.cmpAt
  { t with reload := rl.1, reloadAt := rl.2, cmp := cm.1, cmpAt := cm.2 }

/-- One CLK_TMR edge of channel `n`, its buffers being those of the edge (11 R253 to R258). -/
def timerEdge (r : Regs) (c : Chip) (n : Nat) : Chip :=
  let t := c.timer n
  if !t.running || cascaded c n then c
  else if t.psc + 1 < 2 ^ t.presc then c.setTimer n { t with psc := t.psc + 1 }
  else timerStep r n (c.setTimer n { t with psc := 0 })

/-- One edge of CLK_TMR, every 5 ns (11 R261): MTIME advances by the rate-corrected increment, with its fraction carried, and the channels
that differ from their reset state count. -/
def clkEdge (r : Regs) (c : Chip) : Chip :=
  let total := c.mt.frac + 5 * (1000000000 + c.mt.rate)
  let c := { c with now := c.now + 5, mt := { c.mt with val := c.mt.val + (total / 1000000000).toNat, frac := total % 1000000000 } }
  (c.timers.map fun e => e.1).foldl (timerEdge r) { c with timers := c.timers.map fun e => (e.1, bufStep e.2) }

/-- 25 ns pass without a command (log entry 2): five edges of CLK_TMR, or one of CLK_WNA while MTIME runs in WNA (11 R261). While MTIME
runs from CLK_LF, time passes with LF_TICK. The valves' low sides chop as time passes (07 R166). -/
def idleTick (r : Regs) (c : Chip) : Chip :=
  driveLows <| match c.mt.src with
  | .off => { c with now := c.now + 25 }
  | .ctl => clkEdge r (clkEdge r (clkEdge r (clkEdge r (clkEdge r c))))
  | .wna => { c with now := c.now + 25, mt := { c.mt with val := c.mt.val + 25 } }
  | .lf => c

/-- COMPARE_LATE (11 R256): the value written lies within three steps below the count of a running channel, whether CMP_EN is 1 or not (log
entry 61). -/
def compareLate (t : Timer) (v : Nat) : Bool := t.running && decide (t.count ≤ v + 3) && decide (v < t.count)

/-- A write of the compare value (11 R256). -/
def writeCmp (r : Regs) (n v : Nat) (c : Chip) : Chip :=
  let t := c.timer n
  let c := c.setTimer n { t with cmpAt := some (3, v), late := t.late || compareLate t v }
  if compareLate t v then timerEvent r n 4 Cls.warning v 1 c else c

/-- A write of the reload buffer (11 R254). -/
def writeReload (n v : Nat) (c : Chip) : Chip := c.modTimer n fun t => { t with reloadAt := some (3, v) }

/-- A register of CTL takes a value (16 R356). -/
def State.wrCtl (off v : Nat) (s : State) : State := { s with regs := { s.regs with ctl := s.regs.ctl.wr off v } }

/-- The fields of TMR_CFG. -/
def tmrCfgMask (v : Nat) : Nat := v &&& 0x1FF7

/-- The writes of a TIMER_ARM (11 R267, Table 11.4), made before its action. -/
def armWrites (n : Nat) (reload cmp init cfg : Option Nat) (s : State) : State :=
  let s := match reload with
    | some v => (s.wrCtl (Reg.TMR_RELOAD n) v).onChip fun _ c => writeReload n v c
    | none => s
  let s := match cmp with
    | some v => (s.wrCtl (Reg.TMR_CMP n) v).onChip fun r c => writeCmp r n v c
    | none => s
  let s := match init with
    | some v => s.wrCtl (Reg.TMR_INIT n) v
    | none => s
  match cfg with
  | some v => s.wrCtl (Reg.TMR_CFG n) (tmrCfgMask v)
  | none => s

/-- A channel takes its configuration and its start value and runs (11 R255, R260, R269): TMR_INIT, or RELOAD where it is 0. -/
def startTimer (r : Regs) (n : Nat) (c : Chip) : Chip :=
  let v := if r.c (Reg.TMR_INIT n) = 0 then r.c (Reg.TMR_RELOAD n) else r.c (Reg.TMR_INIT n)
  let c := c.modTimer n fun t => { t with
    cfg := bits (r.c (Reg.TMR_CFG n)) 7 0, running := true, armed := false, psc := 0, frac := 0, next := r.c (Reg.TMR_RELOAD n) }
  countTakes r n v c

/-- RESULT of TIMER_ARM (11 Table 11.4). -/
def armResult (t : Timer) : Nat := flagBits [(0, t.late), (1, t.running), (2, t.armed)]

/-- What the ring engine knows of a TIMER_ARM (11 R267). -/
def armDesc (n : Nat) (cfg : Option (Fin 65536)) : Desc :=
  { opc := 0x70, blk := 0x02, unit := n, valid := match cfg with
      | some v => !(n % 2 == 0 && bit v.val 1)
      | none => true }

/-- Body of a TIMER_ARM whose action is `act` on the channel. -/
def bodyArm (n : Nat) (reload cmp init cfg : Option Nat) (update : Bool) (act : Regs → Chip → Chip) (id : Nat) (s : State) : State :=
  gated (fun r c => checks56 r c 0x02 n ++
      [(update && (c.timer n).running && (match cfg with
          | some v => !(tmrCfgMask v &&& 0xFF == r.c (Reg.TMR_CFG n) &&& 0xFF)
          | none => false), St.busy)])
    (fun id s => (armWrites n reload cmp init cfg s).onChip fun r c =>
      let c := act r c
      complete r id St.ok (armResult (c.timer n)) c) id s

/-- Body of TIMER_ARM START: the channel starts now (11 R267). -/
def bodyArmStart (n : Nat) (reload cmp init cfg : Option Nat) : Nat → State → State :=
  bodyArm n reload cmp init cfg false fun r c => startTimer r n c

/-- TIMER_ARM START (11 R267). -/
def execTimerArmStart (h : Hdr) (u : Fin 32) (reload cmp init : Option (Fin 4294967296)) (cfg : Option (Fin 65536)) (s : State) : Answer :=
  .next (runDesc (armDesc u.val cfg) h (.timerArmStart h u reload cmp init cfg)
    (bodyArmStart u.val (reload.map (·.val)) (cmp.map (·.val)) (init.map (·.val)) (cfg.map (·.val))) s)

/-- Body of TIMER_ARM ARM: the channel waits for a GSTART (11 R267; log entry 33). -/
def bodyArmArm (n : Nat) (reload cmp init cfg : Option Nat) : Nat → State → State :=
  bodyArm n reload cmp init cfg false fun r c =>
    c.modTimer n fun t => { t with armed := true, running := false, cfg := bits (r.c (Reg.TMR_CFG n)) 7 0 }

/-- TIMER_ARM ARM (11 R267). -/
def execTimerArmArm (h : Hdr) (u : Fin 32) (reload cmp init : Option (Fin 4294967296)) (cfg : Option (Fin 65536)) (s : State) : Answer :=
  .next (runDesc (armDesc u.val cfg) h (.timerArmArm h u reload cmp init cfg)
    (bodyArmArm u.val (reload.map (·.val)) (cmp.map (·.val)) (init.map (·.val)) (cfg.map (·.val))) s)

/-- Body of TIMER_ARM STOP: the channel holds its present value (11 R255). -/
def bodyArmStop (n : Nat) (reload cmp init cfg : Option Nat) : Nat → State → State :=
  bodyArm n reload cmp init cfg false fun _ c => c.modTimer n fun t => { t with armed := false, running := false }

/-- TIMER_ARM STOP (11 R255, R267). -/
def execTimerArmStop (h : Hdr) (u : Fin 32) (reload cmp init : Option (Fin 4294967296)) (cfg : Option (Fin 65536)) (s : State) : Answer :=
  .next (runDesc (armDesc u.val cfg) h (.timerArmStop h u reload cmp init cfg)
    (bodyArmStop u.val (reload.map (·.val)) (cmp.map (·.val)) (init.map (·.val)) (cfg.map (·.val))) s)

/-- Body of TIMER_ARM UPDATE: the writes alone; BUSY where a running channel's configuration would change beyond bits [12:8] (11
R267). -/
def bodyArmUpdate (n : Nat) (reload cmp init cfg : Option Nat) : Nat → State → State :=
  bodyArm n reload cmp init cfg true fun _ c => c

/-- TIMER_ARM UPDATE (11 R267). -/
def execTimerArmUpdate (h : Hdr) (u : Fin 32) (reload cmp init : Option (Fin 4294967296)) (cfg : Option (Fin 65536)) (s : State) : Answer :=
  .next (runDesc (armDesc u.val cfg) h (.timerArmUpdate h u reload cmp init cfg)
    (bodyArmUpdate u.val (reload.map (·.val)) (cmp.map (·.val)) (init.map (·.val)) (cfg.map (·.val))) s)

-- Common start ----------------------------------------------------------------------------------------------------------

/-- The rows named in ROWS (11 Table 11.4). -/
def gstartRows (rows : Nat) : List Nat := (List.range 8).filter fun w => rows.testBit w

/-- An instant rounded up to the next CLK_TMR edge, the edges lying 5 ns apart from the last one, at `now` (11 R260, R261; log entry 61). -/
def toEdge (now t : Nat) : Nat := now + (t - now + 4) / 5 * 5

/-- Body of GSTART (11 R260): T0 is scheduled. One whose time passed in a debug halt executes at release with an edge of its own, 2 µs later
(03 Table 3.10; log entry 53). -/
def bodyGstart (at_ : Option Nat) (timers rows : Nat) (id : Nat) (s : State) : State :=
  gated (fun r c => checks56 r c 0x02 0 ++
      [((gstartRows rows).any fun w => !(rowYard w == 2 && c.ycOff) &&
          (!yardCommandable c (rowYard w) || (c.yard (rowYard w)).resetting), St.busy),
       (decide (64 ≤ rows) && c.ycOff, St.supplyLow)])
    (fun id s => s.onChip fun _ c =>
      let late := (c.job id).any fun j => j.aux == 1
      let t0 := toEdge c.mt.val (match at_ with
        | some t => if late || decide (t < c.mt.val) then c.mt.val + 2000 else t
        | none => c.mt.val + 2000)
      { c with gstart := c.gstart ++ [(t0, timers, rows, id)] }) id s

/-- What checks 1 to 4 see of GSTART. -/
def descGstart (h : Hdr) (timers : Fin 4294967296) (rows : Fin 256) (s : State) : Desc :=
  {
      opc := 0x71, blk := 0x02, unit := 0, valid := !(timers.val == 0 && rows.val == 0)
      target := !(s.chip.sys.y3 && decide (64 ≤ rows.val)), lead := 2000
      aux := match h.at_ with
        | some t => b2n (decide (t < s.chip.mt.val + 2000))
        | none => 0 }

/-- GSTART (11 R260, R267). -/
def execGstart (h : Hdr) (timers : Fin 4294967296) (rows : Fin 256) (s : State) : Answer :=
  .next (runDesc (descGstart h timers rows s) h (.gstart h timers rows) (bodyGstart h.at_ timers.val rows.val) s)

/-- GSTART_EDGE (11 R260; 05 R132): at T0 the named channels load their start values and run, and the named rows restart. -/
def gstartEdge (r : Regs) (c : Chip) : Chip :=
  match c.gstart.find? fun g => decide (g.1 ≤ c.mt.val) with
  | none => c
  | some (t0, timers, rows, id) =>
    let c := { c with gstart := c.gstart.filter fun g => !(g.2.2.2 == id) }
    let late := (c.job id).any fun j => j.aux == 1
    let c := ((List.range 32).filter fun n => timers.testBit n).foldl (fun c n => startTimer r n c) c
    let c := (gstartRows rows).foldl (fun c w => c.modRow w fun x => { x with aligned := true, start := c.now }) c
    completeAt r id St.ok (b2n late) t0 c

/-- GSTART_EDGE (11 R260). -/
def execGstartEdge (s : State) : Answer := .next (s.onChip gstartEdge)

-- Happenings of a channel -------------------------------------------------------------------------------------------------

/-- TIMER_ZERO_STEP (11 R253, R254, R258): the count of a running channel reaches 0. -/
def execTimerZeroStep (n : Fin 32) (s : State) : Answer :=
  .next (s.onChip fun r c =>
    if !(c.timer n.val).running then c
    else if cascaded c n.val then
      if (c.timer (n.val - 1)).running then
        zeroOf r (n.val - 1) ((c.modTimer n.val fun t => { t with count := 0 }).modTimer (n.val - 1) fun t => { t with count := 0, psc := 0 })
      else c
    else zeroOf r n.val (c.modTimer n.val fun t => { t with count := 0, psc := 0 }))

/-- TIMER_MATCH (11 R256): the count of a running channel takes its compare value. -/
def execTimerMatch (n : Fin 32) (s : State) : Answer :=
  .next (s.onChip fun r c =>
    if (c.timer n.val).running then countTakes r n.val (c.timer n.val).cmp c else c)

/-- A captured edge (11 R257): its MTIME and the interval since the previous one in 5 ns; the first edge has none, and its interval is a
free value. -/
def capture (r : Regs) (n : Nat) (c : Chip) : Chip :=
  let t := c.timer n
  let (v, c) := if t.capSeen then (min 0xFFFFFFFF ((c.mt.val - t.capT) / 5), c) else c.fresh 32
  let c := c.modTimer n fun t => { t with capT := c.mt.val, capSeen := true, capIv := v }
  if bit (r.c (Reg.TMR_CFG n)) 10 then timerEvent r n 3 Cls.info v 1 c else c

-- Low-frequency running -----------------------------------------------------------------------------------------------------

/-- A channel's count after `m` steps from `cnt`, its zero steps and its reloads (11 R265): `nx` is the value it takes after a zero step it has
made already, `rl` the one after a later zero step. -/
def lfSpan (cnt nx rl m : Nat) (periodic : Bool) : Nat × Nat × Nat :=
  if m = 0 ∨ (cnt = 0 ∧ !periodic) then (cnt, 0, 0)
  else
    let top := if cnt = 0 then nx + 1 else cnt
    let re := if cnt = 0 then 1 else 0
    if m < top then (top - m, 0, re)
    else if m = top ∨ !periodic then (0, 1, re)
    else
      let rest := m - top - 1
      (rl - rest % (rl + 1), 1 + (rest + 1) / (rl + 1), re + 1 + rest / (rl + 1))

/-- How often the compare value lies among the values taken in `m` steps from `cnt`, none above the reload value of its period (11 R256,
R265). -/
def lfMatches (cnt nx rl m cmp : Nat) (periodic : Bool) : Nat :=
  if cnt = 0 ∧ !periodic then 0
  else
    let top := if cnt = 0 then nx + 1 else cnt
    let leg := if cmp < top ∧ top ≤ cmp + m ∧ cmp ≤ nx then 1 else 0
    if !periodic || decide (m ≤ top) then leg
    else
      let rest := m - top - 1
      leg + (if cmp ≤ rl ∧ rl - cmp ≤ rest then (rest - (rl - cmp)) / (rl + 1) + 1 else 0)

/-- Zero steps of a cascaded high channel: those zero steps of its low channel at which it holds 0. `h` is its count, `pre` whether the
first of `k` zero steps precedes the first reload; it steps between two zero steps (11 R258, R265). -/
def carryZeros (nx rl h : Nat) (pre : Bool) (k : Nat) (periodic : Bool) : Nat :=
  let h := if pre then h else if h = 0 then nx else h - 1
  if k ≤ h then 0 else if periodic then 1 + (k - h - 1) / (rl + 1) else 1

/-- `n` low-frequency steps of a channel, and of the high channel of its pair (11 R265): each cause once, with its count. -/
def lfAdvance (r : Regs) (n m : Nat) (c : Chip) : Chip :=
  let t := c.timer n
  let sp := lfSpan t.count t.next t.reload m (bit t.cfg 0)
  let ms := if bit t.cfg 2 then lfMatches t.count t.next t.reload m t.cmp (bit t.cfg 0) else 0
  let hi := c.timer (n + 1)
  let pair := n % 2 == 0 && cascaded c (n + 1) && hi.running
  let hz := if pair then carryZeros hi.next hi.reload hi.count (decide (t.count ≠ 0)) sp.2.1 (bit hi.cfg 0) else 0
  let hs := lfSpan hi.count hi.next hi.reload sp.2.2 (bit hi.cfg 0)
  let hm := if pair && bit hi.cfg 2 then lfMatches hi.count hi.next hi.reload sp.2.2 hi.cmp (bit hi.cfg 0) else 0
  let c := c.modTimer n fun t => { t with count := sp.1 }
  let c := if sp.2.1 = 0 then c else zeroStep r n sp.2.1 c
  let c := if ms = 0 then c else matchStep r n ms c
  if !pair then c
  else
    let c := c.modTimer (n + 1) fun t => { t with count := hs.1 }
    let c := if hz = 0 then c else zeroStep r (n + 1) hz c
    if hm = 0 then c else matchStep r (n + 1) hm c

/-- Channel `n` at a tick (11 R265): 6,103.515625 edges, in steps rounded to the nearest whole with the fraction carried. -/
def lfTimer (r : Regs) (c : Chip) (n : Nat) : Chip :=
  let t := c.timer n
  if !(t.lf && t.running) || cascaded c n then c
  else
    let unit : Int := 64 * (2 ^ t.presc : Nat)
    let total := t.frac + 390625
    let m := (2 * total + unit) / (2 * unit)
    lfAdvance r n m.toNat (c.setTimer n { t with frac := total - m * unit })

/-- LF_TICK (11 R265): MTIME adds 30,517.578125 ns, rounded to the nearest whole with the fraction carried, and the channels in
low-frequency mode advance. -/
def execLfTick (s : State) : Answer :=
  .next (s.onChip fun r c =>
    if c.mt.src != .lf then c
    else
      let total := c.mt.frac + 30517578125000
      let m := (2 * total + 1000000000) / 2000000000
      let c := { c with mt := { c.mt with val := c.mt.val + m.toNat, frac := total - m * 1000000000 }, now := c.now + m.toNat }
      (c.timers.map fun e => e.1).foldl (lfTimer r) c)

-- Module time -------------------------------------------------------------------------------------------------------------

/-- A signed number saturated to 32 bits. -/
def sat32 (x : Int) : Int := clampI (-2147483648) 2147483647 x

/-- The payload of a module-time event: the offset and the slave port (11 R268). -/
def timePay (cause : Nat) (offset : Int) (port : Nat) : Nat := pay ([cause] ++ four (ofSigned 32 (sat32 offset)) ++ [port])

/-- A module-time event on source 191 (11 R268). -/
def timeEvent (r : Regs) (cause cls : Nat) (c : Chip) : Chip := raise r 191 cls (timePay cause c.mt.offset c.mt.slavePort) c

/-- gPTP runs on a backbone port (11 Table 11.6): not while CTL is in reset or halted (03 R77). -/
def gptpOn (r : Regs) (c : Chip) (p : Nat) : Bool :=
  c.fwRuns && !c.sys.halted && bit (r.c Reg.TIME_CFG) 8 && bit (r.c Reg.TIME_CFG) (9 + p) && domBit r c 0

/-- MTIME steps forward (11 R263): timer channels and rows do not move; the offset that TIME_STEP reports is made up. -/
def stepTime (r : Regs) (d : Nat) (c : Chip) : Chip :=
  let c := timeEvent r 0x41 Cls.time { c with mt := { c.mt with val := c.mt.val + d } }
  { c with mt := { c.mt with offset := 0, firstSync := true } }

/-- A sync with an offset (11 R263). The rate correction within ±500 ppm is a free value where the rule gives no more. The first lock steps
where MTIME is behind; it never runs backwards (11 R261; log entry 61). -/
def syncRx (r : Regs) (p : Nat) (d : Int) (c : Chip) : Chip :=
  let first := !c.mt.firstSync
  let m := { c.mt with slaveOk := true, slavePort := p, offset := d }
  if 10000000000 < d then
    let c := { c with mt := { m with st := 3, behind := true } }
    if m.behind then c else timeEvent r 0x43 Cls.fault c
  else if 1000000 < d then { c with mt := { m with st := 1, behind := false, rate := -500000 } }
  else if d < -1000000 ∨ (first ∧ d < 0) then stepTime r d.natAbs { c with mt := { m with st := 1, behind := false } }
  else
    let (v, c) := c.fresh 20
    { c with mt := { m with st := if m.st = 2 then 2 else 1, behind := false, rate := (v % 1000001 : Nat) - 500000 } }

/-- TIME_LOCKED (11 R263): the offset has stayed within 80 ns for 1 s. -/
def execTimeLocked (s : State) : Answer :=
  .next (s.onChip fun r c =>
    if c.fwRuns && !c.sys.halted && c.mt.slaveOk && decide (c.mt.offset.natAbs ≤ 80) && !(c.mt.st == 2) then
      timeEvent r 0x40 Cls.time { c with mt := { c.mt with st := 2, firstSync := true } }
    else c)

/-- TIME_HOLDOVER (11 R263): sync is lost, and the last rate correction stays. -/
def execTimeHoldover (s : State) : Answer :=
  .next (s.onChip fun r c =>
    if c.fwRuns && !c.sys.halted && c.mt.slaveOk then
      timeEvent r 0x42 Cls.warning { c with mt := { c.mt with st := 3, slaveOk := false } }
    else c)

/-- Which of two announced clocks is better (11 R262: BMCA): the lower priority1, then the lower rest of the system identity, then the
lower clock identity. -/
def betterClock (p1 q1 i1 p2 q2 i2 : Nat) : Bool :=
  decide (p1 < p2) || (p1 == p2 && (decide (q1 < q2) || (q1 == q2 && decide (i1 < i2))))

/-- The announce of the grandmaster goes on to the other port (11 R262: a time-aware bridge). -/
def passAnnounce (r : Regs) (p prio qual gm : Nat) (c : Chip) : Chip :=
  if gptpOn r c (1 - p) then c.emit (.gptp (1 - p) 5 [(prio : Int), (qual : Int), (gm : Int)]) else c

/-- GPTP_ANNOUNCE (11 R262, R263): a clock better than the present grandmaster, and than the module itself where it is
grandmaster-capable, is selected, and any once the sync of the present one is lost (log entry 61); where priority1 leaves that open against the module, a free value decides. -/
def execGptpAnnounce (p : Fin 2) (prio : Fin 256) (qual gm : Nat) (s : State) : Answer :=
  .next (s.onChip fun r c =>
    if !gptpOn r c p.val then c
    else
      let own := bits (r.c Reg.TIME_CFG) 7 0
      let (v, c) := if own ≠ 255 ∧ own = prio.val then c.fresh 1 else (1, c)
      let beatsOwn := own == 255 || decide (prio.val < own) || (own == prio.val && v == 1)
      let beatsGm := match c.mt.gm with
        | some g => (c.mt.st == 3 && !c.mt.slaveOk) || betterClock prio.val qual gm c.mt.gmPrio c.mt.gmQual g
        | none => true
      if c.mt.gm == some gm then
        passAnnounce r p.val prio.val qual gm { c with mt := { c.mt with gmPrio := prio.val, gmQual := qual, slavePort := p.val } }
      else if beatsOwn && beatsGm then
        passAnnounce r p.val prio.val qual gm <| timeEvent r 0x44 Cls.time { c with mt := { c.mt with gm := some gm, gmPrio := prio.val, gmQual := qual, slavePort := p.val, behind := false } }
      else c)

/-- GPTP_PDELAY (11 R262): kind 0, the interval of logPdelayReqInterval expires and a request is sent; 1, a request is received and
answered in two steps; 2, a response completes a measurement of `delay` ns. -/
def execGptpPdelay (p : Fin 2) (kind : Fin 3) (delay : Nat) (s : State) : Answer :=
  .next (s.onChip fun r c =>
    if !gptpOn r c p.val then c
    else if kind = 0 then c.emit (.gptp p.val 2 [])
    else if kind = 1 then (c.emit (.gptp p.val 3 [])).emit (.gptp p.val 4 [])
    else if p = 0 then { c with mt := { c.mt with delay0 := delay } }
    else { c with mt := { c.mt with delay1 := delay } })

/-- An interval asked for by signalling, as log2 s (11 R262; IEEE 802.1AS: -128 keeps it, 126 returns to the configured one). -/
def askedInterval (asked : Int) (present : Option Int) : Option Int :=
  if asked = -128 then present else if asked = 126 then none else some asked

/-- GPTP_SIGNALING (11 R262): an interval request is obeyed on its port. -/
def execGptpSignaling (p : Fin 2) (logSync logPdelay : Int) (s : State) : Answer :=
  .next (s.onChip fun r c =>
    let ask (x : Option Int × Option Int) : Option Int × Option Int :=
      (askedInterval (clampI (-128) 127 logSync) x.1, askedInterval (clampI (-128) 127 logPdelay) x.2)
    if !gptpOn r c p.val then c
    else if p = 0 then { c with mt := { c.mt with asked0 := ask c.mt.asked0 } }
    else { c with mt := { c.mt with asked1 := ask c.mt.asked1 } })

/-- The sync and pdelay intervals in force on a backbone port, log2 s (11 R262, Table 11.6). -/
def gptpIntervals (r : Regs) (c : Chip) (p : Nat) : Int × Int :=
  let x := if p = 0 then c.mt.asked0 else c.mt.asked1
  (x.1.getD (toSigned 4 (bits (r.c Reg.TIME_CFG) 19 16)), x.2.getD (toSigned 4 (bits (r.c Reg.TIME_CFG) 23 20)))

/-- TMR_STATUS (11 Table 11.6). -/
def timerStatus (t : Timer) : Nat := flagBits [(0, t.running), (1, t.armed), (2, t.late), (3, t.lf)] + t.zeros % 65536 * 2 ^ 16

/-- TIME_STATUS (11 Table 11.6). -/
def timeStatus (m : Mt) : Nat :=
  m.st % 4 + flagBits [(2, m.behind), (3, m.src == .lf), (4, m.slaveOk)] + m.slavePort % 2 * 2 ^ 5 +
    ofSigned 16 (clampI (-32768) 32767 m.offset) * 2 ^ 16

end Sys2Proof.Machine
end

