-- ==== Sys2Proof/Machine/Dio.lean ====
section
/-!
DEFINITION. Sys2Proof/Machine/Dio.lean: switch inputs, park polling, snapshots, encoder and analog inputs and signal outputs (10), and the
completion of turn-ons and turn-offs of stalls and signal outputs (05 R135, 10 R249).
-/

namespace Sys2Proof.Machine

-- Input types -------------------------------------------------------------------------------------------------------------

/-- TYPE of a switch input; 5 to 7 act as 0 (10 Table 10.1). -/
def siType (r : Regs) (n : Nat) : Nat := if 4 < bits (r.h (Reg.SI_CFG n)) 2 0 then 0 else bits (r.h (Reg.SI_CFG n)) 2 0

/-- The resistance that an input voltage means at 2 mA, in half ohms, so that the windows compare exactly: none where the sink is out of
regulation (10 R235). -/
def siHalfOhm (vb mv : Int) : Option Nat := if mv < 1000 then none else some (vb - mv).toNat

/-- The current a HALL2 input measures in µA: up to its limit of 25 mA (10 R235). -/
def hallUa (m : Int) : Int := min 25000 m

/-- The raw code of a measurement before INVERT (10 Tables 10.1, 10.2): mV at the input, or µA for HALL2. -/
def rawOf (ty prev : Nat) (vb m : Int) : Nat :=
  match ty with
  | 2 => match siHalfOhm vb m with
    | none => 7
    | some x => if x < 300 then 0 else if x < 900 then 1 else if x < 1600 then 2 else if x < 2500 then 3 else if x < 3500 then 4
      else if x < 4700 then 5 else if x ≤ 6200 then 6 else 7
  | 3 =>
    let i := hallUa m
    if i < 3500 then 2 else if i < 10500 then 0 else if i ≤ 20000 then 1 else 3
  | 4 => match siHalfOhm vb m with
    | none => 2
    | some x => if x < 1000 then 3 else if x < 3000 then 1 else if x ≤ 6000 then 0 else 2
  | 1 => if m < 6000 then 0 else if 9000 < m then 1 else prev
  | _ => if m < 3000 then 0 else if 4500 < m then 1 else prev

/-- INVERT swaps ACTIVE and INACTIVE, LOW and HIGH (10 R237). -/
def invertCode (r : Regs) (n code : Nat) : Nat :=
  if bit (r.h (Reg.SI_CFG n)) 3 && !(siType r n == 2) && decide (code ≤ 1) then 1 - code else code

/-- The raw code of input `n` for a measurement, given its previous raw code. -/
def siRaw (r : Regs) (n prev : Nat) (vb m : Int) : Nat := invertCode r n (rawOf (siType r n) (invertCode r n prev) vb m)

/-- CODE is OPEN or SHORT (10 Tables 10.1, 10.2). -/
def codeFault (ty code : Nat) : Bool := if ty = 2 then code == 7 else (ty == 3 || ty == 4) && decide (2 ≤ code)

/-- A code is ACTIVE (10 R235, R236). -/
def codeActive (ty code : Nat) : Bool := if ty = 2 then decide (1 ≤ code) && decide (code ≤ 6) else code == 1

/-- MEAS in its unit (10 Table 10.9). -/
def measWord (ty : Nat) (vb m : Int) : Nat :=
  if ty = 2 ∨ ty = 4 then min 65535 (((siHalfOhm vb m).getD 131070) / 2)
  else if ty = 3 then (hallUa m / 10).toNat else min 65535 (m / 10).toNat

/-- VALID of an input (10 R237); an input without a CODE since its halter was cleared has none (log entry 60). -/
def siValid (r : Regs) (n : Nat) (x : Si) : Bool := x.known && !codeFault (siType r n) x.code

/-- The payload of an input's events for a code (10 R250); VALID is that of an input that has a CODE. -/
def siPay (r : Regs) (n cause code : Nat) (x : Si) : Nat :=
  pay ([cause, code + b2n (codeActive (siType r n) code) * 16 + b2n (siValid r n { x with code := code }) * 32] ++ two x.meas ++ two x.changes)

/-- YD measures its inputs: STANDBY or RUN with PD_DIO on and the yard supplied (10 R237; 02 Table 2.5). -/
def dioOn (r : Regs) (c : Chip) : Bool := domBit r c 3 && (c.yard 3).supplied

/-- An input keeps its CODE with LOWV (10 R239). -/
def siLow (r : Regs) (c : Chip) (n : Nat) : Bool :=
  decide ((c.feed 2).band < 3) || ((siType r n == 2 || siType r n == 4) && decide ((c.feed 2).mv < 8000))

/-- A new CODE is adopted (10 R237): its event carries the instant of the first sample that agreed, and leaving OPEN or SHORT raises
WIRE_OK. -/
def adoptCode (r : Regs) (n code t : Nat) (c : Chip) : Chip :=
  let ty := siType r n
  let was := codeFault ty (c.si n).code
  let c := c.modSi n fun x => { x with code := code, changes := (x.changes + 1) % 65536 }
  if !bit (r.h (Reg.SI_CFG n)) 15 then c
  else
    let x := c.si n
    let c := if codeFault ty code then yardEventAt (125 + n) Cls.fault (siPay r n 2 code x) t c
      else yardEventAt (125 + n) Cls.state (siPay r n 1 code x) t c
    if was && !codeFault ty code then yardEventAt (125 + n) Cls.diag (siPay r n 3 code x) t c else c

/-- The condition of R239 at input `n`: LOWV is raised once on entering it, and debouncing restarts when it ends (10 R239). -/
def siLowv (r : Regs) (c : Chip) (n : Nat) : Chip :=
  let x := c.si n
  let low := siLow r c n
  if low == x.lowv then c
  else
    let c := c.setSi n { x with lowv := low, cnt := 0 }
    if low then yardEvent (125 + n) Cls.warning (siPay r n 6 x.code x) c else c

/-- VBAT_D has changed: every input enters or leaves the condition of R239, where YD measures its inputs (10 R239; log entry 60). -/
def lowInputs (r : Regs) (c : Chip) : Chip := if dioOn r c then (List.range 48).foldl (siLowv r) c else c

/-- WET of a switch input: for STD12 and STD24 alone; 3 acts as 0 (10 R238, Table 10.9). -/
def siWet (r : Regs) (n : Nat) : Nat :=
  let w := bits (r.h (Reg.SI_CFG n)) 5 4
  if 1 < siType r n ∨ w = 3 then 0 else w

/-- The current the sink of input `n` draws at a sample in mA (10 R235, R238): 10 while wetting runs and, with WET = 2, for the 100 µs that end
at the sample instant; 2 otherwise; HALL2 does not regulate. -/
def siSinkMa (r : Regs) (n : Nat) (x : Si) : Nat :=
  if siType r n = 3 then 0 else if x.wet ∨ siWet r n = 2 then 10 else 2

/-- One sample of input `n` (10 R237 to R239). The first raw ACTIVE sample after an INACTIVE CODE starts the wetting of WET = 1, LOWV or not. -/
def siSample (r : Regs) (m : Int) (c : Chip) (n : Nat) : Chip :=
  let c := siLowv r c n
  let x := c.si n
  let ty := siType r n
  let vb := (c.feed 2).mv
  let raw := siRaw r n x.raw vb m
  let wet := x.wet || (siWet r n == 1 && x.code == 0 && raw == 1 && !(x.raw == 1))
  let x := { x with raw := raw, meas := measWord ty vb m, sinkMa := siSinkMa r n x, wet := wet }
  if x.lowv then c.setSi n { x with cnt := 0 }
  else
    let agrees := x.cand == raw && x.cnt != 0
    let cnt := if agrees then min 15 (x.cnt + 1) else 1
    let t := if agrees then x.candT else c.mt.val
    let done := decide (max 1 (bits (r.h (Reg.SI_CFG n)) 11 8) ≤ cnt)
    let c := c.setSi n { x with cand := raw, cnt := cnt, candT := t, known := x.known || done }
    if done && !(raw == x.code) then adoptCode r n raw t c else c

/-- An operand's measurement of one input. -/
def measAt (l : List Int) (n : Nat) : Int := l.getD n 0

-- Snapshots ---------------------------------------------------------------------------------------------------------------

/-- A word of one bit per switch input. -/
def siBits (p : Nat → Bool) : Nat := flagBits ((List.range 48).map fun n => (n, p n))

/-- The bytes of a snapshot, with the raw codes of `raw` (10 Table 10.4). -/
def snapRecord (r : Regs) (c : Chip) (raw : Nat → Nat) : List Nat :=
  leBytes 8 (siBits fun n => codeActive (siType r n) (c.si n).code) ++ leBytes 8 (siBits fun n => codeActive (siType r n) (raw n)) ++
    leBytes 8 (siBits fun n => siValid r n (c.si n)) ++
    ((List.range 24).map fun k => (c.si (2 * k)).code % 16 + (c.si (2 * k + 1)).code % 16 * 16) ++
    leBytes 8 c.mt.val ++ List.replicate 8 0 ++ ((List.range 12).flatMap fun k => leBytes 4 (UMap.get 0 c.halt.encs k)) ++
    ((List.range 8).flatMap fun k => leBytes 2 (c.ain k).val)

/-- RESULT of SI_SNAPSHOT (10 Table 10.3). -/
def snapResult (r : Regs) (c : Chip) : Nat :=
  b2n ((List.range 48).all fun n => siValid r n (c.si n) && !(c.si n).lowv) +
    ((List.range 48).filter fun n => codeFault (siType r n) (c.si n).code).length * 256

/-- A snapshot is written and its result reported. -/
def takeSnap (r : Regs) (raw : Nat → Nat) (c : Chip) (x : Nat × Nat) : Chip :=
  yardResult 3 x.1 St.ok (snapResult r c) (dmaJob x.1 x.2 (snapRecord r c raw) c)

/-- SI_SNAPSHOT in YD (10 R242): with FRESH it waits for one sample of every input. -/
def askSnap (fresh : Bool) (addr : Nat) (id : Nat) (r : Regs) (c : Chip) : Chip :=
  if fresh then { c with halt := { c.halt with snaps := c.halt.snaps ++ [(id, addr)] } }
  else takeSnap r (fun n => (c.si n).raw) c (id, addr)

/-- Body of SI_SNAPSHOT (10 R242). -/
def bodySiSnapshot (u : Nat) (fresh : Bool) (addr : Nat) (id : Nat) (s : State) : State :=
  gated (fun r c => checks56 r c 0x12 u)
    (fun id s => yardCommand 3 id none (State.onChip (askSnap fresh addr id)) s) id s

/-- A unit of block SI: switch, encoder or analog input (01 Table 1.2; 10 R242). -/
def siUnit (u : Nat) : Bool := decide (u < 48) || (decide (64 ≤ u) && decide (u < 76)) || (decide (80 ≤ u) && decide (u < 88))

/-- What checks 1 to 4 see of SI_SNAPSHOT. -/
def descSiSnapshot (u : Fin 128) (addr : Nat) : Desc :=
  { opc := 0x21, blk := 0x12, unit := u.val, valid := decide (addr % 64 = 0), target := siUnit u.val, bufs := [(addr, 128, true)] }

/-- SI_SNAPSHOT (10 R242). -/
def execSiSnapshot (h : Hdr) (u : Fin 128) (fresh : Bool) (addr : Nat) (s : State) : Answer :=
  .next (runDesc (descSiSnapshot u addr)
    h (.siSnapshot h u fresh addr) (bodySiSnapshot u.val fresh addr) s)

/-- SI_SAMPLE (10 R237): every input is sampled; a sample taken for waiting FRESH snapshots gives their raw values and leaves the
debounced state as it is (10 R242). `m` holds mV at each input, µA for HALL2. -/
def execSiSample (m : List Int) (s : State) : Answer :=
  .next (s.onChip fun r c =>
    if !dioOn r c then c
    else if !c.halt.snaps.isEmpty then
      let raw := fun n => siRaw r n (c.si n).raw (c.feed 2).mv (measAt m n)
      c.halt.snaps.foldl (takeSnap r raw) { c with halt := { c.halt with snaps := [] } }
    else (List.range 48).foldl (fun c n => siSample r (measAt m n) c n) c)

/-- WETTING_END (10 R238). -/
def execWettingEnd (n : Fin 48) (s : State) : Answer := .next (s.onChip fun _ c => c.modSi n.val fun x => { x with wet := false })

-- Park polling --------------------------------------------------------------------------------------------------------------

/-- One poll of input `n` in PARK or WATCH (10 R240), against VBAT_AON: a code confirmed by PARK_DEB polls is kept by WNA, and wakes the
module where WAKE_EDGE asks for it or it is newly OPEN or SHORT. -/
def parkPoll (r : Regs) (m : Int) (c : Chip) (n : Nat) : Chip :=
  let w := r.h (Reg.SI_CFG n)
  let x := c.si n
  let ty := siType r n
  if !bit w 12 then c
  else
    let raw := siRaw r n x.parkCand (c.feed 4).mv m
    let agrees := x.parkCand == raw && x.parkCnt != 0
    let cnt := if agrees then min 3 (x.parkCnt + 1) else 1
    let t := if agrees then x.parkT else c.mt.val
    let x := { x with parkCand := raw, parkCnt := cnt, parkT := t, meas := measWord ty (c.feed 4).mv m }
    if max 1 (bits (r.h Reg.DIO_CFG) 27 26) ≤ cnt ∧ raw ≠ x.parkCode then
      let active := codeActive ty
      let inactive := fun k => !codeActive ty k && !codeFault ty k
      let edge := bits w 14 13
      let wakes := (active raw && !active x.parkCode && (edge == 1 || edge == 3)) ||
        (inactive raw && !inactive x.parkCode && (edge == 2 || edge == 3)) || codeFault ty raw
      let x := { x with parkCode := raw, known := true }
      let c := c.setSi n x
      if wakes then fireWake r (125 + n) (siPay r n 4 raw x) t c else c
    else c.setSi n x

/-- PARK_POLL (10 R240). -/
def execParkPoll (m : List Int) (s : State) : Answer :=
  .next (s.onChip fun r c => if c.parked && c.sys.aon then (List.range 48).foldl (fun c n => parkPoll r (measAt m n) c n) c else c)

/-- Polling starts in PARK or WATCH from the CODE the halter keeps, and no wetting runs (10 R238, R240). -/
def startPolling (c : Chip) : Chip :=
  (List.range 48).foldl (fun c n => c.modSi n fun x => { x with parkCode := x.code, parkCand := x.code, parkCnt := 0, wet := false }) c

/-- Active sampling starts after PARK or WATCH: polled inputs take WNA's confirmed CODE over without an event; the others debounce afresh
(10 R241). -/
def endPolling (r : Regs) (c : Chip) : Chip :=
  (List.range 48).foldl (fun c n => c.modSi n fun x =>
    if bit (r.h (Reg.SI_CFG n)) 12 then { x with code := x.parkCode, cnt := 0 } else { x with cnt := 0 }) c

-- Encoder and analog inputs ---------------------------------------------------------------------------------------------------

/-- The edge of encoder input `k` for loop `n` (08 R196): QUAD counts four per period, the input ENC leading ENC + 1 being positive; an
edge that leaves the level unchanged is illegal; HALL1 counts with the sign of the applied duty. -/
def encLoop (r : Regs) (k : Nat) (rising : Bool) (c : Chip) (n : Nat) : Chip :=
  let e := bits (lv r (Reg.LOOP_CFG n)) 7 4
  let lvl := fun k => UMap.get false c.halt.encLv k
  let src := posSrc r n
  if src = 1 ∧ (k = e ∨ k = e + 1) then
    if lvl k == rising then setUncertain r n c
    else
      let up := if k = e then rising != lvl (e + 1) else rising == lvl e
      moveCount r n (if up then 1 else -1) false c
  else if src = 2 ∧ k = e then moveCount r n (sgn (c.loop n).dutyOut) false c
  else c

/-- ENC_EDGE (10 R243): the edge is counted where EDGE selects it, captured with CAP_EN, and counts for the Bridle loops. -/
def execEncEdge (k : Fin 12) (rising : Bool) (s : State) : Answer :=
  .next (s.onChip fun r c =>
    if !dioOn r c then c
    else
      let w := r.h (Reg.ENC_CFG k.val)
      let sel := bits w 15 14
      let counts := if sel = 0 then rising else if sel = 1 then !rising else true
      let c := (List.range 10).foldl (encLoop r k.val rising) c
      let c := { c with halt := { c.halt with encLv := c.halt.encLv.put k.val rising } }
      if !counts then c
      else
        let c := { c with halt := { c.halt with encs := c.halt.encs.put k.val ((UMap.get 0 c.halt.encs k.val + 1) % 2 ^ 32) } }
        if bit w 13 && c.fwRuns then capture r (bits w 12 8) c else c)

/-- One conversion of analog input `m` (10 R244). -/
def ainConvert (r : Regs) (v : Nat) (c : Chip) (m : Nat) : Chip :=
  let v := min 4095 v
  let lo := bits (r.h (Reg.AIN_LIM m)) 11 0
  let hi := bits (r.h (Reg.AIN_LIM m)) 27 16
  let w := r.h (Reg.AIN_CFG m)
  let out := decide (v < lo) || decide (hi < v)
  let back := decide (lo + 16 ≤ v) && decide (v + 16 ≤ hi)
  let a := c.ain m
  let leaves := out && !(a.below || a.above)
  let c := c.setAin m { val := v, below := decide (v < lo), above := decide (hi < v), outW := out || (a.outW && !back) }
  if bit w 14 && (leaves || (a.outW && back)) then
    yardEvent (125 + min 47 (bits w 13 8)) Cls.limit (pay ([5, m] ++ two v ++ [b2n leaves])) c
  else c

/-- AIN_CONVERSION (10 R244): `v` holds the eight values. -/
def execAinConversion (v : List Nat) (s : State) : Answer :=
  .next (s.onChip fun r c => if dioOn r c then (List.range 8).foldl (fun c m => ainConvert r (v.getD m 0) c m) c else c)

-- Signal outputs ----------------------------------------------------------------------------------------------------------------

/-- The output that leads output `n`: the even one of a formed pair, else itself (10 R245). -/
def doLeader (c : Chip) (n : Nat) : Nat := if n % 2 = 1 ∧ (c.dout (n - 1)).pair then n - 1 else n

/-- The payload of a signal output's events (10 R250). -/
def doPay (n cause : Nat) (c : Chip) : Nat :=
  let d := c.dout n
  pay ([cause, d.att % 8 + b2n d.latched * 8] ++ two d.iMa.toNat ++ [(clampI 0 255 (d.tj / 1000 + 50)).toNat])

/-- An event of a signal output (10 R250). -/
def doEvent (n cause cls : Nat) (c : Chip) : Chip := yardEvent (113 + n) cls (doPay n cause c) c

/-- RESULT of DO_SET (10 Table 10.6). -/
def doResult (d : DOut) : Nat :=
  flagBits [(0, d.on), (1, d.latched), (2, d.openLoad), (3, d.tripped)] + d.iMa.toNat % 65536 * 65536

/-- The pending DO_SET of an output complete with a status. -/
def finishDo (n st : Nat) (c : Chip) : Chip :=
  let d := c.dout n
  (d.jobs.foldl (fun c id => yardResult 3 id st (doResult d) c) c).modDout n fun d => { d with jobs := [] }

/-- An output starts to rise. -/
def doRise (d : DOut) : DOut := { d with on := true, up := false, waiting := false, falling := false, limiting := false }

/-- An output starts to fall, or is off already. -/
def doFall (d : DOut) : DOut := { d with on := false, up := false, falling := d.on || d.falling, limiting := false }

/-- DO_SET in YD (10 R249): pending ones of the other direction complete first. -/
def doSet (n : Nat) (on clear : Bool) (id : Nat) (c : Chip) : Chip :=
  let c := if clear then c.modDout n fun d => { d with latched := false, att := 0, openLoad := false } else c
  let d := c.dout n
  let c := if d.req == on then c else finishDo n St.ok c
  let now (c : Chip) : Chip := yardResult 3 id St.ok (doResult (c.dout n)) c
  let wait (f : DOut → DOut) : Chip := c.modDout n fun d => f { d with req := on, jobs := d.jobs ++ [id] }
  if on then
    if d.on && d.up then now (c.modDout n fun d => { d with req := true })
    else if d.on || d.waiting then wait fun d => d
    else wait fun d => doRise { d with tripped := false }
  else if d.on || d.falling then wait fun d => doFall { d with waiting := false }
  else now (c.modDout n fun d => { d with req := false, waiting := false })

/-- Body of DO_SET (10 R248, R249). -/
def bodyDoSet (n : Nat) (on clear : Bool) (id : Nat) (s : State) : State :=
  gated (fun r c => checks56 r c 0x11 n ++ [(on && (c.yard 3).lockout, St.supplyLow), ((c.dout n).latched && !clear, St.latched)])
    (fun id s => yardCommand 3 id none (State.onChip fun _ c => doSet n on clear id c) s) id s

/-- What checks 1 to 4 see of DO_SET. -/
def descDoSet (u : Fin 12) (s : State) : Desc :=
  { opc := 0x20, blk := 0x11, unit := u.val, target := doLeader s.chip u.val == u.val }

/-- DO_SET (10 R249): the odd member of a formed pair, judged at fetch, is no target. -/
def execDoSet (h : Hdr) (u : Fin 12) (on clear : Bool) (s : State) : Answer :=
  .next (runDesc (descDoSet u s) h (.doSet h u on clear)
    (bodyDoSet u.val on clear) s)

/-- A trip of an output (10 R246): off, ATT counts, latched at RETRY_N, else waiting for its retry; a pending turn-on completes. -/
def doTrip (r : Regs) (n cause : Nat) (thermal : Bool) (c : Chip) : Chip :=
  let d := c.dout n
  if !d.on then c
  else
    let att := min 7 (d.att + 1)
    let latch := decide (max 1 (bits (r.h (Reg.DO_CFG n)) 2 0) ≤ att)
    let c := c.setDout n (doFall { d with
      att := att, latched := latch, req := d.req && !latch, waiting := !latch, tripT := c.now, tripped := true
      thermal := d.thermal || thermal })
    let c := doEvent n cause Cls.fault c
    let c := if latch then doEvent n 0x13 Cls.latched c else c
    finishDo n (if latch then St.latched else St.ok) c

/-- DO_TRIP (10 R246): the output limited for 500 µs. -/
def execDoTrip (n : Fin 12) (s : State) : Answer :=
  .next (s.onChip fun r c => doTrip r (doLeader c n.val) 0x11 false (c.modDout (doLeader c n.val) fun d => { d with limiting := d.on }))

/-- DO_THERMAL (10 R246): the output reaches its thermal trip at `tj` m°C. -/
def execDoThermal (n : Fin 12) (tj : Int) (s : State) : Answer :=
  .next (s.onChip fun r c =>
    let m := doLeader c n.val
    if 170000 ≤ tj then doTrip r m 0x12 true (c.modDout m fun d => { d with tj := tj }) else c)

/-- DO_RETRY (10 R246): 100 ms after its trip, with its junction at `tj` m°C below the restart threshold, the output turns on again,
unless its feed is in lock-out (10 R248). -/
def execDoRetry (n : Fin 12) (tj : Int) (s : State) : Answer :=
  .next (s.onChip fun _ c =>
    let m := doLeader c n.val
    if (c.dout m).waiting && decide ((c.dout m).tripT + 100000000 ≤ c.now) && decide (tj < 150000) && !(c.yard 3).lockout then
      c.modDout m fun d => doRise { d with tj := tj, thermal := false }
    else c)

/-- DO_CLEAN_RUN (10 R246): 10 s on without a trip. -/
def execDoCleanRun (n : Fin 12) (s : State) : Answer :=
  .next (s.onChip fun _ c =>
    let m := doLeader c n.val
    if (c.dout m).on then c.modDout m fun d => { d with att := 0 } else c)

/-- DO_OPEN_LOAD (10 R246): while on, the current has stayed at `ma` for 10 ms. -/
def execDoOpenLoad (n : Fin 12) (ma : Nat) (s : State) : Answer :=
  .next (s.onChip fun r c =>
    let m := doLeader c n.val
    let ol := bits (r.h (Reg.DO_CFG m)) 15 8
    if !(c.dout m).on || ol == 0 then c
    else
      let was := (c.dout m).openLoad
      let c := c.modDout m fun d => { d with openLoad := decide (ma < ol), iMa := ma }
      if decide (ma < ol) && !was then doEvent m 0x14 Cls.diag c
      else if !decide (ma < ol) && was then doEvent m 0x15 Cls.diag c
      else c)

/-- Lock-out of VBAT_D: an output turns off and keeps its requested state; a pending turn-on completes SUPPLY_LOW (10 R248). -/
def lockDo (n : Nat) (c : Chip) : Chip :=
  let d := c.dout n
  let c := if d.req && !d.up then finishDo n St.supplyLow c else c
  if d.on then c.modDout n doFall else c

/-- VBAT_D leaves lock-out: the outputs requested on turn on again at once, unless latched or waiting for a retry (10 R248). -/
def unlockDo (n : Nat) (c : Chip) : Chip :=
  let d := c.dout n
  if d.req && !d.latched && !d.waiting && !d.on then c.setDout n (doRise d) else c

/-- An output takes its safe state, off (10 R248). -/
def safeDo (n : Nat) (c : Chip) : Chip :=
  doEvent n 0x22 Cls.state ((finishDo n St.aborted c).modDout n fun d => doFall { d with req := false, waiting := false })

/-- PD_DIO is switched off, or YD is reset: an output turns off and its DO_SET complete ABORTED_DISABLED (10 R252). -/
def disableDo (n : Nat) (c : Chip) : Chip :=
  (finishDo n St.aborted c).modDout n fun d => doFall { d with req := false, waiting := false }

-- Edges of stalls and signal outputs ----------------------------------------------------------------------------------------------

/-- A signal output reaches 90 % of its feed with `ma` flowing (10 R249). -/
def doOnComplete (n ma : Nat) (c : Chip) : Chip :=
  let d := c.dout n
  if d.on && !d.up then finishDo n St.ok (c.setDout n { d with up := true, iMa := ma }) else c

/-- E_AR of a signal output in µJ (10 Table 10.5). -/
def doEar : Nat := 10000

/-- A signal output falls below 10 % of its feed (10 R249): a pending turn-off completes, the turn-off counts as wear (10 R247; 15
R341), and a deferred pair is applied (10 R245). -/
def doOffComplete (r : Regs) (n clampUj : Nat) (c : Chip) : Chip :=
  let d := c.dout n
  if d.falling && !d.on then
    let c := clampHeat clampUj (c.setDout n { d with
      falling := false, iMa := 0, wear := d.wear + wearUnits clampUj doEar })
    applyDeferred r 3 (finishDo n St.ok c)
  else c

/-- TURN_ON_COMPLETE (05 R135, 10 R249): the output first reaches 90 % of the feed: a stall by its number, signal output n as 64 + n. -/
def execTurnOnComplete (u : Fin 76) (ma : Nat) (s : State) : Answer :=
  .next (s.onChip fun r c => if u.val < 64 then stallOnComplete r u.val ma c else doOnComplete (doLeader c (u.val - 64)) ma c)

/-- TURN_OFF_COMPLETE (05 R135, 10 R249): the output falls below 10 % of the feed. -/
def execTurnOffComplete (u : Fin 76) (clampUj : Nat) (s : State) : Answer :=
  .next (s.onChip fun r c => if u.val < 64 then stallOffComplete r u.val clampUj c else doOffComplete r (doLeader c (u.val - 64)) clampUj c)

-- Status words -------------------------------------------------------------------------------------------------------------------

/-- DO_STATUS (10 Table 10.9). -/
def doStatus (d : DOut) : Nat :=
  flagBits [(0, d.on), (1, d.latched), (2, d.limiting), (3, d.openLoad), (4, d.thermal)] + d.att % 8 * 2 ^ 8 + d.iMa.toNat % 65536 * 2 ^ 16

/-- SI_STATUS (10 Table 10.9). -/
def siStatus (r : Regs) (n : Nat) (x : Si) : Nat :=
  flagBits [(0, codeActive (siType r n) x.code), (1, codeActive (siType r n) x.raw), (2, siValid r n x), (7, x.lowv)] +
    x.code % 16 * 8 + x.meas % 65536 * 2 ^ 16

/-- AIN_VAL (10 Table 10.9). -/
def ainWord (a : Ain) : Nat := a.val % 4096 + flagBits [(12, a.below), (13, a.above)]

end Sys2Proof.Machine
end

