-- ==== Sys2Proof/Machine/Net.lean ====
section
/-!
DEFINITION. Sys2Proof/Machine/Net.lean: field buses, gateway, backbone switch and network management (12).
-/

namespace Sys2Proof.Machine

-- Segments ----------------------------------------------------------------------------------------------------------------

/-- The code of a segment state (12 Table 12.3). -/
def SegSt.code : SegSt → Nat
  | .sleep => 0 | .validating => 1 | .awake => 2 | .ready => 3 | .isolated => 4 | .off => 5

/-- The transceiver is in normal mode (12 Table 12.3). -/
def SegSt.normal : SegSt → Bool
  | .validating | .awake | .ready => true
  | _ => false

/-- The block of the unit of segment `s` (01 Table 1.2). -/
def segBlock (s : Nat) : Nat := if s < 8 then 0x18 else if s < 14 then 0x19 else if s < 16 then 0x1A else 0x1B

/-- EN of the unit of segment `s` (12 Table 12.12), in CTL or as WNA holds it. -/
def segEn (rd : Nat → Nat) (s : Nat) : Bool :=
  if s < 8 then bit (rd (Reg.CAN_CFG s)) 12 else if s < 14 then bit (rd (Reg.LIN_CFG (s - 8))) 12
  else if s < 16 then bit (rd (Reg.T1S_CFG (s - 14))) 29 else bit (rd (Reg.BB_CFG (s - 16))) 0

/-- The controller of a segment runs: CTL's firmware runs, its domain is on and its clock has not failed (12 Table 12.4; 03 R75). -/
def segRuns (r : Regs) (c : Chip) (s : Nat) : Bool := c.fwRuns && domOn r c (segBlock s) && !clkLost c (segBlock s)

/-- The payload of a segment event (12 R291). -/
def segPay (c : Chip) (s cause count kind : Nat) : Nat := pay ([cause, (c.seg s).st.code] ++ two (count % 65536) ++ [kind])

/-- A segment event (12 R291). -/
def segEvent (r : Regs) (s cause cls count kind : Nat) (c : Chip) : Chip := raise r (173 + s) cls (segPay c s cause count kind) c

/-- The backbone-switch source (12 Table 12.10): cause and count. -/
def switchEvent (r : Regs) (cause count : Nat) (c : Chip) : Chip := raise r 191 Cls.warning (pay ([cause, 0] ++ two (count % 65536))) c

/-- The MAX_AWAKE count in ns (12 R282). -/
def awakeNs (c : Chip) (x : Seg) : Nat := x.awakeAcc + (match x.awakeAt with
  | some t => c.now - t
  | none => 0)

/-- A segment enters a state (12 Table 12.4, R282, R291): the MAX_AWAKE count, the transceiver, the LIN schedule and the events AWAKE and
SLEEP follow. -/
def segTo (r : Regs) (s : Nat) (st : SegSt) (quiet : Bool) (c : Chip) : Chip :=
  let x := c.seg s
  let clear := st == .awake || st == .sleep || st == .off
  let runs := (st == .validating || st == .ready) && !c.sys.halted
  let c := c.setSeg s { x with
    st := st, xcvr := st.normal
    awakeAcc := if clear then 0 else awakeNs c x
    awakeAt := if runs then some c.now else none
    valWait := st == .validating && segRuns r c s
    readyT := if st == .ready then c.now else x.readyT
    hostReq := x.hostReq && st == .awake
    holdLeft := x.holdLeft && (st == .isolated || st == .off) }
  let c := if 8 ≤ s ∧ s < 14 then
      c.modLin (s - 8) fun l => if st.normal then { l with
          running := true, sched := if l.running then l.sched else bits (r.c (Reg.LIN_CFG (s - 8))) 19 16, pos := if l.running then l.pos else 0 }
        else { l with running := false } else c
  let c := if st.normal then c else if 14 ≤ s ∧ s < 16 then c.modT1s (s - 14) fun t => { t with plcaUp := false } else c
  if (st == .awake || st == .ready) && (x.st == .sleep || x.st == .validating) then segEvent r s 3 Cls.state 0 0 c
  else if st == .sleep && !quiet then segEvent r s 4 Cls.state 0 0 c
  else c

/-- A backbone link goes down (12 R275). -/
def linkDown (r : Regs) (p : Nat) (c : Chip) : Chip :=
  if (c.bb p).link then
    let c := c.modBb p fun b => { b with link := false, downs := (b.downs + 1) % 65536 }
    segEvent r (16 + p) 0x17 Cls.link (c.bb p).downs 0 c
  else c

/-- RESULT of NM_CMD on a segment (12 Table 12.9). -/
def nmResult (c : Chip) (s : Nat) : Nat :=
  let x := c.seg s
  x.st.code + flagBits [(3, x.hostReq), (4, decide (16 ≤ s) && (c.bb (s - 16)).link)] + awakeNs c x / 60000000000 % 65536 * 65536

/-- The pending NM_CMD REQUEST of a segment completes (12 R290). -/
def nmDone (r : Regs) (s : Nat) (c : Chip) : Chip :=
  let x := c.seg s
  match x.nmJob with
  | none => c
  | some id => complete r id St.ok (nmResult c s) (c.modSeg s fun y => { y with nmJob := none })

/-- The segment's wake signal is over, or its PHY is up (12 R273, R279, R290): held frames may be sent, and a REQUEST that waits completes. -/
def signalEnd (r : Regs) (s : Nat) (c : Chip) : Chip :=
  nmDone r s (c.modSeg s fun x => { x with signalling := false, txq := x.txq.map fun (t : TxFrame) => { t with hold := false } })

/-- WNA's transceivers drive their buses: not with VBAT_AON between 2.5 V and 3.0 V (12 R286). -/
def busDrives (c : Chip) : Bool := !(decide (2500 ≤ (c.feed 4).mv) && decide ((c.feed 4).mv < 3000))

/-- A backbone port leaves its TC10 sleep: its link trains anew (12 R275). -/
def tc10End (r : Regs) (s : Nat) (c : Chip) : Chip :=
  if 16 ≤ s ∧ (c.bb (s - 16)).tc10 then (linkDown r (s - 16) c).modBb (s - 16) fun b => { b with tc10 := false } else c

/-- The segment's wake signal is sent (12 R273 to R275); on a CAN it is over at once. A transceiver that does not drive sends none (12 R286). -/
def wakeSignal (r : Regs) (s : Nat) (c : Chip) : Chip :=
  let c := tc10End r s c
  (if busDrives c then c.emit (.busSignal s 0) else c).modSeg s fun x => { x with signalling := decide (8 ≤ s) }

/-- A routed wake of a sleeping segment (12 R279, Table 12.4). -/
def routedWake (r : Regs) (s : Nat) (c : Chip) : Chip := wakeSignal r s (segTo r s .ready false c)

/-- Wake detection of a segment is set up (12 R272 to R275), as WNA holds it. -/
def wakeArmed (r : Regs) (s : Nat) : Bool :=
  if s < 8 then bits (r.h (Reg.CAN_WAKE s)) 1 0 != 0 else if s < 14 then bit (r.h (Reg.LIN_CFG (s - 8))) 14
  else if s < 16 then bit (r.h (Reg.T1S_CFG (s - 14))) 30 else bit (r.h (Reg.BB_CFG (s - 16))) 2

/-- A wake is detected on a segment (12 Table 12.4, R281): SLEEP goes to VALIDATING, OFF reports it and stays, ISOLATED counts it. It is a
wake source in PARK and WATCH (02 R44), and while CTL is absent WNA alone takes it (01 R25). -/
def segWake (r : Regs) (s kind : Nat) (c : Chip) : Chip :=
  let x := c.seg s
  if !c.sys.aon || !wakeArmed r s || x.st.normal then c
  else if x.st == .isolated then c.setSeg s { x with falseWakes := (x.falseWakes + 1) % 65536 }
  else if !c.parked && !c.fwRuns then fireWake r (173 + s) (segPay c s 1 0 kind) c.mt.val c
  else
    let c := if x.st == .sleep then segTo r s .validating false c else c.setSeg s { x with wakeOff := true }
    let c := segEvent r s 1 Cls.wake 0 kind c
    fireWake r (173 + s) (segPay c s 1 0 kind) c.mt.val c

-- Receive buffers -----------------------------------------------------------------------------------------------------------

/-- The unit that holds the posted buffers of unit number `u`: a segment, or the host port as 18 (12 R289). -/
def rxUnit (c : Chip) (u : Nat) : Seg := if u = 18 then c.hostPort else c.seg u
/-- The chip with that unit changed. -/
def modRx (u : Nat) (f : Seg → Seg) (c : Chip) : Chip := if u = 18 then { c with hostPort := f c.hostPort } else c.modSeg u f

/-- The event source of a unit: the host port reports on source 191. -/
def rxSource (u : Nat) : Nat := if u = 18 then 191 else 173 + u

/-- The oldest posted buffer completes (12 R289). -/
def rxComplete (r : Regs) (u st : Nat) (c : Chip) : Chip :=
  let x := rxUnit c u
  match x.rx with
  | [] => c
  | b :: rest => complete r b.job st (b.recs % 65536 + min 65535 x.drops * 65536) (modRx u (fun y => { y with rx := rest, drops := 0 }) c)

/-- Every posted buffer of a unit completes ABORTED_DISABLED (12 R289). -/
def rxAbort (r : Regs) (u : Nat) (c : Chip) : Chip := (rxUnit c u).rx.foldl (fun c _ => rxComplete r u St.aborted c) c

/-- The bytes of a frame record, packed to 4 bytes (12 Table 12.6). -/
def recordBytes (mt seg cls : Nat) (f : NetFrm) : List Nat :=
  let len := f.data.length
  let id := if seg < 8 then (if f.xlf then f.id.val % 2048 else f.id.val) else if seg < 14 then f.id.val % 64 else 0
  leBytes 4 mt ++ leBytes 4 (mt / 2 ^ 32 % 65536 + seg * 2 ^ 16 + cls * 2 ^ 21 +
    flagBits [(24, f.ide), (25, f.rtr), (26, f.fdf), (27, f.brs), (28, f.esi), (29, f.xlf), (30, f.lcc)]) ++ leBytes 4 id ++
    leBytes 4 (len % 4096 + (if f.xlf then f.sdt.val * 2 ^ 16 + f.vcid.val * 2 ^ 24 else 0)) ++ (if f.xlf then leBytes 4 f.af.val else []) ++
    f.data ++ List.replicate ((4 - len % 4) % 4) 0

/-- A record is delivered to the host (12 R289): into the oldest posted buffer, which completes when the next record would not fit, or
with its first record when FLUSH_US is 0; a frame that fits none is dropped and counted. -/
def rxDeliver (r : Regs) (u : Nat) (rec : List Nat) : Nat → Chip → Chip
  | 0, c => c
  | n + 1, c =>
    let x := rxUnit c u
    let drop (c : Chip) : Chip :=
      let c := modRx u (fun y => { y with drops := satInc 65535 y.drops, rxDrop := (y.rxDrop + 1) % 65536, dropRun := true }) c
      if x.dropRun then c else raise r (rxSource u) Cls.limit (pay ([0x13, x.st.code] ++ two ((x.rxDrop + 1) % 65536))) c
    match x.rx with
    | [] => drop c
    | b :: rest =>
      if b.used + rec.length ≤ b.len then
        let c := dmaJob b.job (b.addr + b.used) rec c
        let c := modRx u (fun y => { y with rx := { b with used := b.used + rec.length, recs := b.recs + 1 } :: rest, dropRun := false }) c
        if b.recs = 0 ∧ b.flush = 0 then rxComplete r u St.ok c else c
      else if b.recs ≠ 0 then rxDeliver r u rec n (rxComplete r u St.ok c)
      else drop c

-- Gateway ---------------------------------------------------------------------------------------------------------------------

/-- FMT of a frame: 1 classical, 2 FD, 3 XL (12 Table 12.2). -/
def frmFmt (f : NetFrm) : Nat := if f.xlf then 3 else if f.fdf then 2 else 1

/-- A byte of a frame. -/
def frmByte (f : NetFrm) (k : Nat) : Nat := f.data.getD k 0

/-- The number that `n` bytes of a frame from `k` on spell, most significant first. -/
def frmBe (f : NetFrm) (k n : Nat) : Nat := (List.range n).foldl (fun v j => v * 256 + frmByte f (k + j)) 0

/-- The frame carries a VLAN tag. -/
def frmTagged (f : NetFrm) : Bool := frmBe f 12 2 == 0x8100

/-- The value a route compares with its ID (12 Table 12.2): CAN ID, LIN frame ID, EtherType. -/
def routeKey (s : Nat) (f : NetFrm) : Nat := if s < 8 then f.id.val else if s < 14 then f.id.val % 64 else if frmTagged f then frmBe f 16 2 else frmBe f 12 2

/-- The first route that a frame from segment `s` matches (12 R278). -/
def findRoute (c : Chip) (s : Nat) (f : NetFrm) : Option Route :=
  c.net.routes.find? fun x => x.src == s && (routeKey s f &&& x.mask) == (x.id &&& x.mask) && (x.fmt == 0 || 14 ≤ s || x.fmt == frmFmt f)

/-- A frame cannot be forwarded to segment `d`: counted, with GW_DROP (12 R279). -/
def gwDrop (r : Regs) (d : Nat) (c : Chip) : Chip :=
  let c := c.modSeg d fun x => { x with gwDrops := (x.gwDrops + 1) % 65536 }
  segEvent r d 0x14 Cls.limit (c.seg d).gwDrops 0 c

/-- A frame converted for a CAN destination; none where it cannot be (12 Table 12.2). -/
def convert (r : Regs) (d conv : Nat) (f : NetFrm) : Option NetFrm :=
  if 8 ≤ d then some f
  else if f.xlf then (if d < 4 ∧ bit (r.c (Reg.CAN_CFG d)) 13 then some f else none)
  else if conv = 1 then some { f with fdf := true, brs := true, rtr := false }
  else if conv = 2 then (if f.data.length ≤ 8 then some { f with fdf := false, brs := false, esi := false } else none)
  else some f

/-- Frames that wait in a segment's queues: held ones, those of the gateway, those of the host (12 R279). -/
def heldCount (x : Seg) : Nat := (x.txq.filter fun (t : TxFrame) => t.hold).length
def gwCount (x : Seg) : Nat := (x.txq.filter fun (t : TxFrame) => !t.hold && t.job.isNone).length
def hostCount (x : Seg) : Nat := (x.txq.filter fun (t : TxFrame) => !t.hold && t.job.isSome).length

/-- A frame is forwarded to segment `d` (12 R279). -/
def forward (r : Regs) (x : Route) (f : NetFrm) (c : Chip) (d : Nat) : Chip :=
  match convert r d x.conv f with
  | none => gwDrop r d c
  | some f =>
    let y := c.seg d
    if y.st == .sleep && x.wake then
      if 16 ≤ heldCount y then gwDrop r d c
      else (routedWake r d c).modSeg d fun y => { y with txq := y.txq ++ [{ frm := f, due := c.mt.val + 100000000, hold := true }] }
    else if y.signalling && y.st == .ready then
      if 16 ≤ heldCount y then gwDrop r d c
      else c.modSeg d fun y => { y with txq := y.txq ++ [{ frm := f, due := c.mt.val + 100000000, hold := true }] }
    else if !y.st.normal then gwDrop r d c
    else if 8 ≤ d ∧ d < 14 then c.modLin (d - 8) fun l => { l with pub := l.pub.put (f.id.val % 64) f.data }
    else if (if d < 8 then 64 else 32) ≤ (if d < 8 then gwCount y else y.txq.length) then gwDrop r d c
    else c.modSeg d fun y => { y with txq := y.txq ++ [{ frm := f}] }

/-- The segment's manager sees a received frame of a class (12 Table 12.4): VALID_CLASS ends VALIDATING, KA_CLASS restarts
READY_SLEEP. -/
def segHears (r : Regs) (s cls : Nat) (c : Chip) : Chip :=
  let w := r.c (Reg.NM_CLASS s)
  let x := c.seg s
  if x.st == .validating && bit (bits w 7 0) cls then segTo r s .ready false c
  else if x.st == .ready && bit (bits w 15 8) cls then c.setSeg s { x with readyT := c.now }
  else c

/-- A frame received without error on a CAN, LIN or T1S segment, its start of frame at MTIME `sof` (12 R278, R279). -/
def frameRx (r : Regs) (s : Nat) (f : NetFrm) (sof : Nat) (c : Chip) : Chip :=
  if !(segRuns r c s && (c.seg s).st.normal) then c
  else
    let rt := findRoute c s f
    let cls := match rt with
      | some x => x.cls
      | none => 7
    let c := segHears r s cls c
    let c := match rt with
      | some x => ((List.range 16).filter fun d => x.dst.testBit d).foldl (forward r x f) c
      | none => c
    if (match rt with
        | some x => x.dst.testBit 16
        | none => true) then rxDeliver r s (recordBytes sof s cls f) 17 c else c

-- Backbone switch ---------------------------------------------------------------------------------------------------------------

/-- The VLAN of a frame, 0 for an untagged one, and its traffic class from PCP; untagged frames take the port's default priority, which the
spec does not state: 0 (log entry 34). -/
def frmVlan (f : NetFrm) : Nat := if frmTagged f then frmBe f 14 2 % 4096 else 0
def frmPcp (f : NetFrm) : Nat := if frmTagged f then frmByte f 14 / 32 else 0

/-- The source address is learned or refreshed (12 R276). -/
def learn (r : Regs) (port : Nat) (f : NetFrm) (c : Chip) : Chip :=
  let a := frmBe f 6 6
  let v := frmVlan f
  if !bit (r.c Reg.SW_CFG) 0 then c
  else if c.net.mac.any fun m => m.addr == a && m.vlan == v then
    { c with net := { c.net with mac := c.net.mac.map fun m =>
        if m.addr == a && m.vlan == v && !m.fixed then { m with port := port, age := c.now } else m } }
  else if c.net.mac.length < 2048 then
    { c with net := { c.net with mac := c.net.mac ++ [{ addr := a, vlan := v, port := port, age := c.now }] } }
  else if c.net.macFull then c
  else switchEvent r 0x50 2048 { c with net := { c.net with macFull := true } }

/-- A frame on its way through the switch: the NM unit index of the port it came from, its ID class, its start of frame. -/
structure SwFrm where
  seg : Nat
  cls : Nat
  sof : Nat
  frm : NetFrm

/-- A backbone port can send: enabled, awake and its link up. -/
def bbUp (r : Regs) (c : Chip) (p : Nat) : Bool := segRuns r c (16 + p) && (c.seg (16 + p)).st.normal && (c.bb p).link

/-- A frame is queued at an egress of the switch: a backbone port, or the host port as 2 (12 R276). -/
def egress (r : Regs) (f : SwFrm) (c : Chip) (p : Nat) : Chip :=
  if p = 2 then rxDeliver r 18 (recordBytes f.sof f.seg f.cls f.frm) 17 c
  else if bbUp r c p then c.modSeg (16 + p) fun x => { x with txq := x.txq ++ [{ frm := f.frm, cls := frmPcp f.frm}] }
  else { c with net := { c.net with drops := (c.net.drops + 1) % 65536 } }

/-- The switch forwards a frame from a port (12 R276): static entries before learned ones, unknown and group addresses to every other
port. -/
def switchRx (r : Regs) (port : Nat) (f : SwFrm) (c : Chip) : Chip :=
  let c := learn r port f.frm c
  let hits := c.net.mac.filter fun m => m.addr == frmBe f.frm 0 6 && m.vlan == frmVlan f.frm
  match (hits.filter fun m => m.fixed).head? <|> hits.head? with
  | some m => if m.port = port then c else egress r f c m.port
  | none => ((List.range 3).filter fun p => p != port && (p == 2 || bbUp r c p)).foldl (egress r f) c

/-- ETH_FRAME_RX (12 R276, R278): unit 0 and 1 are T1S0 and T1S1, 2 and 3 BB0 and BB1. -/
def execEthFrameRx (u : Fin 4) (f : RxFrm) (s : State) : Answer :=
  .next (s.onChip fun r c =>
    if u.val < 2 then frameRx r (14 + u.val) f.frm f.sof c
    else
      let n := 14 + u.val
      if !bbUp r c (u.val - 2) then c
      else
        let cls := match findRoute c n f.frm with
          | some x => x.cls
          | none => 7
        switchRx r (u.val - 2) { seg := n, cls := cls, sof := f.sof, frm := f.frm } (segHears r n cls c))

/-- A learned entry has reached AGE_S, from 10 s to 3,600 s, without a frame from its address (12 R276). -/
def macAged (r : Regs) (c : Chip) (m : Mac) : Bool :=
  !m.fixed && decide (m.age + clampN 10 3600 (bits (r.c Reg.SW_CFG) 31 16) * 1000000000 ≤ c.now)

/-- ADDRESS_AGE_OUT (12 R276). -/
def execAddressAgeOut (addr vlan : Nat) (s : State) : Answer :=
  .next (s.onChip fun r c =>
    if c.net.mac.any fun m => m.addr == addr && m.vlan == vlan && macAged r c m then
      { c with net := { c.net with
        mac := c.net.mac.filter fun m => !(m.addr == addr && m.vlan == vlan && macAged r c m), macFull := false } }
    else c)

/-- QBV_CYCLE of a port in ns, QBV_BASE and QBV_LEN (12 Table 12.12). -/
def qbvCycle (r : Regs) (p : Nat) : Nat := clampN 10000 1000000000 (r.c (Reg.QBV_CYCLE p))
def qbvBase (r : Regs) (p : Nat) : Nat := r.c (Reg.QBV_BASE_LO p) + r.c (Reg.QBV_BASE_HI p) * 2 ^ 32
def qbvLen (r : Regs) (p : Nat) : Nat := min 64 (bits (r.c (Reg.QBV_LEN p)) 6 0)

/-- The gate control list of a port is enabled now (12 R277): its first cycle starts at the first QBV_BASE + n × QBV_CYCLE from now on. -/
def qbvArm (r : Regs) (p : Nat) (c : Chip) : Chip :=
  let cyc := qbvCycle r p
  c.modBb p fun b => { b with qbvT := qbvBase r p + (c.mt.val - qbvBase r p + cyc - 1) / cyc * cyc, cycling := false, gate := 0xFF, entry := 0 }

/-- The entries of one cycle from entry `e`, `pos` ns into it: gate mask and duration (12 R277). An interval below 1,000 ns acts as 1,000 ns,
the last entry lasts to the end of the cycle, and the cycle cuts off what is longer. -/
def gateList (r : Regs) (p : Nat) : Nat → Nat → Nat → List (Nat × Nat)
  | _, _, 0 => []
  | e, pos, n + 1 =>
    let cyc := qbvCycle r p
    let iv := if n = 0 then cyc - pos else min (cyc - pos) (max 1000 (r.c (Reg.QBV_IVL (64 * p + e))))
    if cyc ≤ pos then [] else (bits (r.c (Reg.QBV_GATE (64 * p + e))) 7 0, iv) :: gateList r p (e + 1) (pos + iv) n

/-- The entries of one cycle of a port. -/
def gateCycle (r : Regs) (p : Nat) : List (Nat × Nat) := gateList r p 0 0 (qbvLen r p)

/-- What is left of a cycle `pos` ns into it. -/
def gatesFrom : List (Nat × Nat) → Nat → List (Nat × Nat)
  | [], _ => []
  | (g, d) :: rest, pos => if pos < d then (g, d - pos) :: rest else gatesFrom rest (pos - d)

/-- How long the gate of a class stays open from `pos` ns into the cycle: for ever where every entry opens it (12 R277). -/
def gateOpenNs (l : List (Nat × Nat)) (pos cls : Nat) : Option Nat :=
  if l.all fun g => bit g.1 cls then none else some (((gatesFrom l pos ++ l).takeWhile fun g => bit g.1 cls).map fun g => g.2).sum

/-- The time of a frame on a backbone line at 1 Gbit/s in ns: preamble, at least 60 bytes of frame, FCS (12 Table 12.1). -/
def bbWireNs (f : NetFrm) : Nat := (12 + max 60 f.data.length) * 8

/-- The position in the cycle of a port at this instant. -/
def qbvPos (r : Regs) (c : Chip) (p : Nat) : Nat := (c.mt.val - qbvBase r p) % qbvCycle r p

/-- The gate of a frame's class is open on a port (12 R277). -/
def gateOpen (c : Chip) (p : Nat) (t : TxFrame) : Bool := !(c.bb p).cycling || bit (c.bb p).gate t.cls

/-- The frame's last bit leaves before its gate closes (12 R277). -/
def gateFits (r : Regs) (c : Chip) (p : Nat) (t : TxFrame) : Bool :=
  !(c.bb p).cycling || (gateOpenNs (gateCycle r p) (qbvPos r c p) t.cls).all fun ns => decide (bbWireNs t.frm ≤ ns)

/-- QBV_GATE_ENTRY (12 R277): the entry of this instant of the cycle applies; before the first cycle all gates stay open. -/
def execQbvGateEntry (p : Fin 2) (s : State) : Answer :=
  .next (s.onChip fun r c =>
    let p := p.val
    if !bit (r.c (Reg.BB_CFG p)) 4 || qbvLen r p == 0 || decide (c.mt.val < (c.bb p).qbvT) || !segRuns r c (16 + p) then c
    else
      let l := gatesFrom (gateCycle r p) (qbvPos r c p)
      c.modBb p fun b => { b with entry := (gateCycle r p).length - l.length, gate := (l.headD (0xFF, 0)).1, cycling := true })

-- Reception, slots, errors -------------------------------------------------------------------------------------------------------

/-- FSTATE of a CAN with these counters, where it is not in bus-off (12 Table 12.12). -/
def errorState (tec rec : Nat) : Nat := if 128 ≤ tec ∨ 128 ≤ rec then 1 else 0

/-- The error counters of a CAN after a frame; entering error-passive raises its cause (12 Table 12.10). -/
def canErrors (r : Regs) (n tec rec : Nat) (c : Chip) : Chip :=
  let x := c.can n
  if x.fstate = 2 then c
  else
    let c := c.setCan n { x with tecE := tec, recE := rec, fstate := errorState tec rec }
    if errorState tec rec = 1 ∧ x.fstate = 0 then segEvent r n 0x10 Cls.warning tec 0 c else c

/-- A CAN controller can receive the frame: not in bus-off, and XL frames on CAN0 to CAN3 with XL_EN alone (12 R270, R271, Table 12.1). -/
def canTakes (r : Regs) (c : Chip) (n : Nat) (f : NetFrm) : Bool :=
  segRuns r c n && (c.seg n).st.normal && !((c.can n).fstate == 2) && (!f.xlf || (decide (n < 4) && bit (r.c (Reg.CAN_CFG n)) 13))

/-- CAN_FRAME_RX (12 R278): a frame received without error; `rec` is the controller's receive error counter after it. -/
def execCanFrameRx (n : Fin 8) (f : RxFrm) (rec : Fin 256) (s : State) : Answer :=
  .next (s.onChip fun r c =>
    if canTakes r c n.val f.frm then frameRx r n.val f.frm f.sof (canErrors r n.val (c.can n.val).tecE rec.val c) else c)

/-- The next frame of a segment to be sent (12 R279, R276): a CAN sends the lowest ID first, a backbone port the highest class, equal ones
and a T1S in order of arrival. -/
def nextTx (s : Nat) (q : List TxFrame) : Option TxFrame :=
  let pick (best : Option TxFrame) (t : TxFrame) : Option TxFrame :=
    match best with
    | none => some t
    | some b => if (if s < 8 then decide (t.frm.id < b.frm.id) else if 16 ≤ s then decide (b.cls < t.cls) else false) then some t else some b
  q.foldl pick none

/-- A frame leaves a segment's queues. -/
def dropTx (s : Nat) (t : TxFrame) (c : Chip) : Chip := c.modSeg s fun x => { x with txq := x.txq.erase t }

/-- The NET_TX of a frame completes with a cause (12 R288, Table 12.7). -/
def txDone (r : Regs) (t : TxFrame) (cause retries at_ : Nat) (c : Chip) : Chip :=
  match t.job with
  | some id => completeAt r id (if cause = 0 then St.ok else St.busy) (cause + min 255 retries * 256) at_ c
  | none => c

/-- A frame is sent on its bus. -/
def sendTx (r : Regs) (s : Nat) (t : TxFrame) (retries sof : Nat) (c : Chip) : Chip :=
  txDone r t 0 retries sof ((dropTx s t c).emit (.net s t.frm.id.val t.frm.data))

/-- A slot of a LIN schedule (12 R273, R279): the header of frame `fid` is sent; a frame the module publishes carries the data of a NET_TX that
waits for this slot, else of the publish buffer; `resp` is a responder's data, `good` its checksum. The diagnostic frames carry the classic
checksum (ISO 17987-3). -/
def linFrame (r : Regs) (n fid : Nat) (pub : Bool) (resp : Option (List Nat)) (good : Bool) (sof : Nat) (c : Chip) : Chip :=
  let s := 8 + n
  let l := c.lin n
  if pub then
    match (c.seg s).txq.find? fun (t : TxFrame) => !t.hold && t.frm.id.val % 64 == fid with
    | some t => sendTx r s t 0 sof c
    | none => match l.pub.find? fun e => e.1 == fid with
      | some e => c.emit (.net s fid e.2)
      | none => c
  else match resp with
    | none =>
      let c := c.setLin n { l with noResp := (l.noResp + 1) % 65536, silent := if l.silent.contains fid then l.silent else fid :: l.silent }
      if l.silent.contains fid then c else segEvent r s 0x15 Cls.warning (c.lin n).noResp 0 c
    | some d =>
      let c := c.setLin n { l with silent := l.silent.filter fun k => !(k == fid) }
      if good then frameRx r s { id := Fin.ofNat _ fid, data := d, lcc := fid == 0x3C || fid == 0x3D } sof c
      else c.modLin n fun l => { l with chkErr := (l.chkErr + 1) % 65536 }

/-- The next slot of a LIN channel's active table, and the number of its slots (12 R273). -/
def linNext (c : Chip) (n : Nat) : Option (Nat × Bool) :=
  let t := UMap.get [] c.net.scheds (16 * n + (c.lin n).sched)
  t[(c.lin n).pos % max 1 t.length]?

/-- LIN_SLOT (12 R273): the next slot of the active table comes due, once the wake signal is over and while the transceiver drives (12
R286). -/
def linSlot (r : Regs) (n : Nat) (resp : Option (List Nat)) (good : Bool) (sof : Nat) (c : Chip) : Chip :=
  match linNext c n with
  | none => c
  | some x =>
    if !(segRuns r c (8 + n) && (c.lin n).running && !(c.seg (8 + n)).signalling && busDrives c) then c
    else linFrame r n x.1 x.2 resp good sof (c.modLin n fun l => { l with pos := (l.pos + 1) % max 1 (UMap.get [] c.net.scheds (16 * n + l.sched)).length })

/-- LIN_SLOT (12 R273). -/
def execLinSlot (n : Fin 6) (heard : Bool) (resp : List Nat) (good : Bool) (sof : Nat) (s : State) : Answer :=
  .next (s.onChip fun r c => linSlot r n.val (if heard then some resp else none) good sof c)

/-- BUS_OFF (12 R271): TEC is then a free value. -/
def execBusOff (n : Fin 8) (s : State) : Answer :=
  .next (s.onChip fun r c =>
    if !(segRuns r c n.val && (c.seg n.val).st.normal) || (c.can n.val).fstate == 2 then c
    else
      let (v, c) := c.fresh 8
      let c := c.modCan n.val fun x => { x with fstate := 2, tecE := v, recovering := bit (r.c (Reg.CAN_CFG n.val)) 14 }
      segEvent r n.val 0x11 Cls.fault v 0 c)

/-- BUS_RECOVERED (12 R271). -/
def execBusRecovered (n : Fin 8) (s : State) : Answer :=
  .next (s.onChip fun r c =>
    if (c.can n.val).fstate = 2 ∧ (c.can n.val).recovering ∧ segRuns r c n.val then
      segEvent r n.val 0x12 Cls.state 0 0 (c.modCan n.val fun x => { x with fstate := 0, tecE := 0, recE := 0, recovering := false })
    else c)

-- Wakes ------------------------------------------------------------------------------------------------------------------------

/-- An enabled filter of CAN `n` matches a classical frame (12 R272). -/
def wufMatches (r : Regs) (n : Nat) (f : NetFrm) : Bool :=
  (List.range 16).any fun k =>
    let j := 16 * n + k
    let w := r.h (Reg.SWF_ID j)
    let m := bits (r.h (Reg.SWF_MASK j)) 28 0
    let dm := r.h (Reg.SWF_DLO j) + r.h (Reg.SWF_DHI j) * 2 ^ 32
    bit w 31 && !f.fdf && !f.xlf && (f.id.val &&& m) == (bits w 28 0 &&& m) && f.ide == bit w 29 &&
      (!bit w 30 || (dm &&& leNat (f.data.take 8)) != 0)

/-- CAN_WAKE (12 R272): kind 0 the wake-up pattern, 1 a received frame under WUF, 2 the frame error counter's overflow. -/
def execCanWake (n : Fin 8) (kind : Fin 3) (f : NetFrm) (s : State) : Answer :=
  .next (s.onChip fun r c =>
    let mode := bits (r.h (Reg.CAN_WAKE n.val)) 1 0
    if kind = 0 ∧ mode = 1 then segWake r n.val 0 c
    else if kind = 1 ∧ 2 ≤ mode ∧ wufMatches r n.val f then segWake r n.val 1 c
    else if kind = 2 ∧ 2 ≤ mode then segWake r n.val 2 (c.modCan n.val fun x => { x with fec := true })
    else c)

/-- LIN_WAKE (12 R273): a dominant level of at least 150 µs. -/
def execLinWake (n : Fin 6) (s : State) : Answer := .next (s.onChip fun r c => segWake r (8 + n.val) 3 c)

/-- T1S_WAKE (12 R274): activity above 150 mV for 0.5 ms. -/
def execT1sWake (n : Fin 2) (s : State) : Answer := .next (s.onChip fun r c => segWake r (14 + n.val) 4 c)

/-- TC10_WAKE (12 R275): forwarded to the other port if WAKE_FWD is set. -/
def execTc10Wake (p : Fin 2) (s : State) : Answer :=
  .next (s.onChip fun r c =>
    if !(c.sys.aon && wakeArmed r (16 + p.val)) then c
    else
      let c := segWake r (16 + p.val) 5 (tc10End r (16 + p.val) c)
      if bit (r.h (Reg.BB_CFG p.val)) 3 && (c.seg (17 - p.val)).st == .sleep then routedWake r (17 - p.val) c else c)

/-- TC10_REJECT (12 R275): the segment returns to READY with READY_SLEEP restarted; its link has stayed up. -/
def execTc10Reject (p : Fin 2) (s : State) : Answer :=
  .next (s.onChip fun r c =>
    if (c.seg (16 + p.val)).st == .sleep && (c.bb p.val).tc10 && segRuns r c (16 + p.val) then
      segEvent r (16 + p.val) 0x18 Cls.warning 0 0 (segTo r (16 + p.val) .ready false (c.modBb p.val fun b => { b with tc10 := false }))
    else c)

/-- PLCA_LOST (12 R274): a follower of an awake segment misses the beacon for 4 cycles. -/
def execPlcaLost (n : Fin 2) (s : State) : Answer :=
  .next (s.onChip fun r c =>
    if segRuns r c (14 + n.val) && (c.seg (14 + n.val)).st.normal && bits (c.t1s n.val).cfg 7 0 != 0 && (c.t1s n.val).plcaUp then
      segEvent r (14 + n.val) 0x19 Cls.fault 0 0 (c.modT1s n.val fun t => { t with plcaUp := false })
    else c)

/-- PLCA_UP (12 R274, R290): the PHY has its PLCA cycle, and a REQUEST that waits for it completes. -/
def execPlcaUp (n : Fin 2) (s : State) : Answer :=
  .next (s.onChip fun r c =>
    if segRuns r c (14 + n.val) && (c.seg (14 + n.val)).st.normal && bit (c.t1s n.val).cfg 28 then
      signalEnd r (14 + n.val) (c.modT1s n.val fun t => { t with plcaUp := true })
    else c)

/-- LINK_UP (12 R275, R290; 15 R344): a backbone PHY links with a signal quality, its training having asked for an equaliser step. -/
def execLinkUp (p : Fin 2) (sqi : Fin 8) (eq : Fin 256) (s : State) : Answer :=
  .next (s.onChip fun r c =>
    if segRuns r c (16 + p.val) && (c.seg (16 + p.val)).st.normal && !(c.bb p.val).link && busDrives c then
      let lo := bits (r.c Reg.EQ_ENV) 11 8
      let hi := max lo (bits (r.c Reg.EQ_ENV) 15 12)
      let c := adaptTo r 3 p.val 0x1B p.val lo hi eq.val (c.modBb p.val fun b => { b with link := true, sqi := sqi.val, eqStep := clampN lo hi eq.val })
      signalEnd r (16 + p.val) (segEvent r (16 + p.val) 0x16 Cls.link 0 0 c)
    else c)

/-- BB_LINK_DOWN (12 R275). -/
def execBbLinkDown (p : Fin 2) (s : State) : Answer := .next (s.onChip fun r c => linkDown r p.val c)

-- Transmission -------------------------------------------------------------------------------------------------------------------

/-- The PHYs fall silent with VBAT_AON between 2.5 V and 3.0 V, and their links drop (12 R286, Table 12.13). -/
def netSupply (r : Regs) (c : Chip) : Chip := if busDrives c then c else [0, 1].foldl (fun c p => linkDown r p c) c

/-- A data length is valid for an FD frame (12 R288). -/
def fdLength (n : Nat) : Bool := decide (n ≤ 8) || [12, 16, 20, 24, 32, 48, 64].contains n

/-- The record of a NET_TX is valid for its unit (12 R288): 0 to 7 CAN, 8 to 13 LIN, 14 and 15 T1S, 16 to 18 BACKBONE. -/
def txValid (r : Regs) (u len : Nat) (f : NetFrm) : Bool :=
  let n := f.data.length
  decide ((if f.xlf then 20 else 16) + n ≤ len) &&
    (if u < 8 then
      if f.xlf then decide (u < 4) && bit (r.c (Reg.CAN_CFG u)) 13 && decide (1 ≤ n) && decide (n ≤ 2048)
      else if f.fdf then fdLength n else decide (n ≤ 8)
    else !f.xlf && (if u < 14 then decide (n ≤ 8) else if u < 16 then decide (n ≤ 1518) else decide (14 ≤ n) && decide (n ≤ 1518)))

/-- The segment of a NET_TX unit is asleep, isolated or off; the host port never is. -/
def txState (c : Chip) (u : Nat) : SegSt := if u = 18 then .awake else (c.seg u).st

/-- Block and unit number of a network unit: the host port is unit 2 of BACKBONE (01 Table 1.2). -/
def netUnit (u : Nat) : Nat := if u < 8 then u else if u < 14 then u - 8 else if u < 16 then u - 14 else u - 16
def netBlock (u : Nat) : Nat := if 16 ≤ u then 0x1B else segBlock u

/-- Checks 5 and 6 of a NET_TX (12 R288). -/
def txChecks (u : Nat) (wake : Bool) (r : Regs) (c : Chip) : List (Bool × Nat) :=
  checks56 r c (netBlock u) (netUnit u) ++
    [(txState c u == .off, St.disabled), (txState c u == .sleep && !wake, St.busy), (txState c u == .isolated, St.busy),
     (u != 18 && (txState c u == .sleep || ((c.seg u).signalling && txState c u == .ready)) && decide (16 ≤ heldCount (c.seg u)), St.busy),
     (u != 18 && decide (32 ≤ hostCount (c.seg u)), St.busy)]

/-- A NET_TX takes effect (12 R288). -/
def netTx (r : Regs) (u tmo : Nat) (f : NetFrm) (id : Nat) (c : Chip) : Chip :=
  if u = 18 then complete r id St.ok 0 (switchRx r 2 { seg := 18, cls := 7, sof := c.mt.val, frm := f } c)
  else
    let asleep := (c.seg u).st == .sleep
    let c := if asleep then routedWake r u c else c
    let hold := asleep || ((c.seg u).signalling && (c.seg u).st == .ready)
    let ms := if tmo = 0 then 1000 else tmo
    c.modSeg u fun x => { x with txq := x.txq ++ [{
      job := some id, frm := f, cls := frmPcp f, due := c.mt.val + (if hold then min 100 ms else ms) * 1000000, hold := hold }] }

/-- Body of NET_TX (12 R288). -/
def bodyNetTx (u : Nat) (wake : Bool) (tmo : Nat) (f : NetFrm) (id : Nat) (s : State) : State :=
  gated (txChecks u wake) (fun id s => s.onChip fun r c => netTx r u tmo f id c) id s

/-- What checks 1 to 4 see of NET_TX. -/
def descNetTx (u : Fin 19) (len : Fin 4096) (addr : Nat) (f : NetFrm) (s : State) : Desc :=
  {
      opc := 0x60, blk := netBlock u.val, unit := netUnit u.val, valid := decide (addr % 4 = 0)
      content := txValid s.regs u.val len.val f, bufs := [(addr, len.val, false)] }

/-- NET_TX (12 R288). -/
def execNetTx (h : Hdr) (u : Fin 19) (wake : Bool) (tmo : Fin 65536) (len : Fin 4096) (addr : Nat) (f : NetFrm) (s : State) : Answer :=
  .next (runDesc (descNetTx u len addr f s)
    h (.netTx h u wake tmo len addr f) (bodyNetTx u.val wake tmo.val f) s)

/-- A segment's controller can send: its transceiver normal and driving, its wake signal over, and a CAN neither in bus-off nor in LISTEN (12
R271, R273, R279, R286; log entry 62). -/
def canSend (r : Regs) (c : Chip) (s : Nat) : Bool :=
  (c.seg s).st.normal && busDrives c && segRuns r c s && !(c.seg s).signalling &&
    !(decide (s < 8) && ((c.can s).fstate == 2 || bit (r.c (Reg.CAN_CFG s)) 15)) && !(decide (16 ≤ s) && !(c.bb (s - 16)).link)

/-- NET_TX_DONE (12 R279, R288): cause 0, the segment's next frame is sent, its start of frame at MTIME `sof`; on a backbone port the next
frame whose gate is open and whose last bit leaves before it closes, and where only frames that would not stand in an open gate QBV_OVERRUN is
counted (R277; log entry 62); causes 1 and 2, the frame of the NET_TX whose timeout comes first is not
sent by then, or for bus-off. `tec` is the CAN's transmit error counter afterwards; a T1S retransmission follows a collision. -/
def netTxDone (r : Regs) (s cause retries tec sof : Nat) (c : Chip) : Chip :=
  let x := c.seg s
  let c := if s < 8 then canErrors r s tec (c.can s).recE c else c
  let c := if s = 14 ∨ s = 15 then c.modT1s (s - 14) fun t => { t with coll := (t.coll + retries) % 65536 } else c
  if cause = 0 then
    if !canSend r c s then c
    else
      let q := x.txq.filter fun (t : TxFrame) => (!t.hold || decide (s < 8)) && (decide (s < 16) || gateOpen c (s - 16) t)
      match nextTx s (q.filter fun (t : TxFrame) => decide (s < 16) || gateFits r c (s - 16) t) with
      | some t => sendTx r s t retries sof c
      | none =>
        if q.isEmpty then c
        else
          let c := { c with net := { c.net with overrun := (c.net.overrun + 1) % 65536 } }
          switchEvent r 0x51 c.net.overrun c
  else
    let jobs := x.txq.filter fun (t : TxFrame) => t.job.isSome && !t.hold
    match jobs.find? fun (t : TxFrame) => jobs.all fun (y : TxFrame) => decide (t.due ≤ y.due) with
    | some t => txDone r t cause retries c.mt.val ((dropTx s t c).modSeg s fun x => { x with txFail := (x.txFail + 1) % 65536 })
    | none => c

/-- NET_TX_DONE (12 R288). -/
def execNetTxDone (u : Fin 18) (cause : Fin 3) (retries tec : Fin 256) (sof : Nat) (s : State) : Answer :=
  .next (s.onChip fun r c => netTxDone r u.val cause.val retries.val tec.val sof c)

/-- HOLD_QUEUE_DISCARD (12 R279): the oldest frame held for 100 ms is discarded; a NET_TX completes BUSY with cause 3. -/
def execHoldQueueDiscard (u : Fin 18) (s : State) : Answer :=
  .next (s.onChip fun r c =>
    match (c.seg u.val).txq.find? fun (t : TxFrame) => t.hold with
    | some t =>
      let c := dropTx u.val t c
      if t.job.isSome then txDone r t 3 0 c.mt.val c else gwDrop r u.val c
    | none => c)

/-- Body of NET_RX_POST (12 R289). -/
def bodyNetRxPost (u len flush addr : Nat) (id : Nat) (s : State) : State :=
  gated (fun r c => checks56 r c (netBlock u) (netUnit u) ++
      [(txState c u == .off, St.disabled), (decide (16 ≤ (rxUnit c u).rx.length), St.busy)])
    (fun id s => s.onChip fun _ c =>
      modRx u (fun x => { x with rx := x.rx ++ [{ job := id, addr := addr, len := len, flush := flush }] }) c) id s

/-- What checks 1 to 4 see of NET_RX_POST. -/
def descNetRxPost (u : Fin 19) (len : Fin 65536) (addr : Nat) : Desc :=
  {
      opc := 0x61, blk := netBlock u.val, unit := netUnit u.val, target := !(u.val == 16 || u.val == 17)
      valid := decide (256 ≤ len.val) && decide (len.val ≤ 65532) && decide (len.val % 4 = 0) && decide (addr % 4 = 0)
      bufs := [(addr, len.val, true)] }

/-- NET_RX_POST (12 R289): BACKBONE units 0 and 1 take no buffers. -/
def execNetRxPost (h : Hdr) (u : Fin 19) (len flush : Fin 65536) (addr : Nat) (s : State) : Answer :=
  .next (runDesc (descNetRxPost u len addr)
    h (.netRxPost h u len flush addr) (bodyNetRxPost u.val len.val flush.val addr) s)

/-- RX_FLUSH (12 R289): FLUSH_US after its first record the oldest buffer completes. -/
def execRxFlush (u : Fin 19) (s : State) : Answer :=
  .next (s.onChip fun r c =>
    match (rxUnit c u.val).rx with
    | b :: _ => if b.recs ≠ 0 then rxComplete r u.val St.ok c else c
    | [] => c)

-- Network management ------------------------------------------------------------------------------------------------------------------

/-- What the ring engine knows of an NM_CMD (12 R290): units 0 to 17, and 31 for RELEASE and STATUS. -/
def nmDesc (u : Nat) (all : Bool) : Desc :=
  { opc := 0x62, blk := 0x1C, unit := u, valid := !(u == 31) || all, target := decide (u < 18) || u == 31 }

/-- The feeding stall of a segment may be cycled (12 R283): also CTL may command its yard (01 R20; log entry 59). -/
def cycleOk (r : Regs) (c : Chip) (i : Nat) : Bool :=
  yardCommandable c (stallYard i) && (ownerSecure r 0x10 i == ownerSecure r 0x1C 0) && !bit (r.c (Reg.STALL_SEC i)) 8 && leader r c i == i && (c.stall i).st == .on

/-- The feeding stall of a segment is power-cycled, or refused (12 R283): its halter takes the turn-off and keeps its duty for the
turn-on. -/
def feedCycle (r : Regs) (s : Nat) (c : Chip) : Chip :=
  let i := bits (r.c (Reg.NM_FEED s)) 5 0
  if cycleOk r c i then
    let d := (c.stall i).dutyDue
    let c := (turnOff r i c).modStall i fun x => { x with cycling := true, duty := d }
    segEvent r s 7 Cls.state 0 0 (c.modSeg s fun x => { x with cycleAsk := true })
  else segEvent r s 8 Cls.warning 0 0 c

/-- A segment enters ISOLATED (12 R283). -/
def isolate (r : Regs) (s : Nat) (cycle : Bool) (c : Chip) : Chip :=
  let c := segTo r s .isolated false c
  let c := c.modSeg s fun x => { x with holdLeft := true, isolations := (x.isolations + 1) % 65536 }
  let c := segEvent r s 5 Cls.warning (c.seg s).isolations 0 c
  if cycle || bit (r.c (Reg.NM_FEED s)) 7 then feedCycle r s c else c

/-- An isolated segment is released (12 Table 12.4). -/
def unisolate (r : Regs) (s : Nat) (st : SegSt) (c : Chip) : Chip := segEvent r s 6 Cls.state 0 0 (segTo r s st false c)

/-- REQUEST acts on a segment (12 Table 12.4, R290): it completes at once where no wake signal is due, the PLCA cycle runs or the link is
up. From ISOLATED no wake signal is sent (Table 12.4). -/
def nmRequest (r : Regs) (s id : Nat) (c : Chip) : Chip :=
  let x := c.seg s
  let asleep := x.st == .sleep
  let c := if x.st == .isolated then unisolate r s .awake c else if x.st == .awake then c else segTo r s .awake false c
  let c := c.modSeg s fun y => { y with hostReq := true, nmJob := some id }
  let c := if asleep then wakeSignal r s c else c
  let ready := if s < 8 then true else if s < 14 then !asleep else if s < 16 then (c.t1s (s - 14)).plcaUp else (c.bb (s - 16)).link
  let c := if !asleep && !ready then c.modSeg s fun y => { y with signalling := true } else c
  if ready then nmDone r s c else c

/-- Body of NM_CMD REQUEST (12 R290); a segment in OFF cannot become awake: DISABLED (log entry 35). -/
def bodyNmRequest (u : Nat) (id : Nat) (s : State) : State :=
  gated (fun r c => checks56 r c 0x1C u ++ [((c.seg u).st == .off || clkLost c (segBlock u), St.disabled), ((c.seg u).nmJob.isSome, St.busy)])
    (fun id s => s.onChip fun r c => nmRequest r u id c) id s

/-- NM_CMD REQUEST (12 R290). -/
def execNmRequest (h : Hdr) (u : Fin 32) (s : State) : Answer := .next (runDesc (nmDesc u.val false) h (.nmRequest h u) (bodyNmRequest u.val) s)

/-- Host need is withdrawn from a segment (12 Table 12.4). -/
def nmReleaseSeg (r : Regs) (c : Chip) (s : Nat) : Chip := if (c.seg s).st == .awake then segTo r s .ready false c else c

/-- Body of NM_CMD RELEASE (12 R290): unit 31 releases every segment. -/
def bodyNmRelease (u : Nat) (id : Nat) (s : State) : State :=
  gated (fun r c => checks56 r c 0x1C u)
    (fun id s => s.onChip fun r c =>
      if u = 31 then complete r id St.ok 0 ((List.range 18).foldl (nmReleaseSeg r) c)
      else
        let c := nmReleaseSeg r c u
        complete r id St.ok (nmResult c u) c) id s

/-- NM_CMD RELEASE (12 R290). -/
def execNmRelease (h : Hdr) (u : Fin 32) (s : State) : Answer := .next (runDesc (nmDesc u.val true) h (.nmRelease h u) (bodyNmRelease u.val) s)

/-- Body of NM_CMD ISOLATE (12 R283, R290). -/
def bodyNmIsolate (u : Nat) (cycle : Bool) (id : Nat) (s : State) : State :=
  gated (fun r c => checks56 r c 0x1C u)
    (fun id s => s.onChip fun r c =>
      let c := if (c.seg u).st.normal then isolate r u cycle c else c
      complete r id St.ok (nmResult c u) c) id s

/-- NM_CMD ISOLATE (12 R283). -/
def execNmIsolate (h : Hdr) (u : Fin 32) (cycle : Bool) (s : State) : Answer :=
  .next (runDesc (nmDesc u.val false) h (.nmIsolate h u cycle) (bodyNmIsolate u.val cycle) s)

/-- Body of NM_CMD UNISOLATE (12 R281). -/
def bodyNmUnisolate (u : Nat) (id : Nat) (s : State) : State :=
  gated (fun r c => checks56 r c 0x1C u)
    (fun id s => s.onChip fun r c =>
      let c := if (c.seg u).st == .isolated then unisolate r u .sleep c else c
      complete r id St.ok (nmResult c u) c) id s

/-- NM_CMD UNISOLATE (12 R281). -/
def execNmUnisolate (h : Hdr) (u : Fin 32) (s : State) : Answer :=
  .next (runDesc (nmDesc u.val false) h (.nmUnisolate h u) (bodyNmUnisolate u.val) s)

/-- Segments not in SLEEP, ISOLATED or OFF (12 Table 12.9). -/
def awakeSet (c : Chip) : Nat := flagBits ((List.range 18).map fun s => (s, (c.seg s).st.normal))

/-- Body of NM_CMD STATUS (12 R290). -/
def bodyNmStatus (u : Nat) (id : Nat) (s : State) : State :=
  gated (fun r c => checks56 r c 0x1C u)
    (fun id s => s.onChip fun r c => complete r id St.ok (if u = 31 then awakeSet c else nmResult c u) c) id s

/-- NM_CMD STATUS (12 R290). -/
def execNmStatus (h : Hdr) (u : Fin 32) (s : State) : Answer := .next (runDesc (nmDesc u.val true) h (.nmStatus h u) (bodyNmStatus u.val) s)

/-- WAKE_SIGNAL_DONE (12 R290, R279): the LIN 100 ms, the T1S 50 ms or the BB 200 ms have passed. -/
def execWakeSignalDone (u : Fin 18) (s : State) : Answer :=
  .next (s.onChip fun r c => if (c.seg u.val).signalling then signalEnd r u.val c else c)

/-- Pending work of a unit completes ABORTED_DISABLED, in fetch order (12 R293, 04 R105). -/
def segAbort (r : Regs) (s : Nat) (c : Chip) : Chip :=
  let x := c.seg s
  let ids := (x.txq.filterMap fun (t : TxFrame) => t.job) ++ x.nmJob.toList
  let bufs := x.rx
  let c := c.setSeg s { x with txq := [], nmJob := none, signalling := false, rx := [], drops := if bufs.isEmpty then x.drops else 0 }
  (c.jobs.map fun j => j.id).foldl (fun c id =>
    if ids.contains id then complete r id St.aborted 0 c
    else match bufs.find? fun (b : RxBuf) => b.job == id with
      | some b => complete r id St.aborted (b.recs % 65536 + min 65535 x.drops * 65536) c
      | none => c) c

/-- What a unit takes over when its EN is set (12 R277, R292): a T1S its PLCA fields, a backbone port the start of its gate control list. -/
def unitStart (r : Regs) (s : Nat) (c : Chip) : Chip :=
  if 16 ≤ s then qbvArm r (s - 16) c else if 14 ≤ s then c.modT1s (s - 14) fun t => { t with cfg := r.c (Reg.T1S_CFG (s - 14)) } else c

/-- A unit's EN is set (12 Table 12.4): OFF goes to SLEEP, or to VALIDATING where a wake was detected meanwhile. -/
def segEnable (r : Regs) (s : Nat) (c : Chip) : Chip :=
  let x := c.seg s
  if x.st == .off then
    let c := c.setSeg s { x with wakeOff := false, holdLeft := false }
    let c := if s < 8 then c.modCan s fun y => { y with fstate := 0, tecE := 0, recE := 0, recovering := false } else unitStart r s c
    segTo r s (if x.wakeOff then .validating else .sleep) false c
  else c

/-- A unit's EN is cleared (12 Table 12.4, R293). -/
def segDisable (r : Regs) (s : Nat) (c : Chip) : Chip :=
  if (c.seg s).st == .off then c
  else
    let c := segAbort r s c
    let c := if 16 ≤ s then linkDown r (s - 16) c else c
    segTo r s .off false c

/-- READY_SLEEP has passed since it last started, in ns (12 Table 12.4, NM_TMR1: 10 to 1,000 times 10 ms). -/
def readySlept (r : Regs) (c : Chip) (s : Nat) : Bool :=
  decide ((c.seg s).readyT + clampN 10 1000 (bits (r.c (Reg.NM_TMR1 s)) 25 16) * 10000000 ≤ c.now)

/-- READY_SLEEP_END (12 Table 12.4, R273 to R275): READY_SLEEP, which a keep-alive frame restarts, has passed; the sleep signal is sent and the
segment sleeps. With TC10 the link stays until the partner has accepted. -/
def readySleepEnd (r : Regs) (s : Nat) (c : Chip) : Chip :=
  if (c.seg s).st != .ready || !readySlept r c s then c
  else
    let tc10 := decide (16 ≤ s) && bit (r.c (Reg.BB_CFG (s - 16))) 2
    let c := if !busDrives c then c
      else if 8 ≤ s ∧ s < 14 then c.emit (.net s 0x3C [0x00, 0xFF, 0xFF, 0xFF, 0xFF, 0xFF, 0xFF, 0xFF])
      else if tc10 then c.emit (.busSignal s 1) else c
    let c := if 16 ≤ s then (if tc10 then c else linkDown r (s - 16) c).modBb (s - 16) fun b => { b with tc10 := tc10 } else c
    segTo r s .sleep false c

/-- READY_SLEEP_END (12 R281). -/
def execReadySleepEnd (u : Fin 18) (s : State) : Answer := .next (s.onChip fun r c => readySleepEnd r u.val c)

/-- MAX_AWAKE of a segment in ns (12 Table 12.12: 1 to 1,440 minutes). -/
def maxAwakeNs (r : Regs) (s : Nat) : Nat := clampN 1 1440 (bits (r.c (Reg.NM_TMR2 s)) 10 0) * 60000000000

/-- MAX_AWAKE (12 R282, R283): the count is reached; it is frozen in debug halt (R286). -/
def execMaxAwake (u : Fin 18) (s : State) : Answer :=
  .next (s.onChip fun r c =>
    let x := c.seg u.val
    if (x.st == .validating || x.st == .ready) && !c.sys.halted && c.fwRuns && decide (maxAwakeNs r u.val ≤ awakeNs c x) then
      isolate r u.val false c
    else c)

/-- CYCLE_OFF_END (12 R283): unless another command has taken the stall over, it takes a turn-on that is handled as a restore. -/
def execCycleOffEnd (u : Fin 18) (s : State) : Answer :=
  .next (s.onChip fun r c =>
    let i := bits (r.h (Reg.NM_FEED u.val)) 5 0
    if !(c.seg u.val).cycleAsk then c
    else
      let c := c.modSeg u.val fun x => { x with cycleAsk := false }
      if (c.stall i).cycling then
        restoreStall r i (c.modStall i fun x => { x with
          cycling := false, req := true, st := if x.st == .off then .shed else x.st })
      else c)

/-- ISO_HOLD_END (12 Table 12.4). -/
def execIsoHoldEnd (u : Fin 18) (s : State) : Answer :=
  .next (s.onChip fun r c => if (c.seg u.val).st == .isolated && (c.seg u.val).holdLeft then unisolate r u.val .sleep c else c)

/-- Host loss of the function of block NM's world (12 R286): with HL_RELEASE every AWAKE segment goes to READY. -/
def nmHostLoss (r : Regs) (c : Chip) : Chip :=
  if bit (r.c Reg.NM_CFG) 0 then (List.range 18).foldl (nmReleaseSeg r) c else c

/-- NM starts every segment again once CTL runs (12 R286): from the transceiver's mode, ISOLATED under a running ISO_HOLD, else SLEEP. -/
def nmRestart (r : Regs) (c : Chip) : Chip :=
  (List.range 18).foldl (fun c s =>
    let c := unitStart r s c
    let x := c.seg s
    if !segEn r.c s then c.setSeg s { x with st := .off, xcvr := false, awakeAcc := 0, awakeAt := none }
    else if x.holdLeft then c.setSeg s { x with st := .isolated, xcvr := false }
    else if x.xcvr then c.setSeg s { x with
      st := .validating, awakeAcc := 0, awakeAt := some c.now, valWait := segRuns r c s }
    else c.setSeg s { x with st := .sleep, awakeAcc := 0, awakeAt := none }) c

/-- A CTL reset: controllers, switch and PHYs are reset; WNA keeps each transceiver's mode, ISO_HOLD, its counts and a wake seen while OFF
(12 R286; 03 R63). -/
def netReset (c : Chip) : Chip :=
  { c with
    segs := c.segs.map fun e => (e.1, ({
      st := if e.2.st == .awake then .ready else e.2.st, xcvr := e.2.xcvr, holdLeft := e.2.holdLeft, wakeOff := e.2.wakeOff
      falseWakes := e.2.falseWakes, isolations := e.2.isolations, cycleAsk := e.2.cycleAsk } : Seg))
    cans := [], lins := [], t1ss := [], bbs := [], hostPort := {}
    net := { c.net with mac := [], macFull := false, drops := 0, overrun := 0, routes := [], scheds := [] } }

-- Status words ------------------------------------------------------------------------------------------------------------------------

/-- CAN_STATUS (12 Table 12.12): 3 disabled. -/
def canStatus (r : Regs) (c : Chip) (n : Nat) : Nat :=
  let x := c.can n
  (if (c.seg n).st == .off || !segRuns r c n then 3 else x.fstate) + b2n x.fec * 4 + x.tecE % 256 * 2 ^ 8 + x.recE % 256 * 2 ^ 16
/-- CAN_COUNT (12 Table 12.12). -/
def canCount (x : Seg) : Nat := x.rxDrop % 65536 + x.txFail % 65536 * 65536
/-- LIN_STATUS and LIN_COUNT (12 Table 12.12). -/
def linStatus (l : Lin) : Nat := b2n l.running + l.sched % 16 * 16
def linCount (l : Lin) : Nat := l.noResp % 65536 + l.chkErr % 65536 * 65536
/-- T1S_STATUS (12 Table 12.12): the coordinator is node 0 (12 R274). -/
def t1sStatus (t : T1s) : Nat := b2n t.plcaUp + b2n (bits t.cfg 7 0 == 0) * 2 + t.coll % 65536 * 65536
/-- BB_STATUS (12 Table 12.12). -/
def bbStatus (b : Bb) : Nat := b2n b.link + b2n b.tc10 * 2 + b.sqi % 8 * 16 + b.downs % 65536 * 65536
/-- SW_COUNT (12 Table 12.12). -/
def swCount (n : Net) : Nat := n.drops % 65536 + n.overrun % 65536 * 65536
/-- NM_STATUS and NM_COUNT (12 Table 12.12). -/
def nmStatusWord (c : Chip) (s : Nat) : Nat :=
  let x := c.seg s
  x.st.code + b2n x.hostReq * 8 + awakeNs c x / 60000000000 % 65536 * 65536
def nmCount (x : Seg) : Nat := x.falseWakes % 65536 + x.isolations % 65536 * 65536
/-- NM_WAKE (12 Table 12.12). -/
def nmWake (n : Net) : Nat := n.wakeSrc % 256 + flagBits [(8, n.wakeValid), (9, n.wakeFalse), (10, n.returned)]

end Sys2Proof.Machine
end

