-- ==== Sys2Proof/Machine/Lamp.lean ====
section
/-!
DEFINITION. Sys2Proof/Machine/Lamp.lean: the lamp units of YD: boost stages, sinks, dimming, derating, NTC inputs and the matrix
(09 R207 to R219).
-/

namespace Sys2Proof.Machine

/-- The boost stage of a sink (09 R207). -/
def stageOf (n : Nat) : Nat := n / 6

/-- The sinks of a stage (09 R207). -/
def stageSinks (b : Nat) : List Nat := (List.range 6).map fun k => 6 * b + k

-- Fields ----------------------------------------------------------------------------------------------------------------

/-- VMAX, HR_TGT and ILIM_IN of a BOOST_CFG word in mV, mV and mA (09 Table 9.12). DEDUCED: VMAX takes eight bits, as its reset value 130 and
the reset word do (log entry 58). -/
def boostVmax (w : Nat) : Int := 500 * clampN 20 130 (bits w 7 0)
def boostTarget (w : Nat) : Int := 100 * clampN 5 15 (bits w 11 8)
def boostIlim (w : Nat) : Int := 500 * clampN 2 24 (bits w 20 16)

/-- The current code in effect: 1 to 12 act as 13 (09 R213). -/
def sinkCode (i : Nat) : Nat := if i = 0 then 0 else max 13 i

/-- The current of a code in mA, rounded down: 1.5625 mA a step (09 R213). -/
def codeMa (i : Nat) : Nat := i * 25 / 16

/-- The share factor of a sink: k, but for shed class 0 (09 R211). -/
def sinkShare (r : Regs) (c : Chip) (n : Nat) : Nat := if shedClass r (92 + n) = 0 then 256 else (c.boost (stageOf n)).k

/-- FACTOR: f_T × k in 1/256 (09 Table 9.12), 0 while the sink is off, as at reset (log entry 58). -/
def sinkFactor (r : Regs) (c : Chip) (n : Nat) : Nat := if (c.sink n).on then (c.sink n).fT * sinkShare r c n / 256 else 0

/-- The applied code: I_SET × f_T × k ÷ 65,536, rounded, at least 13 while the sink is on (09 R213). -/
def sinkApplied (r : Regs) (c : Chip) (n : Nat) : Nat :=
  let s := c.sink n
  if s.on then max 13 ((sinkCode s.iSet * s.fT * sinkShare r c n + 32768) / 65536) else 0

/-- A temperature byte: °C + 50 (09 R232). -/
def tempByte (t : Int) : Nat := (clampI 0 255 (t / 1000 + 50)).toNat

/-- SINK_STATUS (09 Table 9.12). -/
def sinkStatus (r : Regs) (c : Chip) (n : Nat) : Nat :=
  let s := c.sink n
  sinkApplied r c n + sinkFactor r c n % 512 * 1024 +
    flagBits [(19, s.on), (20, s.openS), (21, s.ntcFault), (22, s.nocal), (23, decide ((c.boost (stageOf n)).k < 256))] + tempByte s.temp * 2 ^ 24

/-- BOOST_STATUS (09 Table 9.12). -/
def boostStatus (b : Boost) : Nat :=
  (b.vout / 100).toNat % 1024 + flagBits [(10, b.running), (11, b.inlim), (12, b.ceil), (13, b.ov), (14, b.short)] + (b.iin / 10).toNat % 65536 * 65536

/-- NTC_STATUS (09 Table 9.12). -/
def ntcStatus (x : Ntc) : Nat := tempByte x.temp + flagBits [(8, x.open_), (9, x.short)]

/-- MX_STATUS (09 Table 9.12). -/
def mxStatus (m : Matrix) : Nat := flagBits [(0, m.scanning), (1, m.blanked), (2, m.short)] + m.shortLine % 8 * 256

-- Events ----------------------------------------------------------------------------------------------------------------

/-- The payload of a sink's events (09 R232). -/
def sinkPay (r : Regs) (n cause : Nat) (c : Chip) : Nat :=
  pay ([cause] ++ two (sinkApplied r c n) ++ two (sinkFactor r c n) ++ [tempByte (c.sink n).temp])

/-- An event of a sink (09 R232). -/
def sinkEvent (r : Regs) (n cause cls : Nat) (c : Chip) : Chip := yardEvent (92 + n) cls (sinkPay r n cause c) c

/-- The payload of a boost stage's events (09 R232). -/
def boostPay (b cause : Nat) (c : Chip) : Nat :=
  let x := c.boost b
  pay ([cause] ++ two (x.vout / 100).toNat ++ two (x.iin / 10).toNat ++ [x.incl])

/-- An event of a boost stage (09 R232). -/
def boostEvent (b cause cls : Nat) (c : Chip) : Chip := yardEvent (90 + b) cls (boostPay b cause c) c

/-- The payload of the matrix's events (09 R232). -/
def mxPay (cause : Nat) (c : Chip) : Nat :=
  let m := c.halt.mx
  pay [cause, m.line, m.colOpen % 256, m.colOpen / 256 % 256, m.colOpen / 65536 % 256]

/-- An event of the matrix (09 R232). -/
def mxEvent (cause cls : Nat) (c : Chip) : Chip := yardEvent 104 cls (mxPay cause c) c

-- Boost stages ----------------------------------------------------------------------------------------------------------

/-- A calibration of a sink of the stage runs (09 R217). -/
def stageCal (c : Chip) (b : Nat) : Bool := (stageSinks b).any fun n => (c.sink n).calJob.isSome

/-- A stage runs while at least one of its sinks is on or is calibrated, it is enabled and neither shorted nor stopped by over-voltage; it
starts at its input voltage + 1 V, or for a calibration at VMAX, with its registers of now (09 R208, R212, R217, R233). -/
def stageRun (r : Regs) (b : Nat) (c : Chip) : Chip :=
  c.modBoost b fun x =>
    let cfg := r.h (Reg.BOOST_CFG b)
    let want := ((stageSinks b).any (fun n => (c.sink n).on) || stageCal c b) && bit (if x.running then x.cfg else cfg) 12 && !x.short && !x.ov
    let x := if want && !x.running then
        { x with running := true, sw := true, cfg := cfg, pol := r.h (Reg.BOOST_POLICY b), vset := (c.feed 2).mv + 1000, clampMs := 0 }
      else { x with running := want, sw := x.sw && want }
    if x.running && stageCal c b then { x with vset := boostVmax x.cfg } else x

/-- The share factor after a 1 ms update (09 R211); without an included sink there is no least headroom. -/
def shareNext (b : Boost) (hmin : Option Int) (iin : Int) (inlim : Bool) : Nat :=
  if inlim && (hmin.any fun h => decide (h < boostTarget b.cfg)) then max 32 (b.k - 8)
  else if !inlim && decide (10 * iin < 9 * boostIlim b.cfg) then min 256 (b.k + 2) else b.k

/-- The 1 ms update of a stage (09 R208, R209, R211): input and output voltage in mV, input current in mA, whether its input limit acted in
more than half of the cycles, and the headroom samples in mV taken since the last update. With no sink included the stage stops switching; below
its lower edge, the input + 1 V, it does too. ADAPT_CLAMP is raised for VMAX only, as R209 says (15 R344; log entry 58). -/
def boostUpdate (b : Nat) (vin vout iin : Int) (inlim : Bool) (heads : List (Fin 12 × Int)) (_r : Regs) (c : Chip) : Chip :=
  let c := heads.foldl (fun c h => c.modSink h.1.val fun s => { s with head := h.2, headT := c.now }) c
  let c := c.modBoost b fun x => { x with vout := vout, iin := iin, inlim := inlim }
  let x := c.boost b
  let inc := (stageSinks b).filter fun n => (c.sink n).on && !(c.sink n).openS && decide (c.now ≤ (c.sink n).headT + 20000000)
  let hs := inc.map fun n => (c.sink n).head
  let hmin := hs.foldl min (hs.headD 0)
  let k := shareNext x (if inc.isEmpty then none else some hmin) iin inlim
  let shared (c : Chip) : Chip := if (x.k == 256) != (k == 256) then boostEvent b 7 Cls.limit c else c
  if !x.running || inc.isEmpty || stageCal c b then
    shared (adaptClamp (4 + b) 0 false id
      (c.setBoost b { x with incl := inc.length, k := k, ceil := false, clampMs := 0, sw := x.running && stageCal c b }))
  else
    let step : Int := if hmin ≤ 100 then 4000 else clampI (-1000) 1000 ((boostTarget x.cfg - hmin) / 2)
    let vmax := boostVmax x.cfg
    let beyond := decide (vmax < x.vset + step)
    let below := decide (x.vset + step < vin + 1000)
    let ms := if beyond then min 10 (x.clampMs + 1) else 0
    let c := c.setBoost b { x with sw := !below, vset := clampI (vin + 1000) vmax (x.vset + step), ceil := decide (vmax ≤ x.vset + step), clampMs := ms, k := k, incl := inc.length }
    let c := adaptClamp (4 + b) 0 (beyond || below) id c
    shared (if ms = 10 ∧ x.clampMs ≠ 10 then boostEvent b 0x0A Cls.limit c else c)

/-- BOOST_UPDATE (09 R208). -/
def execBoostUpdate (b : Fin 2) (vin vout iin : Int) (inlim : Bool) (heads : List (Fin 12 × Int)) (s : State) : Answer :=
  .next (s.onChip (boostUpdate b.val vin vout iin inlim heads))

/-- OPEN_STRING (09 R210): 50 µs of on-time with both conditions; not while the stage is input-limited. With the open string declared the
10 ms of R209 count anew. -/
def execOpenString (u : Fin 12) (s : State) : Answer :=
  .next (s.onChip fun r c =>
    if (c.sink u.val).on && !(c.boost (stageOf u.val)).inlim then
      stageRun r (stageOf u.val) (sinkEvent r u.val 1 Cls.latched ((c.modSink u.val fun x => { x with on := false, openS := true, pattern := [] }).modBoost (stageOf u.val) fun x => { x with clampMs := 0 }))
    else c)

/-- BOOST_OV (09 R212): an output in mV above VMAX + 3 V stops switching until one below VMAX. -/
def execBoostOv (b : Fin 2) (vout : Int) (s : State) : Answer :=
  .next (s.onChip fun r c =>
    let x := c.boost b.val
    let c := c.setBoost b.val { x with vout := vout }
    if !x.ov && decide (boostVmax x.cfg + 3000 < vout) then
      boostEvent b.val 9 Cls.fault (c.modBoost b.val fun x => { x with ov := true, running := false })
    else if x.ov && decide (vout < boostVmax x.cfg) then stageRun r b.val (c.modBoost b.val fun x => { x with ov := false })
    else c)

/-- BOOST_SHORT (09 R212): the disconnect opens, the stage latches and all its sinks turn off. -/
def execBoostShort (b : Fin 2) (s : State) : Answer :=
  .next (s.onChip fun _ c =>
    if (c.boost b.val).short then c
    else
      let c := (stageSinks b.val).foldl (fun c n => c.modSink n fun x => { x with on := false, pattern := [] }) c
      boostEvent b.val 8 Cls.latched (c.modBoost b.val fun x => { x with short := true, running := false }))

-- Sinks -----------------------------------------------------------------------------------------------------------------

/-- Nothing but its setting decides whether the sink is on (09 R210, R212, R214; 02 Table 2.13). -/
def sinkFree (c : Chip) (n : Nat) : Bool :=
  let s := c.sink n
  !s.hot && !s.openS && !s.shed && !(c.boost (stageOf n)).short

/-- The sub-slots of a dimming period in reverse bit order (09 R215). -/
def bitRev : Nat → Nat → Nat
  | 0, _ => 0
  | n + 1, s => s % 2 * 2 ^ n + bitRev n (s / 2)

/-- SPREAD and DIM_PERIOD of a LANTERN_CFG (09 Table 9.12). -/
def dimSpread (w : Nat) : Nat := min 8 (bits w 19 16)
def dimPeriod (w : Nat) : Nat := clampN 1000 20000 (bits w 15 0)

/-- The pattern of a period and the carry of its partial pulse (09 R215): pulses with their start after the start of the period, which PHASE
delays, and their on-time, in µs. A pulse that PHASE takes past the end of the period continues into the next. -/
def dimPattern (n T phase dim : Nat) (carry : Rat) : List (Rat × Rat) × Rat :=
  let slots : Nat := 2 ^ n
  let S : Rat := (T : Rat) / (slots : Rat)
  let at_ (s : Nat) : Rat := (s : Rat) * S + (phase : Rat) / 256 * (T : Rat)
  if dim = 0xFFFF then ((List.range slots).map fun s => (at_ s, S), carry)
  else
    let h := dim / 2 ^ (16 - n)
    let part := ((dim % 2 ^ (16 - n) : Nat) : Rat) * S / ((2 ^ (16 - n) : Nat) : Rat) + carry
    let full := (List.range slots).filterMap fun s =>
      if bitRev n s < h then some (at_ s, S) else if bitRev n s = h ∧ (2 : Rat) ≤ part then some (at_ s, part) else none
    (full, if (2 : Rat) ≤ part then 0 else part)

/-- A sink turns on where nothing forbids it, with its registers of now (09 R233); with no NTC selected it does not derate (R216), and without
a calibration LS5 and LS11 raise VF_NOCAL (R217). -/
def sinkOn (r : Regs) (n : Nat) (c : Chip) : Chip :=
  let s := c.sink n
  if s.on || !s.req || !sinkFree c n then c
  else
    let nocal := (n == 5 || n == 11) && !s.valid
    let cfg := r.h (Reg.SINK_CFG n)
    let none_ := !(n == 5 || n == 11) && decide (8 ≤ bits cfg 3 0)
    let c := c.setSink n { s with
      on := true, cfg := cfg, derate := r.h (Reg.SINK_DERATE n), pol := r.h (Reg.SINK_POLICY n), vfCfg := r.h (Reg.SINK_VF (n / 6)), nocal := nocal
      openUs := 0, fT := if none_ then 256 else s.fT, ntcFault := s.ntcFault && !none_ }
    stageRun r (stageOf n) (if nocal then sinkEvent r n 6 Cls.warning c else c)

/-- A sink turns off. -/
def sinkOff (r : Regs) (n : Nat) (c : Chip) : Chip :=
  stageRun r (stageOf n) (c.modSink n fun s => { s with on := false, pattern := [] })

/-- RESULT of SINK_SET (09 Table 9.6). -/
def sinkResult (r : Regs) (c : Chip) (n : Nat) : Nat :=
  sinkApplied r c n + sinkFactor r c n % 512 * 1024 + flagBits [(19, (c.sink n).openS), (20, (c.sink n).nocal)]

/-- The setting of one sink applies at a period start, its pattern is laid out and pending SINK_SET complete (09 R215, R231). -/
def sinkPeriod (r : Regs) (n : Nat) (c : Chip) : Chip :=
  let s := c.sink n
  let s := match s.new with
    | some x => { s with iSet := x.1, dim := x.2, req := decide (x.1 ≠ 0) && decide (x.2 ≠ 0), new := none }
    | none => s
  let c := c.setSink n s
  let c := if s.req then sinkOn r n c else if s.on then sinkOff r n c else c
  let c := c.modSink n fun s =>
    if s.on then
      let p := dimPattern (dimSpread c.halt.lantCfg) (dimPeriod c.halt.lantCfg) (bits s.cfg 15 8) s.dim s.carry
      { s with pattern := p.1, carry := p.2 }
    else { s with pattern := [] }
  let c := s.jobs.foldl (fun c id => yardResult 3 id St.ok (sinkResult r c n) c) c
  c.modSink n fun s => { s with jobs := [] }

/-- A sink turns on with the period that starts (09 R215). -/
def sinkRises (s : Sink) : Bool := !s.on && (match s.new with
  | some x => decide (x.1 ≠ 0) && decide (x.2 ≠ 0)
  | none => false)

/-- A dimming period starts (09 R215): with CTL present at the multiple of T in MTIME that it stands for, else where the free-running one
before it ended. LANTERN_CFG is taken over with the turn-on of a sink (R233; log entry 58). -/
def dimPeriodStart (r : Regs) (c : Chip) : Chip :=
  let cfg := if (List.range 12).any fun n => sinkRises (c.sink n) then r.h Reg.LANTERN_CFG else c.halt.lantCfg
  let t := 1000 * dimPeriod cfg
  let lock := !(c.yard 3).ctlAbsent
  { c with halt := { c.halt with lantCfg := cfg, dimLocked := lock, dimStart := if lock then (c.mt.val + t / 2) / t * t else c.now } }

/-- DIM_PERIOD_START (09 R215). -/
def execDimPeriodStart (s : State) : Answer :=
  .next (s.onChip fun r c => (List.range 12).foldl (fun c n => sinkPeriod r n c) (dimPeriodStart r c))

/-- The reservation of a SINK_SET in mA and mW (02 Table 2.14). -/
def sinkDemand (r : Regs) (c : Chip) (n code : Nat) : Nat × Nat :=
  let ma := codeMa (sinkCode code)
  let str := ((c.boost (stageOf n)).vout - (c.sink n).head).toNat
  (ma * str / (c.feed 2).mv.toNat, ma * (boostTarget (r.h (Reg.BOOST_CFG (stageOf n)))).toNat / 1000 + 8 * ma * str / 100000)

/-- The current code a sink has or is about to have. -/
def Sink.codeDue (s : Sink) : Nat := match s.new with
  | some x => if x.2 = 0 then 0 else x.1
  | none => if s.req then s.iSet else 0

/-- Checks 5 to 8 of SINK_SET to a sink (09 R231; 02 Table 2.13, R54). -/
def sinkChecks (n code dim : Nat) (clear cal : Bool) (r : Regs) (c : Chip) : List (Bool × Nat) :=
  let s := c.sink n
  let d := sinkDemand r c n code
  let turnOn := decide (code ≠ 0) && decide (dim ≠ 0)
  checks56 r c 0x15 n ++ (if turnOn || cal then checkSupply r c (92 + n) else []) ++
    [(turnOn && s.shed && !cal, St.shed),
     (turnOn && !cal && decide (s.codeDue < code) && decide (shedClass r (92 + n) ≠ 0) && !budgetFits r c 2 d.1 d.2, St.shed),
     ((turnOn || cal) && (s.openS || (c.boost (stageOf n)).short) && !clear, St.latched),
     (cal && (s.on || s.calJob.isSome), St.busy)]

/-- The budget grants a rise of a sink's current (02 R54). -/
def reserveSink (n code dim : Nat) (r : Regs) (c : Chip) : Chip :=
  let d := sinkDemand r c n code
  if dim ≠ 0 ∧ (c.sink n).codeDue < code then reserve 2 d.1 d.2 c else c

/-- SINK_SET in the halter (09 R213, R215): the setting waits for the next period start; to zero it cancels a restore. -/
def sinkSet (n code dim id : Nat) (clear : Bool) (_r : Regs) (c : Chip) : Chip :=
  c.modSink n fun s => { s with
    new := some (code, dim), jobs := s.jobs ++ [id], openS := s.openS && !clear, shed := s.shed && decide (code ≠ 0) && decide (dim ≠ 0) }

/-- CLEAR to a boost stage (09 R212): the sinks with a setting turn on again at their next period. -/
def boostClear (b id : Nat) (clear : Bool) (c : Chip) : Chip :=
  yardResult 3 id St.ok 0 (if clear then c.modBoost b fun x => { x with short := false } else c)

/-- Body of SINK_SET (09 R231). -/
def bodySinkSet (u code dim : Nat) (clear : Bool) (id : Nat) (s : State) : State :=
  if u < 12 then gated (sinkChecks u code dim clear false) (fun id s => yardCommand 3 id none (State.onChip (sinkSet u code dim id clear)) (s.onChip (reserveSink u code dim))) id s
  else gated (fun r c => checks56 r c 0x15 u) (fun id s => yardCommand 3 id none (State.onChip fun _ c => boostClear (u - 16) id clear c) s) id s

/-- The unit may be addressed by SINK_SET (09 R231). -/
def sinkUnit (u : Nat) : Bool := decide (u < 12) || u == 16 || u == 17

/-- What checks 1 to 4 see of SINK_SET. -/
def descSinkSet (u : Fin 32) (iSet : Fin 1024) (dim : Fin 65536) : Desc :=
  { opc := 0x50, blk := 0x15, unit := u.val, valid := !(u.val == 16 || u.val == 17) || (iSet.val == 0 && dim.val == 0), target := sinkUnit u.val }

/-- SINK_SET without CAL (09 R213, R231). -/
def execSinkSet (h : Hdr) (u : Fin 32) (iSet : Fin 1024) (dim : Fin 65536) (clear : Bool) (s : State) : Answer :=
  .next (runDesc (descSinkSet u iSet dim)
    h (.sinkSet h u iSet dim clear) (bodySinkSet u.val iSet.val dim.val clear) s)

/-- SINK_SET with CAL in YD (09 R217): the stage goes to VMAX, and the sink runs one pulse at 50 mA and, 1 ms later, one at ICAL_HI. -/
def sinkCal (u : Nat) (clear : Bool) (id : Nat) (r : Regs) (c : Chip) : Chip :=
  let w := r.h (Reg.SINK_VF (u / 6))
  stageRun r (stageOf u) (c.modSink u fun x => { x with
    calJob := some id, openS := x.openS && !clear, vfCfg := w, calPulses := [(0, 32), (1000, bits w 25 16)] })

/-- Body of SINK_SET with CAL (09 R217). -/
def bodySinkCalibrate (u : Nat) (clear : Bool) (id : Nat) (s : State) : State :=
  gated (sinkChecks u 0 0 clear true)
    (fun id s => yardCommand 3 id none (State.onChip (sinkCal u clear id)) s) id s

/-- What checks 1 to 4 see of SINK_CALIBRATE. -/
def descSinkCalibrate (u : Fin 32) : Desc :=
  { opc := 0x50, blk := 0x15, unit := u.val, valid := u.val == 5 || u.val == 11, target := sinkUnit u.val }

/-- SINK_SET with CAL = 1 (09 R217, R231). -/
def execSinkCalibrate (h : Hdr) (u : Fin 32) (iSet : Fin 1024) (dim : Fin 65536) (clear : Bool) (s : State) : Answer :=
  .next (runDesc (descSinkCalibrate u)
    h (.sinkCalibrate h u iSet dim clear) (bodySinkCalibrate u.val clear) s)

/-- VF_CALIBRATION_END (09 R217): the forward voltages of the two pulses in mV give RS and VF0. With ICAL_HI not above 50 mA the quotient
is stated nowhere: a free value (log entry 1). -/
def execVfCalibrationEnd (hi : Bool) (vLo vHi : Int) (s : State) : Answer :=
  .next (s.onChip fun r c =>
    let n := if hi then 11 else 5
    match (c.sink n).calJob with
    | none => c
    | some id =>
      let icode := bits (c.sink n).vfCfg 25 16
      let dI : Int := (icode * 25 : Nat) - 800
      let f := c.fresh 16
      let rs := if 0 < dI then (clampI 0 65535 ((vHi - vLo) * 16000 / dI)).toNat else f.1
      let c := if 0 < dI then c else f.2
      let vf0 := (clampI 0 65535 (vLo - (rs : Int) * 50 / 1000)).toNat
      let t := clampI (-128) 127 (c.sys.tbp / 1000)
      let c := c.modSink n fun x => { x with vf0 := vf0, rs := rs, tCal := t, valid := true, nocal := false, calJob := none, calPulses := [] }
      let c := stageRun r (stageOf n) c
      let c := saveSettings r (fun x => { x with vfCal := x.vfCal.put n (vf0, rs, t) }) c
      yardResult 3 id St.ok (sinkResult r c n) (resign r (92 + n) c))

/-- SINK_THERMAL (09 R214): a junction temperature in m°C. -/
def execSinkThermal (u : Fin 12) (tj : Int) (s : State) : Answer :=
  .next (s.onChip fun r c =>
    let x := c.sink u.val
    if decide (170000 ≤ tj) && !x.hot then sinkEvent r u.val 2 Cls.fault (sinkOff r u.val (c.setSink u.val { x with hot := true }))
    else if decide (tj < 150000) && x.hot then sinkOn r u.val (c.setSink u.val { x with hot := false })
    else c)

/-- LED_SHORT (09 R214). -/
def execLedShort (u : Fin 12) (s : State) : Answer :=
  .next (s.onChip fun r c => if (c.sink u.val).on then sinkEvent r u.val 3 Cls.warning c else c)

-- Derating --------------------------------------------------------------------------------------------------------------

/-- f_T in 1/256 at a temperature in m°C under a SINK_DERATE word (09 R216; rounded down, log entry 9). -/
def derateAt (w : Nat) (t : Int) : Nat :=
  let knee : Int := 1000 * bits w 7 0
  let end_ : Int := max (1000 * bits w 15 8) (knee + 1000)
  let floor := clampN 32 255 (bits w 23 16)
  if t ≤ knee then 256 else if end_ ≤ t then floor else (256 - (256 - (floor : Int)) * (t - knee) / (end_ - knee)).toNat

/-- f_T moves by at most 1/256 (09 R216). -/
def stepTo (goal x : Nat) : Nat := if x < goal then x + 1 else if goal < x then x - 1 else x

/-- A sink takes a temperature; entering and leaving f_T < 1 raises DERATE (09 R216, Table 9.11). -/
def sinkTemp (r : Regs) (n : Nat) (t : Int) (f : Nat) (fault : Bool) (c : Chip) : Chip :=
  let s := c.sink n
  let c := c.setSink n { s with temp := t, fT := f, ntcFault := fault }
  let c := if fault && !s.ntcFault then sinkEvent r n 5 Cls.fault c else c
  if (s.fT == 256) != (f == 256) then sinkEvent r n 4 Cls.limit c else c

/-- NTC_READ (09 R216): a resistance in Ω. Where a divisor of the formula is 0 the temperature is stated nowhere: a free value (log entry 1). -/
def execNtcRead (k : Fin 8) (ohm : Nat) (s : State) : Answer :=
  .next (s.onChip fun r c =>
    let cfg := r.h (Reg.NTC_CFG k.val)
    let bad := decide (1000000 < ohm) || decide (ohm < 100)
    let f := c.fresh 20
    let x := ntcTemp ohm (clampN 1 255 (bits cfg 23 16)) (bits cfg 15 0)
    let t := x.getD f.1
    let c := if bad || x.isSome then c else f.2
    let c := c.modNtc k.val fun x => { x with temp := if bad then x.temp else t, open_ := decide (1000000 < ohm), short := decide (ohm < 100) }
    (List.range 12).foldl (fun c n =>
      let x := c.sink n
      if n = 5 ∨ n = 11 ∨ bits x.cfg 3 0 ≠ k.val then c
      else if bad then sinkTemp r n x.temp (clampN 32 255 (bits x.derate 23 16)) true c
      else sinkTemp r n t (stepTo (derateAt x.derate t) x.fT) false c) c)

/-- VF_SAMPLE (09 R217): the forward voltage of LS5 or LS11 in mV, which estimates the junction; without VALID the sink does not derate.
With TC = 0 the quotient is stated nowhere: a free value (log entry 1). -/
def execVfSample (hi : Bool) (vf : Int) (s : State) : Answer :=
  .next (s.onChip fun r c =>
    let n := if hi then 11 else 5
    let x := c.sink n
    if !x.valid || !x.on then c
    else
      let tc := toSigned 16 x.vfCfg
      let i : Int := codeMa (sinkApplied r c n)
      let f := c.fresh 20
      let t := if tc = 0 then (f.1 : Int) else 1000 * x.tCal + (vf - x.vf0 - (x.rs : Int) * i / 1000) * 100000 / tc
      let c := if tc = 0 then f.2 else c
      sinkTemp r n t (stepTo (derateAt x.derate t) x.fT) false c)

-- Shed, SAFE ------------------------------------------------------------------------------------------------------------

/-- A sink is shed or loses its feed: off, restore due; SINK_SET to a non-zero current that have not applied complete with the status
(02 Table 2.13). -/
def shedSink (r : Regs) (status n : Nat) (c : Chip) : Chip :=
  let s := c.sink n
  if s.codeDue = 0 && !s.on && s.calJob.isNone then c
  else
    let c := s.jobs.foldl (fun c id => yardResult 3 id status 0 c) c
    let c := yardResultOpt 3 s.calJob status 0 c
    sinkOff r n (c.modSink n fun s => { s with jobs := [], calJob := none, calPulses := [], new := none, shed := s.shed || s.req })

/-- A sink is restored to its I_SET and DIM (02 R51, 09 R230). -/
def restoreSink (r : Regs) (n : Nat) (c : Chip) : Chip :=
  if (c.sink n).shed then sinkOn r n (c.modSink n fun s => { s with shed := false }) else c

/-- A sink takes its SAFE action: off (09 R230, 02 R52); its dispatched SINK_SET, a calibration too, complete ABORTED_DISABLED (04 R103). -/
def safeSink (r : Regs) (n : Nat) (c : Chip) : Chip :=
  let s := c.sink n
  let c := s.jobs.foldl (fun c id => yardResult 3 id St.aborted 0 c) c
  let c := yardResultOpt 3 s.calJob St.aborted 0 c
  sinkEvent r n 0x22 Cls.state (sinkOff r n (c.modSink n fun s => { s with jobs := [], calJob := none, calPulses := [], new := none, req := false, shed := false, iSet := 0 }))

-- Matrix ----------------------------------------------------------------------------------------------------------------

/-- The matrix changed by `f`. -/
def modMx (f : Matrix → Matrix) (c : Chip) : Chip := { c with halt := { c.halt with mx := f c.halt.mx } }

/-- A MATRIX_FRAME in YD (09 R219; 02 R31, Table 2.13): shown from the next ML0 slot; while the matrix is shed, or would be, it replaces the
frame of the restore. -/
def mxFrame (r : Regs) (clear : Bool) (data : List Nat) (id : Nat) (c : Chip) : Chip :=
  let c := if clear then modMx (fun m => { m with short := false, shortLine := 0 }) c else c
  if c.halt.mx.shed || (c.yard 3).lockout || classShed (c.yard 3) (shedClass r 104) then
    yardResult 3 id St.ok 0 (modMx (fun m => { m with next := some data, shed := true }) c)
  else modMx (fun m => { m with
    next := some data, nextJobs := m.nextJobs ++ [id], blanked := false, scanning := true, started := m.started && m.scanning }) c

/-- Body of MATRIX_FRAME (09 R231): LATCHED while LINE_SHORT stands and CLEAR is 0. -/
def bodyMatrixFrame (clear : Bool) (data : List Nat) (id : Nat) (s : State) : State :=
  gated (fun r c => checks56 r c 0x16 0 ++ [(c.halt.mx.short && !clear, St.latched)])
    (fun id s => yardCommand 3 id none (State.onChip fun r c => mxFrame r clear data id c) s) id s

/-- What checks 1 to 4 see of MATRIX_FRAME. -/
def descMatrixFrame (addr : Nat) (data : List Nat) : Desc :=
  { opc := 0x53, blk := 0x16, unit := 0, content := decide (data.length = 192), bufs := [(addr, 192, false)] }

/-- MATRIX_FRAME (09 R219, R231). -/
def execMatrixFrame (h : Hdr) (clear : Bool) (addr : Nat) (data : List Nat) (s : State) : Answer :=
  .next (runDesc (descMatrixFrame addr data)
    h (.matrixFrame h clear addr data) (bodyMatrixFrame clear data) s)

/-- LINE_US, BLANK in µs and ICOL in mA of an MX_CFG (09 Table 9.12). -/
def mxLineUs (w : Nat) : Nat := clampN 10 2000 (bits w 10 0)
def mxBlankUs (w : Nat) : Nat := clampN 2 32 (bits w 21 16)
def mxIcol (w : Nat) : Nat := clampN 5 40 (bits w 29 24)

/-- The columns that conduct ICOL in a line's slot and their on-times in µs from the start of its active time: b ÷ 255 × LINE_US (09 R218). -/
def linePulses (w : Nat) (frame : List Nat) (line : Nat) : List (Nat × Rat) :=
  (List.range 24).filterMap fun k =>
    let b := frame.getD (24 * line + k) 0 % 256
    if b = 0 then none else some (k, (b : Rat) / 255 * (mxLineUs w : Rat))

/-- The present slot of the matrix lasts BLANK + LINE_US: its end (09 R218); a frame takes eight slots. -/
def mxSlotEnd (m : Matrix) : Nat := m.slotT + 1000 * (mxBlankUs m.cfg + mxLineUs m.cfg)

/-- The columns of a line with a pulse. -/
def lineCols (frame : List Nat) (line : Nat) : Nat :=
  ((List.range 24).map fun k => if frame.getD (24 * line + k) 0 % 256 = 0 then 0 else 2 ^ k).sum

/-- The end of a frame: columns that had pulses and held in none of them, or not in all (09 R219): COLOPEN follows, with an event for a
column that becomes open. -/
def mxFrameEnd (c : Chip) : Chip :=
  let m := c.halt.mx
  let set := (List.range 24).filter fun k => m.used.testBit k && !m.held.testBit k
  let clr := (List.range 24).filter fun k => m.used.testBit k && m.held.testBit k
  let cols := (List.range 24).foldl (fun x k =>
    if set.contains k then x ||| 2 ^ k else if clr.contains k && x.testBit k then x - 2 ^ k else x) m.colOpen
  let fresh := set.any fun k => !m.colOpen.testBit k
  let c := modMx (fun m => { m with colOpen := cols, used := 0, held := 0 }) c
  if fresh then mxEvent 0x11 Cls.diag c else c

/-- MATRIX_LINE_SLOT (09 R218, R219): the slot of the next line starts; at ML0 a new frame is swapped in. `held` are the columns that held
ICOL through some pulse of the slot that ends. A slot does not start before the one before it is over. -/
def execMatrixLineSlot (held : Nat) (s : State) : Answer :=
  .next (s.onChip fun r c =>
    let m := c.halt.mx
    if !m.scanning || (m.started && decide (c.now < mxSlotEnd m)) then c
    else
      let pulsed (c : Chip) : Chip := modMx (fun m => { m with slotT := c.now, pulses := linePulses m.cfg m.frame m.line }) c
      pulsed <|
      let c := if m.started then modMx (fun m => { m with used := m.used ||| lineCols m.frame m.line, held := m.held ||| (held &&& lineCols m.frame m.line) }) c else c
      let line := if m.started then (m.line + 1) % 8 else 0
      if line ≠ 0 then modMx (fun m => { m with line := line }) c
      else
        let c := if m.started then mxFrameEnd c else c
        match m.next with
        | none => modMx (fun m => { m with line := 0, started := true }) c
        | some f =>
          let c := m.nextJobs.foldl (fun c id => yardResult 3 id St.ok 0 c) c
          modMx (fun m => { m with line := 0, started := true, frame := f, next := none, nextJobs := [], cfg := r.h Reg.MX_CFG, pol := r.h Reg.MX_POLICY }) c)

/-- The matrix goes dark. -/
def mxBlank (status : Nat) (c : Chip) : Chip :=
  let c := c.halt.mx.nextJobs.foldl (fun c id => yardResult 3 id status 0 c) c
  modMx (fun m => { m with scanning := false, blanked := true, started := false, nextJobs := [], pulses := [] }) c

/-- LINE_SHORT (09 R219). -/
def execLineShort (s : State) : Answer :=
  .next (s.onChip fun _ c =>
    if c.halt.mx.scanning then
      mxEvent 0x10 Cls.latched (mxBlank St.latched (modMx (fun m => { m with short := true, shortLine := m.line, next := none }) c))
    else c)

/-- The matrix is shed or loses its feed: blank; a MATRIX_FRAME that waits completes OK and is the frame of the restore (02 Table 2.13). -/
def shedMatrix (c : Chip) : Chip :=
  if c.halt.mx.scanning then modMx (fun m => { m with shed := true }) (mxBlank St.ok c) else c

/-- The matrix is restored with its latest frame (02 Table 2.13, 09 R230). -/
def restoreMatrix (c : Chip) : Chip :=
  if c.halt.mx.shed then modMx (fun m => { m with shed := false, scanning := !m.short, blanked := m.short, started := false }) c else c

/-- The matrix takes its SAFE action: blank (09 R230); it replaces a restore that is due (02 R52). -/
def safeMatrix (c : Chip) : Chip :=
  mxEvent 0x22 Cls.state (modMx (fun m => { m with shed := false, next := none }) (mxBlank St.aborted c))

end Sys2Proof.Machine
end

