-- ==== Sys2Proof/Machine/Port.lean ====
section
/-!
DEFINITION. Sys2Proof/Machine/Port.lean: the Lantern ports: node tables, frames and buffers, latches on module time, status frames and
refresh (09 R220 to R231).
-/

namespace Sys2Proof.Machine

/-- PORT_CFG.MODE is SLOW, and EN is 1 (09 Table 9.12). -/
def portSlow (r : Regs) (p : Nat) : Bool := bit (r.c (Reg.PORT_CFG p)) 0
def portEn (r : Regs) (p : Nat) : Bool := bit (r.c (Reg.PORT_CFG p)) 1

/-- Chain length of a SLOW port (09 R226). -/
def slowNodes (r : Regs) (p : Nat) : Nat := clampN 1 1024 (bits (r.c (Reg.PORT_SLOW p)) 10 0)

/-- Pixels of a node descriptor (09 Table 9.5). -/
def nodePixels (d : Nat) : Nat := bits d 10 0

/-- The port in force is SLOW: PORT_CFG acts from the port's next frame or enumeration on (09 R233). -/
def Port.slow (q : Port) : Bool := bit q.cfg 0

/-- PORT_CFG, PORT_SLOW and PORT_FEED come into force at a frame or an enumeration (09 R233). -/
def portTake (r : Regs) (p : Nat) (c : Chip) : Chip := c.modPort p fun q => { q with
  cfg := r.c (Reg.PORT_CFG p), slowN := r.c (Reg.PORT_SLOW p), feed := r.c (Reg.PORT_FEED p) }

/-- Bytes of a node's share: its pixels by its format width (09 R221). -/
def nodeShare (d : Nat) : Nat := nodePixels d * ([1, 2, 3, 4, 6] : List Nat).getD (bits d 14 12) 0

/-- Pixels of a table. -/
def tablePixels (t : List (Nat × Nat)) : Nat := (t.map fun x => nodePixels x.1).sum

/-- The byte count of whole shares from node START on (09 Table 9.7): some number of nodes has exactly `len` bytes. -/
def wholeShares : List (Nat × Nat) → Nat → Bool
  | [], len => len == 0
  | x :: rest, len => len == 0 || (decide (nodeShare x.1 ≤ len) && wholeShares rest (len - nodeShare x.1))

/-- LEN and START fit the node table, or the chain of a SLOW port (09 Table 9.7). -/
def frameFits (r : Regs) (c : Chip) (p start len : Nat) : Bool :=
  if portSlow r p then len == 3 * slowNodes r p
  else decide (start < (c.port p).table_.length) && decide (0 < len) && wholeShares ((c.port p).table_.drop start) len

-- Cells of a sequence (09 R220 to R222, R226) ------------------------------------------------------------------------------

/-- A number on the line, MSB first (09 R220). -/
def symBits (n w : Nat) : List LineSym := (List.range n).map fun k => if w.testBit (n - 1 - k) then .one else .zero

/-- Bytes on the line, in buffer order. -/
def symBytes (l : List Nat) : List LineSym := l.flatMap (symBits 8)

/-- Sequences of Table 9.4. -/
def sofCells : List LineSym := [.mark, .mark, .zero]
def socCells : List LineSym := [.mark, .mark, .one]
def latchCells : List LineSym := [.mark, .mark, .mark]

/-- The shares of a FAST frame, each with its CRC-8 (09 R221). -/
def shareCells : List (Nat × Nat) → List Nat → List LineSym
  | [], _ => []
  | x :: rest, l =>
    if l.isEmpty then []
    else
      let m := l.take (nodeShare x.1)
      symBytes m ++ symBits 8 (crcBytes m) ++ shareCells rest (l.drop (nodeShare x.1))

/-- The colours of a SLOW pixel in the order of the line; the buffer holds them as R, G, B (09 R226, Table 9.12 ORDER; log entry 58). -/
def slowOrder (o : Nat) : List Nat := (([[0, 1, 2], [1, 0, 2], [2, 0, 1], [2, 1, 0]] : List (List Nat)).getD o [0, 1, 2])

/-- The pixels of a SLOW frame: `n` nodes of 24 bits (09 R226). -/
def slowCells (o : Nat) : Nat → List Nat → List LineSym
  | 0, _ => []
  | n + 1, l => symBytes ((slowOrder o).map fun k => l.getD k 0) ++ slowCells o n (l.drop 3)

/-- The cells of a data frame (09 R221, R226). -/
def frameCells (q : Port) (f : Nat × List Nat) : List LineSym :=
  if q.slow then sofCells ++ slowCells (bits q.cfg 3 2) (f.2.length / 3) f.2
  else sofCells ++ symBits 10 f.1 ++ shareCells (q.table_.drop f.1) f.2

/-- The cells of a control frame (09 R222). -/
def controlCells (addr cmd arg : Nat) : List LineSym :=
  let w := (addr % 1024 * 256 + cmd % 256) * 65536 + arg % 65536
  socCells ++ symBits 34 w ++ symBits 8 (crc8 34 w)

/-- The control frames the port sends (09 Table 9.5, R225). -/
def enumReset : List LineSym := controlCells 0x3FF 0x01 0
def enumAssign (a : Nat) : List LineSym := controlCells 0x3FF 0x02 a
def chainLen (n : Nat) : List LineSym := controlCells 0x3FF 0x03 n
def queryNode (a : Nat) : List LineSym := controlCells a 0x04 0

/-- Nodes from START whose shares make up `len` bytes. -/
def nodesOf : List (Nat × Nat) → Nat → Nat
  | [], _ => 0
  | x :: rest, len => if len = 0 then 0 else 1 + nodesOf rest (len - nodeShare x.1)

/-- The time a frame about to start takes on the line in ns (09 R220, R221, R226). -/
def frameTime (r : Regs) (c : Chip) (p start len : Nat) : Nat :=
  if portSlow r p then (3 + 8 * len) * 1000 else (13 + 8 * len + 8 * nodesOf ((c.port p).table_.drop start) len) * 10

/-- The payload of a port's events (09 R232). -/
def portPay (cause node status : Nat) : Nat := pay ([cause] ++ two node ++ two (bits status 17 10) ++ [bits status 31 24])

/-- An event of a port (09 R232). -/
def portEvent (r : Regs) (p cause cls node status : Nat) (c : Chip) : Chip := raise r (105 + p) cls (portPay cause node status) c

/-- PORT_STATUS, PORT_ERR (09 Table 9.12). -/
def portStatus (q : Port) : Nat :=
  q.table_.length % 1024 + flagBits [(10, q.valid), (11, q.brk), (12, q.txBusy), (13, q.load.isSome)] + tablePixels q.table_ % 65536 * 65536
def portErr (q : Port) : Nat := q.crcErr % 65536 + q.retErr % 65536 * 65536

/-- The port is running (09 R228): it transmits, enumerates, or holds a loaded frame or a waiting LAMP_LATCH. -/
def Port.running (q : Port) : Bool := q.txBusy || q.enumAt.isSome || !q.enumQ.isEmpty || q.load.isSome || q.latchJob.isSome

/-- The time from the start of a LATCH sequence to the commit in ns: 30 ns, 20 ns a node and the cable; in SLOW mode its three cells (09
R223, R226, R229). -/
def latchLead (q : Port) : Nat := if q.slow then 3000 else 30 + 20 * q.table_.length + bits q.cfg 31 24

/-- The port's part in a LAMP_LATCH has missed its start (09 R229): the start instant of its target has passed. -/
def latchMissed (c : Chip) (p : Nat) : Bool :=
  let q := c.port p
  q.latchWait && match q.latchAt with
    | some t => decide (t < c.mt.val + latchLead q)
    | none => false

/-- A LATCH whose start has passed while the port could not send it is late (09 R229). -/
def latchMark (p : Nat) (c : Chip) : Chip := if latchMissed c p then c.modPort p fun q => { q with latchLate := true } else c

-- Frames ----------------------------------------------------------------------------------------------------------------

/-- The targets of the LATCHes not yet started: the waiting one and those behind it (09 R229). -/
def Port.latchDue (q : Port) : List (Option Nat) := (if q.latchWait then [q.latchAt] else []) ++ q.latchQ.map fun x => x.2

/-- A frame may start: not in debug halt (03 Table 3.10), the line is free, nothing is being enumerated, and from 20 µs before the start of
a LATCH it would end in time; a LATCH without AT_TIME goes before it (09 R227, R229). -/
def frameMayStart (r : Regs) (c : Chip) (p start len : Nat) : Bool :=
  let q := c.port p
  let m := latchLead q
  !c.sys.halted && !q.txBusy && q.enumAt.isNone && q.latchDue.all fun t => match t with
    | some t => decide (c.mt.val + 20000 + m < t) || decide (c.mt.val + frameTime r c p start len + m ≤ t)
    | none => false

/-- The frame in SEND goes out (09 R227, R228): the registers in force are taken over with it. -/
def sendFrameNow (r : Regs) (p : Nat) (f : Nat × List Nat) (rep : Bool) (c : Chip) : Chip :=
  let c := portTake r p c
  (c.modPort p fun q => { q with send := some f, txBusy := true, rep := rep, txNs := frameTime r c p f.1 f.2.length }).emit
    (.lantern p (frameCells (c.port p) f))

/-- LOAD and SEND are swapped and the frame is sent, where it may start; the next LAMP_FRAME takes LOAD (09 R227). -/
def sendLoaded (r : Regs) (p : Nat) (c : Chip) : Chip :=
  let q := c.port p
  match q.load with
  | none => c
  | some f =>
    if frameMayStart r c p f.1 f.2.length then
      sendFrameNow r p f false
        (c.setPort p { q with load := none, loadJob := q.frameQ.head?, frameQ := q.frameQ.tail, sendJob := q.loadJob })
    else c

/-- Enumeration starts (09 R225): the table is invalid while it runs; 0 FULL, 1 REDISCOVER, 3 FULL after a feed return. -/
def startEnum (r : Regs) (p op : Nat) (job : Option Nat) (c : Chip) : Chip :=
  let c := (portTake r p c).modPort p fun q => { q with
    valid := false, ver := q.ver + 1, enumJob := job, enumOp := op, enumAt := some 0, enumTab := [], trunc := false }
  if op = 1 then c.emit (.lantern p (queryNode 0)) else (c.emit (.lantern p enumReset)).emit (.lantern p (enumAssign 0))

/-- The line of a port is free: the loaded frame goes out where it may, then the next enumeration, which waits for a LATCH that is due and
for a status frame (09 R225, R227, R229; log entry 58). -/
def portPump (r : Regs) (p : Nat) (c : Chip) : Chip :=
  let c := sendLoaded r p c
  let q := c.port p
  match q.enumQ with
  | [] => c
  | x :: rest =>
    if c.sys.halted || q.txBusy || q.enumAt.isSome || q.latchWait || q.statWait then c
    else startEnum r p x.2 x.1 (c.setPort p { q with enumQ := rest })

/-- Body of LAMP_FRAME (09 R227, Table 9.7): it waits for LOAD, and BUSY answers a table that is invalid or has changed. -/
def bodyLampFrame (u : Nat) (id : Nat) (s : State) : State :=
  gated (fun r c => checks56 r c 0x17 u ++ [(!portEn r u, St.disabled),
      (!portSlow r u && (!(c.port u).valid || (c.job id).any fun j => !(j.aux == (c.port u).ver)), St.busy)])
    (fun id s => s.onChip fun _ c => c.modPort u fun q =>
      if q.load.isNone && q.loadJob.isNone then { q with loadJob := some id } else { q with frameQ := q.frameQ ++ [id] }) id s

/-- What checks 1 to 4 see of LAMP_FRAME. -/
def descLampFrame (u : Fin 8) (start : Fin 1024) (addr : Nat) (data : List Nat) (s : State) : Desc :=
  {
      opc := 0x51, blk := 0x17, unit := u.val, aux := (s.chip.port u.val).ver
      valid := decide (addr % 4 = 0) && decide (data.length < 2 ^ 18) &&
        ((!portSlow s.regs u.val && !(s.chip.port u.val).valid) || frameFits s.regs s.chip u.val start.val data.length)
      bufs := [(addr, data.length, false)] }

/-- LAMP_FRAME (09 R227, R231). -/
def execLampFrame (h : Hdr) (u : Fin 8) (start : Fin 1024) (addr : Nat) (data : List Nat) (s : State) : Answer :=
  .next (runDesc (descLampFrame u start addr data s)
    h (.lampFrame h u start addr data) (bodyLampFrame u.val) s)

/-- The frame of a LAMP_FRAME in progress: START and bytes. -/
def jobFrame (c : Chip) (id : Nat) : Option (Nat × List Nat) :=
  match c.job id with
  | some j => (match j.op with
    | .lampFrame _ _ start _ data => some (start.val, data)
    | _ => none)
  | none => none

/-- FRAME_LOAD_DONE (09 R227 steps 2, 3). -/
def execFrameLoadDone (u : Fin 8) (s : State) : Answer :=
  .next (s.onChip fun r c =>
    let q := c.port u.val
    match q.loadJob.bind (jobFrame c) with
    | none => c
    | some f => if q.load.isSome then c else portPump r u.val (c.setPort u.val { q with load := some f }))

/-- FRAME_SENT (09 R227): the last cell has left the port; TX_US is the frame's time. A repeat is followed by its LATCH. A waiting LATCH whose
start has passed is late. -/
def execFrameSent (u : Fin 8) (s : State) : Answer :=
  .next (s.onChip fun r c =>
    let q := c.port u.val
    match q.txBusy, q.send with
    | true, some _ =>
      let c := c.setPort u.val { q with txBusy := false, rep := false, sentUnl := q.sentUnl || !q.rep, sendJob := none }
      let c := latchMark u.val (if q.rep then
        (c.emit (.lantern u.val latchCells)).modPort u.val fun q => { q with statWait := !q.slow } else c)
      let c : Chip := match q.sendJob with
        | some id => complete r id St.ok (q.txNs / 1000 % 65536) c
        | none => c
      portPump r u.val c
    | _, _ => c)

-- Latches ---------------------------------------------------------------------------------------------------------------

/-- The ports a LAMP_LATCH names (09 R229). -/
def latchPorts (u ports : Nat) : List Nat := if ports = 0 then [u] else (List.range 8).filter fun p => ports.testBit p

/-- A port's part of its LAMP_LATCH has ended; with the last one the LAMP_LATCH completes (09 R229, Table 9.8). -/
def latchPart (r : Regs) (p nodes : Nat) (brk ret : Bool) (c : Chip) : Chip :=
  match (c.port p).latchJob with
  | none => c
  | some id =>
    let c := latchMark p (c.modPort p fun q => { q with
      latchJob := (q.latchQ.head?).map fun x => x.1, latchWait := !q.latchQ.isEmpty, latchAt := (q.latchQ.head?).bind fun x => x.2
      latchQ := q.latchQ.tail, latchLate := false })
    let upd (x : LatchReq) : LatchReq := { x with
      ports := x.ports.filter fun k => !(k == p), nodes := if x.unit = p then nodes else x.nodes, brk := x.brk || brk, ret := x.ret || ret }
    let c := { c with latches := c.latches.map fun (x : LatchReq) => if x.job = id then upd x else x }
    match c.latches.find? fun (x : LatchReq) => x.job == id with
    | some x =>
      if x.ports.isEmpty then
        completeAt r id St.ok (x.nodes % 1024 + flagBits [(10, x.late), (11, x.brk), (12, x.ret)]) x.t
          { c with latches := c.latches.filter fun y => !(y.job == id) }
      else c
    | none => c

/-- Body of LAMP_LATCH (09 R229): each port waits for its start; without AT_TIME for the end of a frame in progress only. A LAMP_LATCH on a
port that has one already follows it (log entry 58). -/
def bodyLampLatch (h : Hdr) (u ports : Nat) (id : Nat) (s : State) : State :=
  gated (fun r c =>
      let l := latchPorts u ports
      checks56 r c 0x17 u ++ [(l.any fun p => !portEn r p, St.disabled)])
    (fun id s => s.onChip fun _ c =>
      let l := latchPorts u ports
      let c := { c with latches := c.latches ++ [{ job := id, ports := l, unit := u }] }
      l.foldl (fun c p =>
        if (c.port p).latchJob.isSome then c.modPort p fun q => { q with latchQ := q.latchQ ++ [(id, h.at_)] }
        else latchMark p (c.modPort p fun q => { q with latchJob := some id, latchWait := true, latchAt := h.at_ })) c) id s

/-- What checks 1 to 4 see of LAMP_LATCH. -/
def descLampLatch (u : Fin 8) (ports : Fin 256) (s : State) : Desc :=
  {
      opc := 0x52, blk := 0x17, unit := u.val
      lead := 20000 + (latchPorts u.val ports.val).foldl (fun m p => max m (latchLead (s.chip.port p))) 0 }

/-- LAMP_LATCH (09 R229): with AT_TIME it is released ahead of its commit instant, by the greatest lead of its ports and 20 µs. -/
def execLampLatch (h : Hdr) (u : Fin 8) (ports : Fin 256) (s : State) : Answer :=
  .next (runDesc (descLampLatch u ports s)
    h (.lampLatch h u ports) (bodyLampLatch h u.val ports.val) s)

/-- LATCH_START (09 R223, R226, R229): the LATCH goes out once the line is free and its start has come, in a debug halt at release (Table
9.13); the frame sent before it is the displayed one from now on. -/
def execLatchStart (u : Fin 8) (s : State) : Answer :=
  .next (s.onChip fun r c =>
    let p := u.val
    let q := c.port p
    let due := match q.latchAt with
      | some t => decide (t ≤ c.mt.val + latchLead q)
      | none => true
    match q.latchJob with
    | none => c
    | some id =>
      if !q.latchWait || q.txBusy || q.enumAt.isSome || q.statWait || !due || c.sys.halted then c
      else
        let commit := match q.latchAt with
          | some t => if q.latchLate then c.mt.val + latchLead q else t
          | none => c.mt.val + latchLead q
        let c := { c with latches := c.latches.map fun (x : LatchReq) => if x.job = id then { x with t := max x.t commit, late := x.late || q.latchLate } else x }
        let c := (c.setPort p { q with
          latchWait := false, statWait := !q.slow, shown := if q.sentUnl then q.send else q.shown, sentUnl := false }).emit (.lantern p latchCells)
        let c := if q.latchLate then portEvent r p 0x25 Cls.warning 0x3FF 0 c else c
        portPump r p (if q.slow then latchPart r p 0 false false c else c))

/-- The status frame of a LATCH has come or has failed (09 R224, R229): the part of the LAMP_LATCH that waits for it ends. -/
def statusEnd (r : Regs) (p nodes : Nat) (brk ret : Bool) (c : Chip) : Chip :=
  let c := c.modPort p fun q => { q with statWait := false }
  let c := if (c.port p).latchWait then latchMark p c else latchPart r p nodes brk ret c
  portPump r p c

/-- The status words of a return frame go into the node table; each node whose flags change raises NODE_STATUS, and CRC errors are
counted (09 R222, R224). -/
def takeWords (r : Regs) (p : Nat) (words : List Nat) (c : Chip) : Chip :=
  words.foldl (fun c w =>
    let a := bits w 9 0
    match (c.port p).table_[a]? with
    | none => c
    | some x =>
      let c := c.modPort p fun q => { q with
        table_ := q.table_.modify a fun y => (y.1, w), crcErr := if bit w 10 then (q.crcErr + 1) % 65536 else q.crcErr }
      if bits w 17 10 = bits x.2 17 10 then c else portEvent r p 0x23 Cls.diag a w c) c

/-- The addresses of a return frame fall one by one to 0 (09 R224). -/
def fallsToZero : List Nat → Bool
  | [] => false
  | [w] => bits w 9 0 == 0
  | w :: w' :: rest => bits w 9 0 == bits w' 9 0 + 1 && fallsToZero (w' :: rest)

/-- A word whose CRC-8 holds (09 R224). -/
def wordGood (x : Nat × Nat) : Bool := crc8 32 x.1 == x.2

/-- RET_ERR is raised and counted (09 R224, R232). -/
def returnError (r : Regs) (p : Nat) (c : Chip) : Chip :=
  portEvent r p 0x24 Cls.warning 0x3FF 0 (c.modPort p fun q => { q with retErr := (q.retErr + 1) % 65536 })

/-- STATUS_FRAME_RX (09 R224): a first word from another node than the last is a break of the chain; a bad CRC, addresses that do not fall one
by one to 0 or a bad end make the frame malformed; the words of a well-formed frame go into the table. -/
def execStatusFrameRx (u : Fin 8) (words : List (Nat × Nat)) (whole : Bool) (s : State) : Answer :=
  .next (s.onChip fun r c =>
    let p := u.val
    let q := c.port p
    if !q.statWait then c
    else
      let w := (words.headD (0, 0)).1
      let a := bits w 9 0
      let first := (words.head?).any wordGood
      let brk := first && decide (a + 1 ≠ q.table_.length)
      let bad := !whole || !words.all wordGood || !fallsToZero (words.map fun x => x.1)
      let c := c.setPort p { q with brk := if first then brk else q.brk, brkAt := if brk then a else q.brkAt }
      let c := if brk then portEvent r p 0x21 Cls.fault a w c else c
      let c := if bad then returnError r p c else takeWords r p (words.map fun x => x.1) c
      statusEnd r p (words.filter wordGood).length brk bad c)

/-- STATUS_FRAME_TIMEOUT (09 R224): no frame began within 30 µs, or none was complete after 250 µs. -/
def execStatusFrameTimeout (u : Fin 8) (began : Bool) (s : State) : Answer :=
  .next (s.onChip fun r c =>
    let p := u.val
    let q := c.port p
    if !q.statWait then c
    else if began then statusEnd r p 0 false true (returnError r p c)
    else statusEnd r p 0 true false (portEvent r p 0x21 Cls.fault 0x3FF 0 (c.setPort p { q with brk := true, brkAt := 0x3FF })))

-- Enumeration -----------------------------------------------------------------------------------------------------------

/-- RESULT of LAMP_ENUM (09 Table 9.10). -/
def enumResult (q : Port) : Nat := q.table_.length % 1024 + b2n q.trunc * 1024 + tablePixels q.table_ % 65536 * 65536

/-- The bytes of the node table: a descriptor word and the last status word for each node (09 R225). -/
def tableImage (t : List (Nat × Nat)) : List Nat := t.flatMap fun x => four x.1 ++ four x.2

/-- Two tables are equal in node count, pixel counts and formats (09 R228). -/
def sameTable (a b : List (Nat × Nat)) : Bool :=
  a.map (fun x => (nodePixels x.1, bits x.1 14 12)) == b.map fun x => (nodePixels x.1, bits x.1 14 12)

/-- The buffer address of a LAMP_ENUM in progress. -/
def jobEnumAddr (c : Chip) (id : Nat) : Nat :=
  match c.job id with
  | some j => (match j.op with
    | .lampEnumFull _ _ a | .lampEnumRediscover _ _ a => a
    | _ => 0)
  | none => 0

/-- The displayed frame goes out again, with a LATCH behind it (09 R227, R228; FRAME_SENT sends the LATCH). -/
def repeatShown (r : Regs) (p : Nat) (c : Chip) : Chip :=
  match (c.port p).shown with
  | some f => sendFrameNow r p f true c
  | none => c

/-- Enumeration ends (09 R225, R228): CHAIN_LEN is sent, the table is valid, and the descriptor completes; after a feed return the
displayed frame comes back, or ENUM_CHANGED keeps the port idle. -/
def endEnum (r : Regs) (p : Nat) (trunc : Bool) (c : Chip) : Chip :=
  let q := c.port p
  let same := sameTable q.enumTab q.table_
  let ok := !(q.enumOp == 3) || same
  let c := (c.setPort p { q with
    table_ := q.enumTab, valid := ok, ver := q.ver + 1, enumJob := none, enumAt := none, enumTab := [], trunc := trunc, brk := false }).emit
      (.lantern p (chainLen q.enumTab.length))
  let c := latchMark p c
  portPump r p (if q.enumOp = 3 then
    if same then portEvent r p 0x26 Cls.state 0x3FF 0 (repeatShown r p c) else portEvent r p 0x27 Cls.fault 0x3FF 0 c
  else
    let c := portEvent r p 0x20 Cls.state 0x3FF 0 c
    match q.enumJob with
    | none => c
    | some id =>
      let a := jobEnumAddr c id
      let c := if a = 0 then c else dmaJob id a (tableImage q.enumTab) c
      complete r id St.ok (enumResult (c.port p)) c)

/-- What the ring engine knows of a LAMP_ENUM (09 Table 9.10). -/
def enumDesc (u addr : Nat) (read : Bool) : Desc :=
  { opc := 0x54, blk := 0x17, unit := u, valid := !read || decide (addr ≠ 0), bufs := if addr = 0 then [] else [(addr, 4096, true)] }

/-- LAMP_ENUM is BUSY on a SLOW port (09 Table 9.10). -/
def enumChecks (u : Nat) (r : Regs) (c : Chip) : List (Bool × Nat) :=
  checks56 r c 0x17 u ++ [(!portEn r u, St.disabled), (portSlow r u, St.busy)]

/-- An enumeration that starts once the line is free (09 R225). -/
def queueEnum (r : Regs) (p op : Nat) (job : Option Nat) (c : Chip) : Chip :=
  portPump r p (c.modPort p fun q => { q with enumQ := q.enumQ ++ [(job, op)] })

/-- Body of LAMP_ENUM FULL. -/
def bodyLampEnumFull (u : Nat) (id : Nat) (s : State) : State :=
  gated (enumChecks u) (fun id s => s.onChip fun r c => queueEnum r u 0 (some id) c) id s

/-- LAMP_ENUM FULL (09 R225). -/
def execLampEnumFull (h : Hdr) (u : Fin 8) (addr : Nat) (s : State) : Answer :=
  .next (runDesc (enumDesc u.val addr false) h (.lampEnumFull h u addr) (bodyLampEnumFull u.val) s)

/-- Body of LAMP_ENUM REDISCOVER. -/
def bodyLampEnumRediscover (u : Nat) (id : Nat) (s : State) : State :=
  gated (enumChecks u) (fun id s => s.onChip fun r c => queueEnum r u 1 (some id) c) id s

/-- LAMP_ENUM REDISCOVER (09 R225). -/
def execLampEnumRediscover (h : Hdr) (u : Fin 8) (addr : Nat) (s : State) : Answer :=
  .next (runDesc (enumDesc u.val addr false) h (.lampEnumRediscover h u addr) (bodyLampEnumRediscover u.val) s)

/-- Body of LAMP_ENUM READ (09 R225): the table, empty where none is valid. -/
def bodyLampEnumRead (u addr : Nat) (id : Nat) (s : State) : State :=
  gated (enumChecks u)
    (fun id s => s.onChip fun r c =>
      let q := c.port u
      let t := if q.valid then q.table_ else []
      complete r id St.ok (enumResult { q with table_ := t }) (if t.isEmpty then c else dmaJob id addr (tableImage t) c)) id s

/-- LAMP_ENUM READ (09 R225). -/
def execLampEnumRead (h : Hdr) (u : Fin 8) (addr : Nat) (s : State) : Answer :=
  .next (runDesc (enumDesc u.val addr true) h (.lampEnumRead h u addr) (bodyLampEnumRead u.val addr) s)

/-- ENUM_REPLY (09 R225): a node's descriptor and status word, or none at its time limit. FULL stops, TRUNCATED, at a = 512 and at a node that
would take the port beyond 32,768 pixels or 98,304 bytes; REDISCOVER stops at a missing reply, at the latest behind the last address that is
not the broadcast 0x3FF. -/
def execEnumReply (u : Fin 8) (reply : Option (Nat × Nat)) (s : State) : Answer :=
  .next (s.onChip fun r c =>
    let p := u.val
    let q := c.port p
    match q.enumAt, reply with
    | none, _ => c
    | some _, none => endEnum r p false c
    | some a, some x =>
      let bytes := (q.enumTab.map fun y => nodeShare y.1).sum + nodeShare x.1
      let full := !(q.enumOp == 1)
      if full && (decide (32768 < tablePixels q.enumTab + nodePixels x.1) || decide (98304 < bytes)) then endEnum r p true c
      else
        let c := c.setPort p { q with enumTab := q.enumTab ++ [(x.1, if full then 0 else x.2)], enumAt := some (a + 1) }
        if (if full then 512 else 1023) ≤ a + 1 then endEnum r p full c
        else c.emit (.lantern p (if full then enumAssign (a + 1) else queryNode (a + 1))))

-- Refresh, feed, stop ---------------------------------------------------------------------------------------------------

/-- The owning function's host is lost (09 Table 9.13, R230). -/
def portHostLost (r : Regs) (c : Chip) : Bool := (c.ring (b2n (ownerSecure r 0x17 0))).hostLost

/-- PORT_REFRESH (09 R227): the displayed frame is repeated, never while a frame sent but not latched waits; it is repeated while the DMA of a
LAMP_FRAME waits. -/
def execPortRefresh (u : Fin 8) (s : State) : Answer :=
  .next (s.onChip fun r c =>
    let q := c.port u.val
    if bits q.cfg 15 8 != 0 && portEn r u.val && domOn r c 0x17 && c.fwRuns && !c.sys.halted && !portHostLost r c &&
        !q.sentUnl && !q.statWait && !q.running && (portSlow r u.val || q.valid) then repeatShown r u.val c
    else c)

/-- A port stops after its current cell; its LAMP_FRAME, LAMP_LATCH and LAMP_ENUM complete with a status (09 R228, R230). -/
def stopPort (r : Regs) (p status : Nat) (c : Chip) : Chip :=
  let q := c.port p
  let lids := q.latchJob.toList ++ q.latchQ.map fun x => x.1
  let ids := q.sendJob.toList ++ q.loadJob.toList ++ q.frameQ ++ q.enumJob.toList ++ q.enumQ.filterMap (fun x => x.1) ++ lids
  let c := c.setPort p { q with
    txBusy := false, rep := false, send := if q.txBusy then none else q.send, sentUnl := q.sentUnl && (!q.txBusy || q.rep), sendJob := none
    load := none, loadJob := none, frameQ := [], enumJob := none, enumAt := none, enumTab := [], enumQ := []
    latchJob := none, latchWait := false, latchAt := none, latchLate := false, latchQ := [], statWait := false }
  let done := (c.jobs.filter fun j => ids.contains j.id).map fun j => j.id
  completeAll r done status { c with latches := c.latches.filter fun x => !lids.contains x.job }

/-- PORT_FEED_LOST (09 R228 step 1). -/
def execPortFeedLost (u : Fin 8) (s : State) : Answer :=
  .next (s.onChip fun r c =>
    let w := (c.port u.val).feed
    if bit w 7 && !((c.stall (bits w 5 0)).st == .on) && !(c.port u.val).feedLost then
      (stopPort r u.val St.busy c).modPort u.val fun q => { q with valid := false, ver := q.ver + 1, feedLost := true }
    else c)

/-- FEED_RESTORED (09 R228 steps 2 to 4). -/
def execFeedRestored (u : Fin 8) (s : State) : Answer :=
  .next (s.onChip fun r c =>
    let w := (c.port u.val).feed
    if bit w 7 && (c.stall (bits w 5 0)).st == .on && (c.port u.val).feedLost && !portSlow r u.val then
      queueEnum r u.val 3 none (c.modPort u.val fun q => { q with feedLost := false })
    else if (c.port u.val).feedLost && (c.stall (bits w 5 0)).st == .on then c.modPort u.val fun q => { q with feedLost := false }
    else c)

end Sys2Proof.Machine
end

