-- ==== Sys2Proof/Machine/Policy.lean ====
section
/-!
DEFINITION. Sys2Proof/Machine/Policy.lean: what happens to whole groups of outputs: host-loss policies with their SAFE_DELAY counts
(01 R22, R23; 04 R103, R104), shed and lock-out actions and restores (02 R50 to R52), and the disable of a function with its work in
flight (04 R105).
-/

namespace Sys2Proof.Machine

-- Units -----------------------------------------------------------------------------------------------------------------

/-- The outputs of a yard by event source, ascending; a gang or pair is represented by its leader (01 Tables 1.2, 1.5). -/
def yardOutputs (r : Regs) (c : Chip) (y : Nat) : List Nat :=
  if y = 3 then
    ((List.range 41).map fun k => 64 + k) ++ (((List.range 12).filter fun n => doLeader c n == n).map fun n => 113 + n)
  else (leaders r c).filter fun i => stallYard i == y

/-- Every output by event source. -/
def allOutputs (r : Regs) (c : Chip) : List Nat := (List.range 4).flatMap fun y => yardOutputs r c y

/-- An output is on, in PWM, chopping, in hold or otherwise at work, so that 03 R70 keeps it as it is. -/
def outputOn (c : Chip) (src : Nat) : Bool :=
  if src < 64 then !(c.stall src).isOff
  else if src < 80 then !((c.valve (src - 64)).phase == .idle)
  else if src < 90 then (c.loop (src - 80)).running || (c.loop (src - 80)).st == .braking
  else if src < 92 then (c.boost (src - 90)).running
  else if src < 104 then (c.sink (src - 92)).on
  else if src = 104 then c.halt.mx.scanning
  else (c.dout (src - 113)).on || (c.dout (src - 113)).falling

/-- The unit of an intrusive self-test is held or freed (15 R349). -/
def setTesting (blk u : Nat) (b : Bool) (c : Chip) : Chip :=
  if blk = 0x10 then c.modStall u fun x => { x with testing := b }
  else if blk = 0x13 then c.modValve u fun x => { x with testing := b }
  else if blk = 0x14 then c.modLoop u fun x => { x with testing := b }
  else if blk = 0x15 then c.modSink u fun x => { x with testing := b }
  else if blk = 0x12 then c.modSi u fun x => { x with testing := b }
  else if blk = 0x11 then c.modDout u fun x => { x with testing := b }
  else if blk = 0x18 then c.modSeg u fun x => { x with testing := b }
  else if blk = 0x19 then c.modSeg (8 + u) fun x => { x with testing := b }
  else if blk = 0x1A then c.modSeg (14 + u) fun x => { x with testing := b }
  else if blk = 0x1B then c.modSeg (16 + u) fun x => { x with testing := b }
  else c

/-- A SAFE action, a shed, lock-out or a disable ends an intrusive test of the unit at once: it completes ABORTED_DISABLED (15 R349). -/
def abortTest (r : Regs) (blk u : Nat) (c : Chip) : Chip :=
  if !unitTesting c blk u then c
  else
    match c.age.tests.find? fun t => t.running && t.blk == blk && t.unit == u with
    | none => c
    | some t =>
      complete r t.job St.aborted 0
        (setTesting blk u false { c with age := { c.age with tests := c.age.tests.filter fun x => !(x.job == t.job) } })

-- SAFE actions ----------------------------------------------------------------------------------------------------------

/-- The SAFE action of a stall (06 R157): with a safe state of off it turns off; with a safe state of on an output in OFF takes a turn-on,
unless a cross partner is on (06 R154), and where a grant is required it acts as HOLD (05 R134). Each SAFE action raises SAFE_APPLIED, and the stall's dispatched descriptors complete
ABORTED_DISABLED (04 R103). -/
def safeStall (r : Regs) (i : Nat) (c : Chip) : Chip :=
  if bit (r.h (Reg.STALL_POLICY i)) 14 && heldSecure r 0x10 i && bit (r.h (Reg.STALL_SEC i)) 8 then c
  else
    let c := abortStall r i (cancelCycle i c)
    let s := c.stall i
    stallEvent r i 0x22 Cls.state
      (if !bit (r.h (Reg.STALL_POLICY i)) 14 then
        if s.st == .off || s.st == .latched then c else turnOff r i c
      else if s.st == .shed then c.setStall i { s with req := true }
      else if !(s.st == .off) then c
      else if shedBlocked r c i then c.modStall i fun s => { s with st := .shed, req := true, episode := false }
      else if crossBlocked r c i then stallEvent r i 0x20 Cls.warning (c.setStall i { s with req := false })
      else openEpisode r i false c)

/-- An output takes its SAFE action (04 R104). An output other than a stall that it leaves as it is raises no cause (log entry 38).
A boost stage stops once all its sinks are off (09 R230), as ever: of its action only the cause is left. A stall in a running cross-check waits for its end (06 Table 6.20). -/
def takeSafe (r : Regs) (src : Nat) (c : Chip) : Chip :=
  if src < 64 && (c.stall src).crossTest then c.modSafe src fun x => { x with running := false, due := true }
  else
    let c := abortTest r (srcBlock src) (srcUnit src) c
    let c := c.modSafe src fun x => { x with running := false, reached := true, due := false }
    if src < 64 then safeStall r src c
    else if src < 80 then
      if (c.valve (src - 64)).phase == .idle then abortSeqs r (· == src - 64) c else safeValve r (src - 64) c
    else if src < 90 then safeLoop r (src - 80) c
    else if src < 92 then (if (c.boost (src - 90)).running then boostEvent (src - 90) 0x22 Cls.state c else c)
    else if src < 104 then
      let s := c.sink (src - 92)
      if s.on || s.shed || s.hot || s.new.isSome || s.calJob.isSome then safeSink r (src - 92) c else c
    else if src = 104 then
      if c.halt.mx.scanning || c.halt.mx.shed || c.halt.mx.next.isSome then safeMatrix c else c
    else
      let d := c.dout (src - 113)
      if d.on || d.req || d.waiting then safeDo (src - 113) c else c

/-- A trigger of an output's SAFE_DELAY count is in force: CTL absence declared by its halter, or host loss of the function whose world
owns it (01 R22). -/
def safeTrigger (r : Regs) (c : Chip) (src : Nat) : Bool :=
  (match srcYard src with
    | some y => (c.yard y).ctlAbsent
    | none => false) || (c.ring (b2n (srcSecure r src))).hostLost

/-- A trigger comes into force: the count of an output whose policy is SAFE starts, unless it runs or has ended (01 R22). -/
def startSafe (r : Regs) (c : Chip) (src : Nat) : Chip :=
  let x := c.safe src
  if !policySafe r c src || x.running || x.reached || x.due then c
  else
    let c := c.setSafe src { x with running := true, start := c.now }
    if safeDelay r c src = 0 then takeSafe r src c else c

/-- A trigger ends: the count stops only when none is left in force; an output in its safe state stays there (01 R22), and an action that is
due still comes. -/
def stopSafe (r : Regs) (c : Chip) (src : Nat) : Chip :=
  if safeTrigger r c src || (c.safe src).due then c else { c with safes := c.safes.del src }

/-- The SAFE actions that waited for the end of a cross-check are taken (06 Table 6.20). -/
def safeDue (r : Regs) (c : Chip) : Chip :=
  (List.range 64).foldl (fun c i =>
    if (c.safe i).due && !(c.stall i).crossTest then
      let c := takeSafe r i c
      if safeTrigger r c i then c else { c with safes := c.safes.del i }
    else c) c

/-- The count of an output ends (01 R22; log entry 6). -/
def safeDelayEnd (r : Regs) (src : Nat) (c : Chip) : Chip := if (c.safe src).running && policySafe r c src then takeSafe r src c else c

/-- Every Lantern port stops after its current cell (01 R23, 04 Table 4.22). -/
def stopPorts (r : Regs) (status : Nat) (c : Chip) : Chip := (List.range 8).foldl (fun c p => stopPort r p status c) c

/-- A halter declares CTL absent (01 R22, R23; 05 R128): the counts of its outputs start; in YD every bridge brakes at once and every
Lantern port stops. -/
def declareAbsent (r : Regs) (y : Nat) (c : Chip) : Chip :=
  if !(c.yard y).supplied || (c.yard y).ctlAbsent then c
  else
    let c := c.modYard y fun d => { d with ctlAbsent := true }
    let c := (List.range 8).foldl (fun c w => if rowYard w = y then c.modRow w fun x => { x with aligned := false } else c) c
    let c := if y = 3 then
        stopPorts r St.aborted ((List.range 10).foldl (fun c n => endLoop r n St.aborted c) c)
      else c
    (yardOutputs r c y).foldl (startSafe r) c

/-- WNA declares CTL absent (01 R25): transceivers keep their modes and detectors stay armed. -/
def declareWna (c : Chip) : Chip := { c with sys := { c.sys with wnaAbsent := true } }

-- Shedding --------------------------------------------------------------------------------------------------------------

/-- The outputs of a yard that have a shed class (02 R47). -/
def shedUnits (r : Regs) (c : Chip) (y : Nat) : List Nat := (yardOutputs r c y).filter fun src => decide (src < 90) || (decide (92 ≤ src) && decide (src ≤ 104))

/-- An output takes its shed action, with SHED or, in lock-out and the off band, SUPPLY_LOW (02 Table 2.13). -/
def shedOutput (r : Regs) (status : Nat) (c : Chip) (src : Nat) : Chip :=
  let c := abortTest r (srcBlock src) (srcUnit src) c
  if src < 64 then shedStall r status src (cancelCycle src c)
  else if src < 80 then shedValve r status (src - 64) c
  else if src < 90 then endLoop r (src - 80) status c
  else if src < 104 then shedSink r status (src - 92) c
  else shedMatrix c

/-- An output waits for a restore (02 Table 2.13). -/
def wantsRestore (c : Chip) (src : Nat) : Bool :=
  if src < 64 then (c.stall src).st == .shed && (c.stall src).req
  else if src < 90 then false
  else if src < 104 then (c.sink (src - 92)).shed
  else c.halt.mx.shed

/-- An output is restored (02 R52). -/
def restoreOutput (r : Regs) (src : Nat) (c : Chip) : Chip :=
  if src < 64 then restoreStall r src c else if src < 104 then restoreSink r (src - 92) c else restoreMatrix c

/-- The place of an output in a yard's restore order: by class, then by event source (02 R51). -/
def restoreKey (r : Regs) (src : Nat) : Nat := shedClass r src * 1000 + src

/-- A list with an output put at its place of the restore order. -/
def insertRestore (r : Regs) (src : Nat) : List Nat → List Nat
  | [] => [src]
  | a :: l => if a = src then a :: l else if restoreKey r src < restoreKey r a then src :: a :: l else a :: insertRestore r src l

/-- The shed outputs of a yard whose class is in `cls` queue for a restore slot (02 R51). -/
def queueRestores (r : Regs) (y : Nat) (cls : Nat → Bool) (c : Chip) : Chip :=
  let todo := (shedUnits r c y).filter fun src => cls (shedClass r src) && wantsRestore c src
  c.modYard y fun d => { d with restoreQ := todo.foldl (fun q src => insertRestore r src q) d.restoreQ }

/-- An event that a halter raises under a source of its feed (02 R58): it travels in its status mirror and is not reported while CTL is
absent. -/
def feedEvent (y src cls p : Nat) (c : Chip) : Chip :=
  if (c.yard y).ctlAbsent || c.parked then c
  else c.modYard y fun d => { d with evq := d.evq ++ [{ src := src, cls := cls, pay := p, t := c.mt.val }] }

/-- The feed is in lock-out or in the VBAT48 off band: every output takes its shed action whatever its class, and the signal outputs turn
off (02 R31, R33; 10 R248). -/
def enterLockout (r : Regs) (y : Nat) (c : Chip) : Chip :=
  let c := c.modYard y fun d => { d with lockout := true, restoreQ := [] }
  let c := if y = 3 then dropDeferred r St.supplyLow (fun _ => true) c else c
  let c := (shedUnits r c y).foldl (shedOutput r St.supplyLow) c
  if y = 3 then (List.range 12).foldl (fun c n => lockDo n (abortTest r 0x11 n c)) c else c

/-- The feed has left lock-out: its outputs queue for their restores, class 0 first, and the signal outputs turn on again (02 R32, R51;
10 R248). -/
def leaveLockout (r : Regs) (y : Nat) (c : Chip) : Chip :=
  let c := c.modYard y fun d => { d with lockout := false }
  let c := queueRestores r y (fun k => !classShed (c.yard y) k) c
  if y = 3 then (List.range 12).foldl (fun c n => unlockDo n c) c else c

-- Disables --------------------------------------------------------------------------------------------------------------

/-- A disable (04 R105): first `act` on the outputs, then every descriptor in progress that `p` names completes ABORTED_DISABLED, in fetch
order. What `act` completes of them waits for its turn. -/
def disabling (r : Regs) (p : Job → Bool) (act : Chip → Chip) (c : Chip) : Chip :=
  let c := act { c with jobs := c.jobs.map fun j => if p j then { j with turn := some 0 } else j }
  (c.jobs.filter fun j => j.turn.isSome).foldl (fun c j =>
    complete r j.id St.aborted (j.turn.getD 0) (updJob j.id (fun k => { k with turn := none }) c)) c

/-- The intrusive tests of a block end (15 R349). -/
def abortTests (r : Regs) (blk n : Nat) (c : Chip) : Chip := (List.range n).foldl (fun c u => abortTest r blk u c) c

/-- The self-test requests of the named units are gone with their descriptors. -/
def dropTests (p : Nat → Nat → Bool) (c : Chip) : Chip :=
  { c with age := { c.age with tests := c.age.tests.filter fun t => !p t.blk t.unit || t.running } }

/-- A disable of blocks: its descriptors and self-test requests are those of the blocks. -/
def disableBlocks (r : Regs) (blks : List Nat) (act : Chip → Chip) (c : Chip) : Chip :=
  disabling r (fun j => blks.contains j.blk) (fun c => act (dropTests (fun b _ => blks.contains b) c)) c

/-- A power domain is switched off: its blocks are disabled with their work in flight (02 R40, 04 R105). 0 PD_BB, 1 PD_LOOP, 2 PD_LAMP,
3 PD_DIO, 4 PD_ACCESS. -/
def disableDomain (r : Regs) (n : Nat) (c : Chip) : Chip :=
  if n = 0 then
    disableBlocks r [0x1B] (fun c =>
      let c := [16, 17].foldl (fun c s => linkDown r (s - 16) (abortTest r 0x1B (s - 16) c)) c
      [16, 17].foldl (fun c s => c.modSeg s fun x => { x with txq := [], rx := [], drops := 0 })
        { c with hostPort := { c.hostPort with rx := [], drops := 0 } }) c
  else if n = 1 then
    disableBlocks r [0x14] (fun c => (List.range 10).foldl (fun c k => disableLoop r k c) (abortTests r 0x14 10 c)) c
  else if n = 2 then
    disableBlocks r [0x17] (fun c => (List.range 8).foldl (fun c p =>
      (stopPort r p St.aborted c).modPort p fun q => { q with table_ := [], valid := false, shown := none, sentUnl := false }) c) c
  else if n = 3 then
    disableBlocks r [0x11, 0x12] (fun c =>
      let c := (List.range 12).foldl (fun c k => disableDo k c) (abortTests r 0x12 48 (abortTests r 0x11 12 c))
      { c with halt := { c.halt with snaps := [] } }) c
  else disableBlocks r [0x1D] (fun c => accDisable r (abortTests r 0x1D 1 c)) c

/-- A stall takes its disable state: off with the normal slew (04 R105). -/
def disableStall (r : Regs) (i : Nat) (c : Chip) : Chip := turnOff r i (abortStall r i (cancelCycle i c))

/-- A unit lies in yard `y`. -/
def inYard (y blk unit : Nat) : Bool := unitYard blk unit == some y

/-- A cross-check has a stall in its MASK for which `p` holds. -/
def crossHit (p : Nat → Bool) (x : Cross) : Bool := (List.range 64).any fun i => x.mask.testBit i && p i

/-- The cross-checks of the named stalls end with a status: a waiting one without pairs, the running one with the pairs found so far
(06 Table 6.20). -/
def abortCross (r : Regs) (st : Nat) (p : Nat → Bool) (c : Chip) : Chip :=
  let gone := c.cross.filter fun x => !x.started && crossHit p x
  let c := completeAll r (gone.map fun x => x.job) st { c with cross := c.cross.filter fun x => x.started || !crossHit p x }
  match c.cross with
  | x :: _ => if crossHit p x then endCross r st c else c
  | [] => c

/-- The outputs of a yard take their disable state (03 R72 step 1); its tests, cross-checks and sequences end. -/
def disableOutputs (r : Regs) (y : Nat) (c : Chip) : Chip :=
  let c := dropTests (inYard y) c
  let c := c.modYard y fun d => { d with resetting := true, restoreQ := [] }
  if y < 3 then
    let c := abortCross r St.aborted (fun i => stallYard i == y) c
    let c := (List.range 64).foldl (fun c i => if stallYard i = y then abortTest r 0x10 i c else c) c
    (yardOutputs r c y).foldl (fun c i => disableStall r i c) c
  else
    let c := [(0x13, 16), (0x14, 10), (0x15, 12), (0x11, 12), (0x12, 48)].foldl (fun c (e : Nat × Nat) => abortTests r e.1 e.2 c) c
    let c := dropDeferred r St.aborted (fun _ => true) { c with seqs := [] }
    let c := (List.range 16).foldl (fun c n => endFire r n St.aborted true c) c
    let c := (List.range 10).foldl (fun c n => disableLoop r n c) c
    let c := (List.range 12).foldl (fun c n => sinkOff r n (c.modSink n fun s => { s with req := false, new := none, shed := false, jobs := [], calJob := none })) c
    let c := mxBlank St.aborted c
    (List.range 12).foldl (fun c n => disableDo n c) c

/-- Step 1 of a yard reset (03 R72, 04 R105): every output takes its disable state, then every pending descriptor of the yard's units
completes ABORTED_DISABLED. -/
def disableYard (r : Regs) (y : Nat) (c : Chip) : Chip :=
  disabling r (fun j => inYard y j.blk j.unit || c.cross.any fun x => x.job == j.id && crossHit (fun i => stallYard i == y) x)
    (disableOutputs r y) c

/-- Every output of a yard has reached its disable state (03 R72). -/
def yardDisabled (r : Regs) (c : Chip) (y : Nat) : Bool :=
  (yardOutputs r c y).all fun src => !outputOn c src

end Sys2Proof.Machine
end

