-- ==== Sys2Proof/Machine/Reset.lean ====
section
/-!
DEFINITION. Sys2Proof/Machine/Reset.lean: what resets (03 R59 to R66, R75, R390): CTL with its causes, the host link, AON; the CTL
temperature, the clocks, and how a halter or WNA notices that CTL is gone (01 R22 to R25).
-/

namespace Sys2Proof.Machine

-- CTL -----------------------------------------------------------------------------------------------------------------------------------

/-- The host can reach BAR0 of a function: the link is in L0, the boot ROM does not hold CTL, the function is in D0 and its Memory Space
Enable set (14 R325; 04 Table 4.1, R390; log entry 54). -/
def hostReach (c : Chip) (pf : Nat) : Bool := c.sys.link && c.ctlRuns && !(c.ring pf).d3 && (c.ring pf).cs.mem

/-- CTL is out of reset (03 R67). -/
def Chip.powered (c : Chip) : Bool :=
  match c.sys.ctl with
  | .off | .held => false
  | _ => true

/-- What is left of a loop when CTL loses its part (03 R63; 08 R184, R195 to R197): the bridge's state, latch and count stay in YD; the
profile, the control law, its work and the winding model are gone. -/
def loopLost (l : Loop) : Loop :=
  { st := l.st, toFault := l.toFault, fault := l.fault, latch := l.latch, dutyOut := l.dutyOut, ilimAct := l.ilimAct, pos := l.pos
    posUnc := l.posUnc || !(l.st == .idle), cnt := l.cnt, posS := l.pos, cntS := l.cnt, cntP := l.cnt, iMa := l.iMa, vtMv := l.vtMv
    vbMv := l.vbMv, sig := l.sig }

/-- What the halters keep when CTL is gone (01 R21, 06 Table 6.20): everything but the descriptors that waited on them and the tests that
CTL ran on them. -/
def haltLost (x : Halt) : Halt :=
  { x with
    stalls := x.stalls.map fun e => (e.1, { e.2 with job := none, jobsP := [], diagJobs := [], offJobs := [], crossTest := false, testing := false })
    valves := x.valves.map fun e => (e.1, { e.2 with who := none, relWho := [], testing := false })
    loops := x.loops.map fun e => (e.1, loopLost e.2)
    sinks := x.sinks.map fun e => (e.1, { e.2 with jobs := [], calJob := none, testing := false })
    mx := { x.mx with nextJobs := [] }
    sis := x.sis.map fun e => (e.1, { e.2 with testing := false })
    dos := x.dos.map fun e => (e.1, { e.2 with jobs := [], testing := false })
    snaps := [] }

/-- What is left of a yard when CTL loses its view of it (03 R63): its halter. -/
def yardLost (d : Yard) : Yard :=
  { supplied := d.supplied, cleared := d.cleared, ctlAbsent := d.ctlAbsent, wdArmed := d.wdArmed, lockout := d.lockout, shed1 := d.shed1
    shed2 := d.shed2, shed3 := d.shed3, restoreQ := d.restoreQ, eqStep := d.eqStep }

/-- Everything that CTL holds outside MRAM is gone (03 R63, Table 3.3): rings and descriptors, its view of the yards, loops, ports,
reservations, sequences, cross-checks, controllers and switch, polls and grants, queued self-tests. -/
def ctlLost (c : Chip) : Chip :=
  let c := netReset (accReset c)
  { c with
    ring0 := {}, ring1 := {}, arb := [], jobs := [], budget := {}, cross := [], seqs := [], ports := [], latches := [], gstart := [], img := []
    yards := c.yards.map fun e => (e.1, yardLost e.2)
    halt := haltLost c.halt
    upd := { c.upd with keyErr := false, runFrom := 0 }
    age := { c.age with tests := [], adapt := 0, clamped := [], margin := 0 }
    sys := { c.sys with lock := false, hot := false, hotRun := 0, halted := false, unlocked := false, sleepTo := none, sleepJob := none
                        link := false, ready := false, romFail := false, fromWake := false, wokeUp := false } }

/-- MTIME is carried by WNA; its discipline starts afresh (03 R63, 11 R261). -/
def mtToWna (m : Mt) : Mt := { val := m.val, frac := m.frac, src := if m.src = .off then .off else .wna, firstSync := m.firstSync }

/-- A CTL reset (03 R62 to R64, Table 3.3): RST_CAUSE and COUNT; RESET_NOTICE on each guyline unless it is a brown-out; then CTL is held
in reset with its set-up registers at their reset values. A declared host loss is over (01 R22). -/
def resetCtl (cause : Nat) (notice : Bool) (s : State) : State :=
  if !s.chip.powered then s
  else
    let c := s.chip
    let c := { c with sys := { c.sys with causes := c.sys.causes ||| 2 ^ cause, count := satInc 255 c.sys.count } }
    let c := if notice then (List.range 5).foldl (fun c y => if yardPresent c y then c.emit (.guy y .resetNotice 0) else c) c else c
    let c := ctlLost c
    let c := { c with timers := [], mt := mtToWna c.mt, sys := { c.sys with ctl := .held } }
    let s := { s with regs := { s.regs with ctl := [] }, chip := c }
    s.onChip fun r c => (allOutputs r c).foldl (stopSafe r) c

/-- CTL_RESET_CMD (03 R72): accepted from either function. -/
def execCtlResetCmd (pf : Fin 2) (s : State) : Answer := .next (if hostReach s.chip pf.val then resetCtl 6 true s else s)

/-- BROWN_OUT (02 R35, 03 R64). -/
def execBrownOut (s : State) : Answer := .next (resetCtl 1 false s)

/-- LOCKSTEP_MISMATCH (03 R59). -/
def execLockstepMismatch (s : State) : Answer := .next (resetCtl 2 true s)

/-- FIRMWARE_WATCHDOG (03 R59). -/
def execFirmwareWatchdog (s : State) : Answer := .next (resetCtl 3 true s)

/-- PLL_LOCK_LOSS (03 R59). -/
def execPllLockLoss (s : State) : Answer := .next (resetCtl 4 true s)

/-- MEMORY_ECC_ERROR (03 R59). -/
def execMemoryEccError (s : State) : Answer := .next (resetCtl 5 true s)

/-- DEBUG_RESET (03 R59). -/
def execDebugReset (s : State) : Answer := .next (resetCtl 7 true s)

-- CTL temperature -------------------------------------------------------------------------------------------------------------------------

/-- An event of source 236 (03 R66). -/
def thermalEvent (r : Regs) (cause cls : Nat) (c : Chip) : Chip := raise r 236 cls (pay [cause, tempByte c.sys.ctlT]) c

/-- The junction measurement of CTL (03 R66, point 1). While nothing can raise an event CTL_HOT waits: it is raised by the first measurement
after the start that still finds 135 °C or more (log entry 53). -/
def ctlTemp (r : Regs) (t : Int) (c : Chip) : Chip :=
  let c := { c with sys := { c.sys with ctlT := t, hotRun := if 145000 ≤ t then min 2 (c.sys.hotRun + 1) else 0 } }
  if 135000 ≤ t ∧ !c.sys.hot ∧ c.ctlRuns then thermalEvent r 1 Cls.warning { c with sys := { c.sys with hot := true } }
  else if t < 130000 ∧ c.sys.hot then thermalEvent r 2 Cls.state { c with sys := { c.sys with hot := false } }
  else c

/-- CTL_TEMP_MEASURE (03 R66): `t` in m°C; the second measurement in a row at or above 145 °C takes the THERMAL reset, after which WNA
holds CTL. -/
def execCtlTempMeasure (t : Int) (s : State) : Answer :=
  .next (if !s.chip.powered then s
    else
      let s := s.onChip fun r c => ctlTemp r t c
      if s.chip.sys.hotRun < 2 then s
      else (resetCtl 8 true s).onChip fun _ c => { c with sys := { c.sys with thermHold := true, thermEv := true } })

/-- WNA_THERMAL_CHECK (03 R66, point 3): a reading below 125 °C lets WNA release CTL. -/
def execWnaThermalCheck (t : Int) (s : State) : Answer :=
  .next (s.onChip fun _ c =>
    if c.sys.thermHold then { c with sys := { c.sys with ctlT := t, thermHold := !decide (t < 125000) } } else c)

-- Clocks ------------------------------------------------------------------------------------------------------------------------------------

/-- CLOCK_FAIL of source 241 (03 R75, 15 R351). Which block and unit it names is not stated: a free value. While nothing can raise events it
waits for the next start (log entry 53). -/
def clockFail (r : Regs) (c : Chip) : Chip :=
  if c.ctlRuns then
    let x := c.fresh 40
    raise r 241 Cls.fault (3 + x.1 * 256) x.2
  else { c with sys := { c.sys with clkEv := c.sys.clkEv + 1 } }

/-- The clock failures that happened while nothing could raise events are raised (03 R75). -/
def clockEvents (r : Regs) (c : Chip) : Chip :=
  (List.range c.sys.clkEv).foldl (fun c _ => clockFail r c) { c with sys := { c.sys with clkEv := 0 } }

/-- XTAL40_FAIL (03 R75): CLK_WNA runs from the internal RC, and the clock monitor takes a CTL reset. Source 241 is raised before that reset,
not after the restart (the spec gives no order; log entry 53). -/
def execXtal40Fail (s : State) : Answer :=
  .next (if !s.chip.sys.xtal40 then s
    else resetCtl 4 true (s.onChip fun r c => clockFail r { c with sys := { c.sys with xtal40 := false, wnaRc := true } }))

/-- XTAL40_RETURN (03 R75): the network units leave their disabled state; a WAKE_VALIDATE that waited for its controller starts. -/
def execXtal40Return (s : State) : Answer :=
  .next (s.onChip fun r c =>
    if !c.sys.aon then c
    else
      let c := { c with sys := { c.sys with xtal40 := true, wnaRc := false } }
      (List.range 18).foldl (fun c n => if (c.seg n).st == .validating then c.modSeg n fun x => { x with valWait := segRuns r c n } else c) c)

/-- XTAL32K_FAIL (03 R75): CLK_LF runs from an internal RC. -/
def execXtal32kFail (s : State) : Answer :=
  .next (s.onChip fun r c => if c.sys.xtal32 then clockFail r { c with sys := { c.sys with xtal32 := false, lfCal := false } } else c)

/-- XTAL32K_STABLE (03 R67 step 2). -/
def execXtal32kStable (s : State) : Answer :=
  .next (s.onChip fun _ c => if c.sys.aon then { c with sys := { c.sys with xtal32 := true, lfCal := false } } else c)

/-- LF_RC_CALIBRATION (03 R75): in STANDBY and RUN the RC is calibrated against CLK_WNA. -/
def execLfRcCalibration (s : State) : Answer :=
  .next (s.onChip fun _ c => if c.awake && !c.sys.xtal32 then { c with sys := { c.sys with lfCal := true } } else c)

-- Host link ---------------------------------------------------------------------------------------------------------------------------------

/-- What a host link reset leaves of a function's ring state (03 R61, 04 R390, R391): a declared host loss, the running supervision, the
events held before the EQ was enabled. -/
def ringReset (g : Ring) : Ring :=
  { hostLost := g.hostLost, supervised := g.supervised, lastHb := g.lastHb, tmo := g.tmo, episodes := g.episodes, held := g.held
    heldOver := g.heldOver, heldOverT := g.heldOverT, heldCnt := g.heldCnt, enSinceWake := g.enSinceWake, hbSinceWake := g.hbSinceWake }

/-- A host link reset (03 R61, 04 R390): the endpoint, its configuration space and the ring state of both functions. AT_TIME descriptors
that wait are discarded; dispatched ones run on and their completions are dropped. -/
def linkReset (s : State) : State :=
  let keep := ((s.regs.ctl.clear 0x01000 0x03000).clear 0x04000 0x06000)
  { s with
    regs := { s.regs with ctl := keep }
    chip := { s.chip with
      ring0 := ringReset s.chip.ring0, ring1 := ringReset s.chip.ring1, arb := []
      jobs := (s.chip.jobs.filter fun j => !j.waiting).map fun j => { j with drop := true }
      sys := { s.chip.sys with link := false } } }

/-- PERST_ASSERT (03 R61). -/
def execPerstAssert (s : State) : Answer :=
  .next ((linkReset s).onChip fun _ c => { c with sys := { c.sys with perst := true, ready := false } })

/-- The endpoint has power and is out of reset (03 R61, R67 step 10; 14 R325, R326). -/
def endpointUp (c : Chip) : Bool :=
  match c.sys.ctl with
  | .up | .rom | .recovery => true
  | _ => false

/-- PERST_DEASSERT (03 R61, 02 R44): the endpoint becomes ready for link training; in PARK and WATCH it is a wake source. -/
def execPerstDeassert (s : State) : Answer :=
  .next (s.onChip fun r c =>
    let was := c.sys.perst
    let c := { c with sys := { c.sys with perst := false, ready := endpointUp c } }
    if was then fireWake r 255 0 c.mt.val c else c)

/-- HOT_RESET (03 R61). -/
def execHotReset (s : State) : Answer := .next (linkReset s)

/-- LINK_DOWN (03 R61). -/
def execLinkDown (s : State) : Answer := .next (linkReset s)

/-- PCIE_LINK_UP (03 R61): the link reaches L0. -/
def execPcieLinkUp (s : State) : Answer :=
  .next (s.onChip fun _ c => if c.sys.ready && !c.sys.perst then { c with sys := { c.sys with link := true } } else c)

/-- CONFIG_SPACE_WRITE (04 R78, R390): Bus Master Enable, MSI-X Enable, Function Mask, the D-state of a function, and `cs` the rest of its
configuration space; once the first three allow it the function has been brought up, and vectors that pended are sent as the base
specification lays down (log entry 10). -/
def execConfigSpaceWrite (pf : Fin 2) (bme : Bool) (msix : MsixCtl) (d3 : Bool) (cs : CfgSpace) (s : State) : Answer :=
  .next (s.onChip fun r c =>
    if !c.sys.link then c
    else msixFlush r pf.val (c.modRing pf.val fun g => { g with
      bme := bme, msixEn := msix.en, fmask := msix.mask, d3 := d3, cs := cs, hostUp := g.hostUp || (bme && msix.en && !msix.mask) }))

-- CTL absence -------------------------------------------------------------------------------------------------------------------------------

/-- RESET_NOTICE (03 R64): a halter, or WNA as 4, declares CTL absent at once. -/
def execResetNotice (y : Fin 5) (s : State) : Answer :=
  .next (s.onChip fun r c => if y.val = 4 then (if c.sys.aon then declareWna c else c) else declareAbsent r y.val c)

/-- No valid frame for 2 ms (01 R22, R25). -/
def halterWatchdog (r : Regs) (y : Nat) (c : Chip) : Chip :=
  if y = 4 then (if c.sys.aon && !c.parked then declareWna c else c)
  else if (c.yard y).wdArmed then declareAbsent r y c else c

/-- An output keeps its state when an absence ends: its count stops, and no trigger is in force any more (01 R22). -/
def endAbsence (r : Regs) (y : Nat) (c : Chip) : Chip :=
  let c := c.modYard y fun d => { d with ctlAbsent := false, wdArmed := true }
  (yardOutputs r c y).foldl (stopSafe r) c

/-- KEEP_ALIVE_TX (01 R16): CTL sends the keep-alive to an adopted yard, or to WNA. -/
def execKeepAliveTx (y : Fin 5) (s : State) : Answer :=
  .next (s.onChip fun _ c =>
    if y.val = 4 then (if c.fwRuns then c.emit (.guy 4 .keepAlive 0) else c)
    else if c.fwRuns && yardPresent c y.val && (c.yard y.val).adopted && !(c.yard y.val).unreach && !(c.yard y.val).adopting then
      c.emit (.guy y.val .keepAlive 0) else c)

/-- The band in force of a feed is reported (02 R58). Which band it names as the previous one is not stated: a free value. -/
def bandReport (r : Regs) (f : Nat) (c : Chip) : Chip :=
  let x := c.fresh 4
  raise r (224 + f) Cls.state (pay ([1, f, (c.feed f).band % 16 + x.1 * 16] ++ mv10 (c.feed f).mv)) x.2

/-- A change of VBAT_AON's band that could not be reported leaves its report to CTL's return (02 R58; log entry 52). -/
def aonReport (r : Regs) (c : Chip) : Chip :=
  if c.sys.aonMissed && c.ctlRuns then bandReport r 4 { c with sys := { c.sys with aonMissed := false } } else c

/-- KEEP_ALIVE_RX (01 R22): the watchdog restarts and is armed, and a declared absence ends. -/
def execKeepAliveRx (y : Fin 5) (s : State) : Answer :=
  .next (s.onChip fun r c =>
    if y.val = 4 then aonReport r { c with sys := { c.sys with wnaAbsent := false, wnaWoke := false } }
    else if (c.yard y.val).supplied then endAbsence r y.val c else c)

/-- PARK_ABORT (12 R285): the halter rearms its watchdog. -/
def execParkAbort (y : Fin 4) (s : State) : Answer :=
  .next (s.onChip fun _ c => if (c.yard y.val).supplied then c.modYard y.val fun d => { d with wdArmed := true } else c)

-- AON ---------------------------------------------------------------------------------------------------------------------------------------

/-- AON_LOSS (02 R41, 03 R59, R64): WNA and CTL are reset, with a RESET_NOTICE to each yard, and the module is OFF; the halters run on. The unit's identity, MRAM's contents and
the pre-regulator's input stay. -/
def execAonLoss (s : State) : Answer :=
  .next (if !s.chip.sys.aon then s
    else
      let c := s.chip
      let c := if c.powered then (List.range 4).foldl (fun c y => if yardPresent c y then c.emit (.guy y .resetNotice 0) else c) c else c
      let c := ctlLost { c with feeds := c.feeds.put 4 { c.feed 4 with band := 0, dwell := false } }
      let y := c.sys
      let c := { c with
        sys := { y3 := y.y3, ycUse := y.ycUse, prereg := y.prereg, boost := y.boost, ctlT := y.ctlT, tbp := y.tbp, nonce := y.nonce, uid := y.uid
                 perst := y.perst }
        mt := {}, timers := [], segs := [], net := {} }
      let s := { s with regs := { ctl := [], halt := (s.regs.halt.clear 0x38000 0x40000).clear 0x40A000 0x40A004 }, chip := c }
      s.onChip fun r c => (allOutputs r c).foldl (stopSafe r) c)

end Sys2Proof.Machine
end

