-- ==== Sys2Proof/Machine/Update.lean ====
section
/-!
DEFINITION. Sys2Proof/Machine/Update.lean: images, keys and the journalled swap (14 R324 to R339): the checks of an image, the update
descriptors, the loader's part of a start, and trial accounting.
-/

namespace Sys2Proof.Machine

-- Images --------------------------------------------------------------------------------------------------------------------------------

/-- Bytes of an image slot. -/
def imgBytes (m : ByteMem) (a n : Nat) : List Nat := (List.range n).map fun k => (m.read (a + k)).toNat
/-- A little-endian field of an image (14 R328). -/
def imgLe (m : ByteMem) (a n : Nat) : Nat := leNat (imgBytes m a n)
/-- A big-endian field: the hash and the signature values (14 R328). -/
def imgBe (m : ByteMem) (a n : Nat) : Nat := leNat (imgBytes m a n).reverse

/-- IMG_LEN (14 Table 14.4). -/
def imgLen (m : ByteMem) : Nat := imgLe m 8 4
/-- BUILD_ID (14 Table 14.4). -/
def buildId (m : ByteMem) : Nat := imgLe m 0x18 4
/-- SVN (14 Table 14.4). -/
def imgSvn (m : ByteMem) : Nat := imgLe m 0x10 2
/-- SET_FMT (14 Table 14.4). -/
def imgSetFmt (m : ByteMem) : Nat := imgLe m 0x12 2
/-- TR_FMT, YARDS and KEY_SLOT in one word (14 Table 14.4). -/
def imgSlots (m : ByteMem) : Nat := imgLe m 0x14 4

/-- Key slot `k` (14 R324). -/
def keyAt (u : Upd) (k : Nat) : Key := if k = 0 then u.key0 else UMap.get {} u.keys k
/-- The key hash a slot holds: slot 0 was programmed at test (14 R324). -/
def keyHash (u : Upd) (k : Nat) : Nat := if k = 0 then Config.factoryKeyHash else (keyAt u k).hash
/-- The upd with key slot `k` at `v`. -/
def setKey (k : Nat) (v : Key) (u : Upd) : Upd := if k = 0 then { u with key0 := v } else { u with keys := u.keys.put k v }

/-- MAGIC and HDR_VER match and IMG_LEN lies in its range (14 R329, check 1). -/
def headerOk (m : ByteMem) : Bool :=
  imgLe m 0 4 == 0x5A394F50 && imgLe m 4 2 == 1 && imgLen m % 256 == 0 && decide (512 ≤ imgLen m) && decide (imgLen m ≤ 0x600000)

/-- Checks 1 to 4 of 14 R329: the reason of the first that fails, 0 for none. -/
def headerReason (c : Chip) (m : ByteMem) : Nat :=
  let w := imgSlots m
  let k := keyAt c.upd (bits w 13 12)
  if !headerOk m then 1
  else if bits w 7 0 ≠ 1 then 2
  else if c.sys.y3 && bit w 10 then 3
  else if !k.prog || k.revoked then 4
  else 0

/-- What HASH covers: the header up to it and everything after the header (14 Table 14.4). -/
def imgDigest (m : ByteMem) : Nat := sha256 (imgBytes m 0 0x180 ++ imgBytes m 0x200 (imgLen m - 0x200))

/-- The checks of 14 R329 on a whole image: the reason of the first that fails, 0 where it passes. -/
def imgReason (c : Chip) (m : ByteMem) : Nat :=
  if headerReason c m ≠ 0 then headerReason c m
  else if imgBe m 0x180 32 ≠ imgDigest m then 5
  else if !ecdsaVerify (keyHash c.upd (bits (imgSlots m) 13 12)) (imgBe m 0x180 32) (imgBe m 0x1A0 32) (imgBe m 0x1C0 32) then 6
  else if imgSvn m < c.upd.minSvn then 7
  else 0

/-- The reason of a slot at a start. A slot to which no command has written holds what it left manufacture with, which the model does not
hold byte by byte: there the loader's own finding decides (log entry 41). -/
def slotReason (c : Chip) (m : ByteMem) (found : Nat) : Nat := if m.isEmpty then found else imgReason c m

/-- RESULT of the update descriptors (14 Table 14.7). -/
def updResult (reason : Nat) (already : Bool) (build : Nat) : Nat := reason % 16 + b2n already * 16 + build % 2 ^ 24 * 256

/-- An event of source 239 (14 R338). -/
def updEvent (r : Regs) (cause cls build x : Nat) (c : Chip) : Chip := raise r 239 cls (pay ([cause] ++ four build ++ [x])) c

-- Journal -------------------------------------------------------------------------------------------------------------------------------

/-- A journal record is committed (14 R330): the records go alternately to the two copies. -/
def recordJ (f : Journal → Journal) (s : State) : State :=
  s.onChip fun r c =>
    let j := { f c.upd.jr with seq := c.upd.jr.seq + 1, bidExec := buildId s.mram.exec, bidStage := buildId s.mram.stage }
    mramWrite r 197 { c with upd := { c.upd with jr := j, jrOld := c.upd.jr } }

/-- The module is in the RUN power state: CTL has been up since and has not been reset (02 R41). -/
def Chip.inRun (c : Chip) : Bool := c.sys.power == .run && c.sys.ctl == .up

/-- Whole seconds spent in RUN that the journal does not count yet (14 R333). -/
def runSeconds (c : Chip) : Nat := if c.inRun then (c.now - c.upd.runFrom) / 1000000000 else 0

/-- RUN_S grows by the whole seconds spent in RUN, in TRIAL (14 R333): the run time is committed. -/
def commitRunS (s : State) : State :=
  let sec := runSeconds s.chip
  let s := s.onChip fun _ c => { c with upd := { c.upd with runFrom := c.upd.runFrom + sec * 1000000000 } }
  if s.chip.upd.jr.st = 4 ∧ 0 < sec then recordJ (fun j => { j with runS := j.runS + sec }) s else s

/-- RUN_S_COMMIT (14 R333): another 10 s in RUN have passed. -/
def execRunSCommit (s : State) : Answer := .next (if 10 ≤ runSeconds s.chip then commitRunS s else s)

/-- REVERT_DUE (14 R333): RUN_S of a trial image reaches 600. -/
def execRevertDue (s : State) : Answer :=
  let s' := commitRunS s
  .next (if s.chip.upd.jr.st = 4 ∧ s.chip.inRun ∧ 600 ≤ s'.chip.upd.jr.runS then
      (recordJ (fun j => { j with st := 5 }) s').onChip fun r c => updEvent r 5 Cls.warning (buildId s.mram.exec) 2 c
    else s)

-- Descriptors ---------------------------------------------------------------------------------------------------------------------------

/-- IMG_WRITE and IMG_COMMIT in TRIAL and in REVERT_DUE (14 R337, check 8). -/
def notConfirmed (_ : Regs) (c : Chip) : List (Bool × Nat) := [(c.upd.jr.st == 4 || c.upd.jr.st == 5, St.imgNotConf)]

/-- What IMG_WRITE does past its checks (14 R337): a block with the header is checked first; WRITING is recorded; the block is written. -/
def imgWrite (offset : Nat) (data : List Nat) (id : Nat) (s : State) : State :=
  let head := ByteMem.writeList [] 0 (data.take 512)
  let reason := if offset = 0 then headerReason s.chip head else 0
  if reason ≠ 0 then s.onChip fun r c => complete r id St.imgInvalid (updResult reason false (buildId head)) c
  else
    let s := recordJ (fun j => { j with st := 1, sector := 0, step := 0, boots := 0, runS := 0 }) s
    let s := { s with mram := { s.mram with stage := s.mram.stage.writeList offset data } }
    let first := offset / 65536
    let last := (offset + data.length - 1) / 65536
    s.onChip fun r c =>
      let c := (List.range (last + 1 - first)).foldl (fun c k => mramWrite r (100 + first + k) c) c
      complete r id St.ok (updResult 0 false (buildId s.mram.stage)) c

/-- Body of IMG_WRITE (14 R337). -/
def bodyImgWrite (offset : Nat) (data : List Nat) : Nat → State → State := gated notConfirmed (imgWrite offset data)

/-- What checks 1 to 4 see of IMG_WRITE. -/
def descImgWrite (offset : Fin 8388608) (len : Fin 131072) (addr : Nat) (data : List Nat) : Desc :=
  {
      opc := 0x90, blk := 0x04, unit := 0
      valid := offset.val % 256 == 0 && decide (offset.val < 0x600000) && decide (256 ≤ len.val) && decide (len.val ≤ 65536) &&
        len.val % 256 == 0 && decide (offset.val + len.val ≤ 0x600000) && addr % 4 == 0
      content := decide (data.length = len.val), bufs := [(addr, len.val, false)] }

/-- IMG_WRITE (14 R337, Table 14.7). -/
def execImgWrite (h : Hdr) (offset : Fin 8388608) (len : Fin 131072) (addr : Nat) (data : List Nat) (s : State) : Answer :=
  .next (runDesc (descImgWrite offset len addr data)
    h (.imgWrite h offset len addr data) (bodyImgWrite offset.val data) s)

/-- What IMG_COMMIT does past its checks (14 R337): STAGED once the staging image passes, with MODE = 1 a CTL reset once the completion is
posted. -/
def imgCommit (mode : Bool) (id : Nat) (s : State) : State :=
  let reason := imgReason s.chip s.mram.stage
  let build := buildId s.mram.stage
  if reason ≠ 0 then s.onChip fun r c => complete r id St.imgInvalid (updResult reason false build) c
  else
    let s := (recordJ (fun j => { j with st := 2, sector := 0, step := 0, boots := 0, runS := 0 }) s).onChip fun r c =>
      complete r id St.ok (updResult 0 false build) (updEvent r 1 Cls.state build 0 c)
    if mode then resetCtl 6 true s else s

/-- Body of IMG_COMMIT (14 R337). -/
def bodyImgCommit (mode : Bool) : Nat → State → State := gated notConfirmed (imgCommit mode)

/-- What checks 1 to 4 see of IMG_COMMIT. -/
def descImgCommit : Desc :=
  { opc := 0x91, blk := 0x04, unit := 0 }

/-- IMG_COMMIT (14 R337): PREVIOUS names the image that the staging slot already holds, which must pass the same checks. -/
def execImgCommit (h : Hdr) (mode previous : Bool) (s : State) : Answer :=
  .next (runDesc descImgCommit h (.imgCommit h mode previous) (bodyImgCommit mode) s)

/-- What IMG_CONFIRM does (14 R334, R337). -/
def imgConfirm (id : Nat) (s : State) : State :=
  let build := buildId s.mram.exec
  if s.chip.upd.jr.st = 5 then s.onChip fun r c => complete r id St.imgInvalid (updResult 8 false build) c
  else if s.chip.upd.jr.st ≠ 4 then s.onChip fun r c => complete r id St.ok (updResult 0 true build) c
  else
    let s := s.onChip fun r c => tackCommit r { c with upd := { c.upd with minSvn := max c.upd.minSvn (imgSvn s.mram.exec) } }
    (recordJ (fun j => { j with st := 0, boots := 0, runS := 0 }) s).onChip fun r c =>
      complete r id St.ok (updResult 0 false build) (updEvent r 3 Cls.security build 0 c)

/-- Body of IMG_CONFIRM. -/
def bodyImgConfirm : Nat → State → State := gated (fun _ _ => []) imgConfirm

/-- What checks 1 to 4 see of IMG_CONFIRM. -/
def descImgConfirm : Desc :=
  { opc := 0x92, blk := 0x04, unit := 0 }

/-- IMG_CONFIRM (14 R334). -/
def execImgConfirm (h : Hdr) (s : State) : Answer :=
  .next (runDesc descImgConfirm h (.imgConfirm h) bodyImgConfirm s)

-- Keys ----------------------------------------------------------------------------------------------------------------------------------

/-- A write to UPD_KEYCTL with the right KEY reaches the key slots through PF1 only (14 R324, R339). -/
def keyWrite (pf key : Nat) (f : State → State) (s : State) : State :=
  if !hostReach s.chip pf then s
  else if pf = 0 then s.onChip fun r c => violation r 1 0 Reg.UPD_KEYCTL c
  else if key ≠ 0x5E1F then s
  else f s

/-- KEY_ERR is set (14 R324). -/
def keyErr (c : Chip) : Chip := { c with upd := { c.upd with keyErr := true } }

/-- The hash in UPD_KEYBUF: word 0 holds its first four bytes (14 Table 14.5). -/
def keyBuf (r : Regs) : Nat := leNat ((List.range 8).flatMap fun k => leBytes 4 (r.c (Reg.UPD_KEYBUF k))).reverse

/-- A key event of source 239 (14 R338). No image is concerned: which BUILD_ID and reason it holds is not stated, a free value. -/
def keyEvent (r : Regs) (cause : Nat) (c : Chip) : Chip :=
  let x := c.fresh 40
  raise r 239 Cls.security (cause + x.1 * 256) x.2

/-- A blank slot takes the hash in UPD_KEYBUF and its DEBUG permission (14 R324). -/
def keyProgram (slot : Nat) (debug : Bool) (s : State) : State :=
  s.onChip fun r c =>
    if (keyAt c.upd slot).prog then keyErr c
    else keyEvent r 7 { c with upd := setKey slot { hash := keyBuf r, prog := true, debug := debug } c.upd }

/-- A revoke is refused for a blank slot, for the slot that signs the running image, and for the last unrevoked one (14 R324). -/
def keyRevoke (slot : Nat) (s : State) : State :=
  s.onChip fun r c =>
    let k := keyAt c.upd slot
    let other := (List.range 4).any fun j => !(j == slot) && (keyAt c.upd j).prog && !(keyAt c.upd j).revoked
    if !k.prog || (c.fwRuns && c.upd.execSlot == slot) || !other then keyErr c
    else keyEvent r 8 { c with upd := setKey slot { k with revoked := true } c.upd }

/-- KEY_PROGRAM (14 R324). -/
def execKeyProgram (pf : Fin 2) (slot : Fin 4) (key : Fin 65536) (debug : Bool) (s : State) : Answer :=
  .next (keyWrite pf.val key.val (keyProgram slot.val debug) s)

/-- KEY_REVOKE (14 R324). -/
def execKeyRevoke (pf : Fin 2) (slot : Fin 4) (key : Fin 65536) (s : State) : Answer := .next (keyWrite pf.val key.val (keyRevoke slot.val) s)

-- Loader --------------------------------------------------------------------------------------------------------------------------------

/-- The 64 KiB sectors of the larger of the two images (14 R331). -/
def swapSectors (s : State) : Nat := (max (min 0x600000 (imgLen s.mram.exec)) (min 0x600000 (imgLen s.mram.stage)) + 65535) / 65536

/-- A swap starts, forward or backward (14 R331): the journal names it before its first step (log entry 42). -/
def startSwap (back : Bool) (s : State) : State :=
  (recordJ (fun j => { j with st := if back then 6 else 3, sector := 0, step := 0, nsect := swapSectors s }) s).onChip fun _ c =>
    { c with sys := { c.sys with ctl := .swap }, upd := { c.upd with noteB := false } }

/-- The valid copy of the settings store with a format and the higher sequence number (14 R335). -/
def settingsOf (u : Upd) (fmt : Nat) : Option Settings :=
  match u.setA.valid && u.setA.fmt == fmt, u.setB.valid && u.setB.fmt == fmt with
  | true, true => some u.latest
  | true, false => some u.setA
  | false, true => some u.setB
  | false, false => none

/-- The default settings block of an image (14 R328, R335). -/
def defaultSettings (m : ByteMem) (fmt seq : Nat) : Settings :=
  let n := imgLe m 0x20 4
  let block := imgBytes m (imgLe m 0x1C 4) (min n 0x7F000)
  if n = 0 then { valid := true, fmt := fmt, seq := seq }
  else { valid := true, fmt := fmt, seq := seq, words := Config.parseSettings block
         routes := (Config.parseRoutes block).map fun x =>
           { src := x.1, id := x.2.1, mask := x.2.2.1, fmt := x.2.2.2.1, cls := x.2.2.2.2.1, dst := x.2.2.2.2.2.1, wake := x.2.2.2.2.2.2.1
             conv := x.2.2.2.2.2.2.2 }
         macs := (Config.parseMacs block).map fun x => { addr := x.1, vlan := x.2.1, port := x.2.2, fixed := true }
         scheds := (Config.parseScheds block).foldl (fun m e => UMap.put m e.1 e.2) []
         curves := (Config.parseCurves block).foldl (fun m e => UMap.put m e.1 e.2) [] }

/-- The loader assigns the SRAM regions, as the image header names them, and the MRAM partitions to worlds (14 R321, R325 step 4). The header
of the image that the module is delivered with is not held (log entry 41). -/
def assignMemory (m : ByteMem) (c : Chip) : Chip :=
  let rgn : UMap (Nat × Nat) := if m.isEmpty then [] else
    (List.range 16).map fun k => (k, (imgLe m (0x24 + 8 * k) 4, imgLe m (0x28 + 8 * k) 4))
  { c with sys := { c.sys with sram := rgn, parts := [(0, 3), (1, 1), (2, 1), (3, 1), (4, 1), (5, 2), (6, 1)] } }

/-- The loader starts the image in the execution slot (14 R325 step 4, R335): the memory of CTL is assigned to worlds, and the settings store
gets the image's defaults where no valid copy has its format. -/
def startImage (s : State) : State :=
  s.onChip fun r c =>
    let m := s.mram.exec
    let fmt := imgSetFmt m
    let u := c.upd
    let c := assignMemory m c
    let c := { c with
      sys := { c.sys with ctl := .firmware, ycUse := if m.isEmpty then c.sys.ycUse else bit (imgSlots m) 10 }
      upd := { u with setFmt := fmt, execSlot := bits (imgSlots m) 13 12 } }
    match settingsOf u fmt with
    | some _ => c
    | none =>
      let new := defaultSettings m fmt (u.latest.seq + 1)
      let c := mramWrite r 206 (mramWrite r 198 c)
      { c with upd := { c.upd with
        setA := new, setB := { new with seq := new.seq + 1 }, setReset := true, pendEv := c.upd.pendEv ++ [6] } }

/-- No image passes (14 R325 step 3, R326; 03 R65): PF1 window 0 over the whole host address space, the boot lock, PF1's rings. -/
def enterRecovery (s : State) : State :=
  let s := if s.chip.upd.jr.st = 7 then s else recordJ (fun j => { j with st := 7 }) s
  let n := 16
  let ctl := (((s.regs.ctl.wr (Reg.WIN_BASE_LO n) 7).wr (Reg.WIN_BASE_HI n) 0).wr (Reg.WIN_LIM_LO n) 0xFFFFF000).wr (Reg.WIN_LIM_HI n) 0xFFFFFFFF
  { s with regs := { s.regs with ctl := ctl } }.onChip fun _ c =>
    { c with sys := { c.sys with ctl := .recovery, lock := true, ready := !c.sys.perst } }

/-- The loader verifies the execution slot, and falls back on the staging slot (14 R325 step 3). `exec` and `stage` are its findings on
slots that hold what they left manufacture with. -/
def verifySlots (exec stage : Nat) (s : State) : State :=
  if slotReason s.chip s.mram.exec exec = 0 then startImage s
  else if slotReason s.chip s.mram.stage stage = 0 then
    startSwap true (s.onChip fun _ c => { c with upd := { c.upd with revReason := 3 } })
  else enterRecovery s

/-- A swap that a cut interrupted goes on (14 R330, Table 14.6). This start does not count towards BOOTS: the image was not yet in TRIAL (14
Table 14.10). -/
def resumeSwap (s : State) : State :=
  s.onChip fun _ c => { c with sys := { c.sys with ctl := .swap }, upd := { c.upd with noteB := false } }

/-- The reason of a backward swap that a cut interrupted, from the trial counters its record keeps (14 R330, R333; log entry 42). -/
def resumedReason (j : Journal) : Nat := if 600 ≤ j.runS then 2 else if 3 ≤ j.boots then 1 else 3

/-- BOOT_LOADER (14 R325, R330, R333, Table 14.6): `loader` says whether the loader partition verifies. -/
def execBootLoader (loader : Bool) (exec stage : Fin 8) (s : State) : Answer :=
  .next (if !(s.chip.sys.ctl == .bist) then s
    else if !loader then s.onChip fun _ c => { c with sys := { c.sys with ctl := .rom, romFail := true, ready := !c.sys.perst } }
    else
      let j := s.chip.upd.jr
      let why (n : Nat) (s : State) : State := s.onChip fun _ c => { c with upd := { c.upd with revReason := n } }
      if j.st = 2 then startSwap false s
      else if j.st = 3 then resumeSwap s
      else if j.st = 6 then why (resumedReason j) (resumeSwap s)
      else if j.st = 5 then startSwap true (why 2 s)
      else if j.st = 7 then enterRecovery s
      else if j.st = 4 && s.chip.upd.noteB then
        if 3 ≤ j.boots then startSwap true (why 1 s)
        else verifySlots exec.val stage.val (recordJ (fun j => { j with boots := j.boots + 1 }) s)
      else verifySlots exec.val stage.val s)

/-- A slot with 64 KiB from offset `dst` on replaced by those of another from offset `src` on. -/
def copySector (dst src : Nat) (old new : ByteMem) : ByteMem :=
  let below := old.filter fun e => decide (e.1 < dst)
  let above := old.filter fun e => decide (dst + 65536 ≤ e.1)
  let part := (new.filter fun e => decide (src ≤ e.1) && decide (e.1 < src + 65536)).map fun e => (e.1 - src + dst, e.2)
  below ++ part ++ above

/-- The copy of step A (1), B (2) or C (3) of sector `i` (14 R331). -/
def swapCopy (i step : Nat) (s : State) : State :=
  let m := s.mram
  if step = 1 then ({ s with mram := { m with scratch := copySector 0 (65536 * i) m.scratch m.exec } }).onChip fun r c => mramWrite r 196 c
  else if step = 2 then
    ({ s with mram := { m with exec := copySector (65536 * i) (65536 * i) m.exec m.stage } }).onChip fun r c => mramWrite r (4 + i) c
  else ({ s with mram := { m with stage := copySector (65536 * i) 0 m.stage m.scratch } }).onChip fun r c => mramWrite r (100 + i) c

/-- The end of a swap (14 R331): TRIAL with BOOTS = 1 and RUN_S = 0, or IDLE with REVERTED set. The loader then verifies the new image. -/
def endSwap (s : State) : State :=
  if s.chip.upd.jr.st = 6 then
    (recordJ (fun j => { j with st := 0, sector := 0, step := 0, boots := 0, runS := 0 }) s).onChip fun _ c =>
      { c with sys := { c.sys with ctl := .bist }, upd := { c.upd with reverted := true, pendEv := c.upd.pendEv ++ [4] } }
  else
    (recordJ (fun j => { j with st := 4, sector := 0, step := 0, boots := 1, runS := 0 }) s).onChip fun _ c =>
      { c with sys := { c.sys with ctl := .bist }, upd := { c.upd with pendEv := c.upd.pendEv ++ [2] } }

/-- SWAP_STEP (14 R331): the step that follows the last record is carried out and recorded. -/
def execSwapStep (s : State) : Answer :=
  .next (if !(s.chip.sys.ctl == .swap) then s
    else
      let j := s.chip.upd.jr
      let i := if j.step = 3 then j.sector + 1 else j.sector
      let step := if j.step = 3 then 1 else j.step + 1
      if j.nsect ≤ i then endSwap s
      else
        let s := recordJ (fun j => { j with sector := i, step := step }) (swapCopy i step s)
        if step = 3 ∧ j.nsect ≤ i + 1 then endSwap s else s)

-- Status --------------------------------------------------------------------------------------------------------------------------------

/-- UPD_STATUS (14 Table 14.5). -/
def updStatus (c : Chip) : Nat :=
  let u := c.upd
  (if c.sys.ctl == .recovery then 7 else u.jr.st % 8) + b2n u.reverted * 8 + (if u.reverted then u.revReason % 4 else 0) * 16 +
    b2n u.setReset * 64 + u.jr.boots % 16 * 2 ^ 16 + min 4095 (u.jr.runS / 10) * 2 ^ 20

/-- UPD_EXEC (14 Table 14.5). -/
def updExec (m : Mram) : Nat := buildId m.exec
/-- UPD_STAGE (14 Table 14.5): 0 without a valid header. -/
def updStage (m : Mram) : Nat := if headerOk m.stage then buildId m.stage else 0
/-- UPD_SVN (14 Table 14.5). -/
def updSvn (u : Upd) : Nat := u.minSvn % 65536 + u.setFmt % 65536 * 65536
/-- UPD_KEYSTAT (14 Table 14.5). -/
def updKeystat (u : Upd) : Nat :=
  flagBits ((List.range 4).map fun k => (k, (keyAt u k).prog)) + flagBits ((List.range 4).map fun k => (4 + k, (keyAt u k).revoked)) +
    flagBits ((List.range 4).map fun k => (8 + k, (keyAt u k).debug)) + u.execSlot % 4 * 2 ^ 12 + b2n u.keyErr * 2 ^ 14

end Sys2Proof.Machine
end

