-- ==== Sys2Proof/Machine/Age.lean ====
section
/-!
DEFINITION. Sys2Proof/Machine/Age.lean: ageing measurements and the margin plan (15 R340 to R343), the adaptive loops (15 R344 to R346)
and self-test (15 R347 to R351).
-/

namespace Sys2Proof.Machine

-- Margin plan ---------------------------------------------------------------------------------------------------------------------------

/-- The caps and ageing of stall `i`. -/
def capAt (c : Chip) (i : Nat) : Cap := UMap.get {} c.age.caps i
/-- The chip with the caps of stall `i` changed by `f`. -/
def modCap (i : Nat) (f : Cap → Cap) (c : Chip) : Chip := { c with age := { c.age with caps := c.age.caps.put i (f (capAt c i)) } }

/-- The greatest number up to 1,023 whose square does not exceed `x`. -/
def isqrt (x : Nat) : Nat := (List.range 10).foldl (fun n k => if (n + 2 ^ (9 - k)) * (n + 2 ^ (9 - k)) ≤ x then n + 2 ^ (9 - k) else n) 0

/-- Row ceiling × √(1 ÷ (1 + x)) for x in 0.1 %, rounded down to the row step, in 0.1 A (15 Table 15.2). -/
def derated (i : Nat) (x : Int) : Nat :=
  let k := stallKind i
  let v := isqrt (rowCeil k * rowCeil k * 1000 / (1000 + x.toNat))
  v - v % ilimStep k

/-- The budget of every unit in wear units (15 R341). -/
def wearBudget : Nat := 1000000000

/-- The caps that 15 Table 15.2 derives for a stall, as limit (and ceiling), thermal and retry cap; none is 1023, 255, 15. -/
def planCaps (i : Nat) (k : Cap) : Nat × Nat × Nat :=
  let lim := min (if 100 < k.d then derated i k.d else 1023) (if 250 < k.z then derated i k.z else 1023)
  let tsd := if 400 < k.z then 150 else if 250 < k.z then 160 else if 150 < k.z then 165 else 255
  let retry := min (if 300 < k.d ∨ 400 < k.z then 2 else 15)
    (if wearBudget < k.used then 1 else if wearBudget * 8 < k.used * 10 then 3 else 15)
  (lim, tsd, retry)

/-- d, z or u lies past the end of its last range but one (15 Table 15.2, END_OF_LIFE). -/
def capEol (k : Cap) : Bool := decide (300 < k.d) || decide (400 < k.z) || decide (wearBudget < k.used)

/-- The quantities of d (0), z (1) and u (2) that lie past the lower edge of their second range (15 R342). -/
def capPast (k : Cap) : Nat := flagBits [(0, decide (100 < k.d)), (1, decide (150 < k.z)), (2, decide (wearBudget * 8 < k.used * 10))]

/-- The value of d, z or u as an event holds it (15 R351): wear units saturate. -/
def capValue (k : Cap) (n : Nat) : Nat := if n = 0 then ofSigned 16 k.d else if n = 1 then ofSigned 16 k.z else min 65535 k.used

/-- A stall's caps, the minimum of the plan's and the host's (15 R343), reach its halter where CTL may command the yard (06 R148): a thermal
cap takes effect at once, and AGE_CAP with it. -/
def sendCaps (r : Regs) (i : Nat) (c : Chip) : Chip :=
  if !yardCommandable c (stallYard i) then c
  else
    let k := capAt c i
    let c := c.modStall i fun s => { s with kLim := min k.lim k.hLim, kCeil := min k.ceil k.hCeil, kTsd := min k.tsd k.hTsd, kRetry := min k.retry k.hRetry }
    let i := leader r c i
    let hot := capsBite r c i &&& 4
    if hot = 4 ∧ !(c.stall i).capSeen.testBit 2 then
      stallEvent r i 0x21 Cls.limit (c.modStall i fun s => { s with capSeen := s.capSeen ||| 4 })
    else c

/-- The plan of stall `i` is made anew (15 R342): each cap is the minimum of the old and the derived one. PLAN_CHANGED when a cap first
changes, WEAR_WARN when d, z or u first passes the lower edge of its second range, END_OF_LIFE once. -/
def replan (r : Regs) (i : Nat) (c : Chip) : Chip :=
  let k := capAt c i
  let p := planCaps i k
  let lim := min k.lim p.1
  let tsd := min k.tsd p.2.1
  let retry := min k.retry p.2.2
  let changed := decide (lim < k.lim) || decide (min k.ceil p.1 < k.ceil) || decide (tsd < k.tsd) || decide (retry < k.retry)
  let first := (k.lim == 1023 && decide (lim < 1023)) || (k.tsd == 255 && decide (tsd < 255)) || (k.retry == 15 && decide (retry < 15))
  let past := capPast k
  let c := modCap i (fun k => { k with lim := lim, ceil := min k.ceil p.1, tsd := tsd, retry := retry, eol := k.eol || capEol k, warned := k.warned ||| past }) c
  let c := if changed then { c with age := { c.age with planSeq := (c.age.planSeq + 1) % 65536, planT := c.mt.val } } else c
  let c := if first then
      ageEvent r 2 Cls.limit 0x10 i (if lim < k.lim then lim else if tsd < k.tsd then tsd else retry) c
    else c
  let c := (List.range 3).foldl (fun c n =>
    if past.testBit n && !k.warned.testBit n then ageEvent r 1 Cls.warning 0x10 i (capValue k n) c else c) c
  let c := if capEol k && !k.eol then
      ageEvent r 3 Cls.fault 0x10 i (capValue k (if 300 < k.d then 0 else if 400 < k.z then 1 else 2)) c
    else c
  sendCaps r i c

/-- A result enters the results kept of a quantity: the latest of each RUN period, three periods (15 R340; log entry 43). -/
def addResult (v : Int) (run : Nat) (l : List (Int × Nat)) : List (Int × Nat) :=
  ((v, run) :: (match l with
    | (_, n) :: rest => if n = run then rest else l
    | [] => [])).take 3

/-- Three results, of three RUN periods, agree within ±`tol` (15 R340). -/
def agreed (tol : Int) (l : List (Int × Nat)) : Bool :=
  match l with
  | [a, b, d] => decide (max a.1 (max b.1 d.1) - min a.1 (min b.1 d.1) ≤ 2 * tol)
  | _ => false

/-- A value's excess over its factory value, in 0.1 % (15 R340). -/
def excess (v factory : Nat) : Int := if factory = 0 then 0 else ((v : Int) - factory) * 1000 / factory

/-- The event source of measurement unit `u`: stalls 0–63; VG0–VG3 (256 on), V0–V15, MB6–MB9, DO0–DO11 from 64 on, in the order of 15
Table 15.6. -/
def rdsSource (u : Nat) : Nat :=
  if u < 64 then u else if u < 68 then 256 + (u - 64) else if u < 84 then 64 + (u - 68) else if u < 88 then 86 + (u - 84) else 113 + (u - 88)

/-- The conditions of a stall's on-resistance measurement (15 Table 15.1): static ON for at least 1 s, at least half the nominal current of
its row, Tj steady within ±1 K over 1 s. -/
def rdsReady (s : Stall) (i now : Nat) : Bool :=
  s.st == .on && !s.pwm && decide (s.tOn + 1000000000 ≤ now) && decide (50 * rowNominal (stallKind i) ≤ s.iMa.natAbs) &&
    decide (s.tjT + 1000000000 ≤ now)

/-- An on-resistance measurement of a stall (15 R340, R342). -/
def stallRds (r : Regs) (i rds : Nat) (c : Chip) : Chip :=
  let k := capAt c i
  if !rdsReady (c.stall i) i c.now || (!k.dHist.isEmpty && decide (c.now < k.rdsT + 3600000000000)) then c
  else
    let d := excess rds (Config.factoryRds i)
    let h := addResult d c.age.runId k.dHist
    let c := mramWrite r 214 (modCap i (fun k => { k with dHist := h, rdsT := c.now }) c)
    if agreed 20 h then replan r i (modCap i (fun k => { k with d := d, rds := rds }) c) else c

/-- The sensed current of a switch other than a stall and its rating, mA (15 Table 15.1): a valve group (256 on) its channels' sum and 20 A, a
channel 12 A, an integrated bridge 3 A, a signal output 0.5 A (07 Table 7.1; 08 Table 8.1; 10 Table 10.5; log entry 64). -/
def switchLoad (c : Chip) (src : Nat) : Nat × Nat :=
  if 256 ≤ src then (((List.range 4).map fun k => (c.valve (4 * (src - 256) + k)).iMa.natAbs).sum, 20000)
  else if src < 80 then ((c.valve (src - 64)).iMa.natAbs, 12000)
  else if src < 90 then ((c.loop (src - 80)).iMa.natAbs, 3000)
  else ((c.dout (src - 113)).iMa.natAbs, 500)

/-- An on-resistance measurement of another switch, which enters only the budget manager (15 R340, R342): at most once per hour, at 30 % of
its rating or more. -/
def otherRds (r : Regs) (src rds : Nat) (c : Chip) : Chip :=
  let load := switchLoad c src
  let old : List (Int × Nat) := UMap.get [] c.age.histX src
  if 100 * load.1 < 30 * load.2 ∨ (!old.isEmpty && decide (c.now < UMap.get 0 c.age.rdsXT src + 3600000000000)) then c
  else
    let h := addResult (excess rds (Config.factoryRds src)) c.age.runId old
    let c := mramWrite r 214 { c with age := { c.age with histX := c.age.histX.put src h, rdsXT := c.age.rdsXT.put src c.now } }
    if agreed 30 h then { c with age := { c.age with rdsX := c.age.rdsX.put src rds } } else c

/-- RDS_MEASUREMENT (15 R340): the on-resistance at 25 °C, in 0.1 mΩ, of a stall or another switch. -/
def execRdsMeasurement (u : Fin 100) (rds : Fin 65536) (s : State) : Answer :=
  .next (s.onChip fun r c =>
    if !c.inRun || c.sys.halted then c
    else if u.val < 64 then stallRds r u.val rds.val c else otherRds r (rdsSource u.val) rds.val c)

/-- Wear units of a unit map summed into the ageing record, for the units for which `p` holds. -/
def commitWear (r : Regs) (y : Nat) (c : Chip) : Chip :=
  if !yardCommandable c y then c
  else
    let c := (List.range 64).foldl (fun c i =>
      if stallYard i = y ∧ (c.stall i).wear ≠ 0 then
        let w := (c.stall i).wear
        replan r i (modCap i (fun k => { k with used := k.used + w }) (c.modStall i fun s => { s with wear := 0 }))
      else c) c
    if y ≠ 3 then c
    else
      let c := (List.range 16).foldl (fun c n =>
        if (c.valve n).wear = 0 then c
        else { c.modValve n (fun v => { v with wear := 0 }) with
          age := { c.age with wearX := c.age.wearX.put n (UMap.get 0 c.age.wearX n + (c.valve n).wear) } }) c
      (List.range 12).foldl (fun c n =>
        if (c.dout n).wear = 0 then c
        else { c.modDout n (fun v => { v with wear := 0 }) with
          age := { c.age with wearX := c.age.wearX.put (16 + n) (UMap.get 0 c.age.wearX (16 + n) + (c.dout n).wear) } }) c

/-- CTL commits the halters' wear counters to the ageing record (15 R341). -/
def wearCommit (r : Regs) (c : Chip) : Chip := mramWrite r 214 ((List.range 4).foldl (fun c y => commitWear r y c) c)

/-- WEAR_COMMIT (15 R341). -/
def execWearCommit (s : State) : Answer :=
  .next (s.onChip fun r c => if c.awake && c.fwRuns && !c.sys.halted then wearCommit r c else c)

/-- RESULT of MARGIN_CAP: the effective caps of the stall (15 Table 15.5). -/
def marginResult (k : Cap) : Nat := min k.lim k.hLim % 1024 + min k.tsd k.hTsd % 256 * 2 ^ 10 + min k.retry k.hRetry % 16 * 2 ^ 18

/-- What MARGIN_CAP does past its checks (15 R343): a field of 0 means none; a thermal cap outside 150 to 175 °C is clamped. -/
def marginCap (i : Nat) (clear : Bool) (lim ceil tsd retry : Nat) (id : Nat) (s : State) : State :=
  s.onChip fun r c =>
    let hot := clampN 150 175 tsd
    let c := modCap i (fun k =>
      if clear then { k with hLim := 1023, hCeil := 1023, hTsd := 255, hRetry := 15 }
      else { k with hLim := if lim = 0 then 1023 else lim, hCeil := if ceil = 0 then 1023 else ceil, hTsd := if tsd = 0 then 255 else hot
                    hRetry := if retry = 0 then 15 else retry }) c
    let c := sendCaps r i (mramWrite r 214 c)
    complete r id (if !clear && !(tsd == 0) && !(hot == tsd) then St.okClamped else St.ok) (marginResult (capAt c i)) c

/-- Body of MARGIN_CAP. -/
def bodyMarginCap (i : Nat) (clear : Bool) (lim ceil tsd retry : Nat) : Nat → State → State :=
  gated (fun r c => checks56 r c 0x05 0) (marginCap i clear lim ceil tsd retry)

/-- What checks 1 to 4 see of MARGIN_CAP. -/
def descMarginCap (h : Hdr) (stall : Fin 64) (s : State) : Desc :=
  {
      opc := 0xA2, blk := 0x05, unit := 0, target := !(s.chip.sys.y3 && decide (48 ≤ stall.val))
      foreign := !(ownerSecure s.regs 0x10 stall.val == h.secure) }

/-- MARGIN_CAP (15 R343, Table 15.5). -/
def execMarginCap (h : Hdr) (stall : Fin 64) (clear : Bool) (lim ceil : Fin 1024) (tsd : Fin 256) (retry : Fin 16) (s : State) : Answer :=
  .next (runDesc (descMarginCap h stall s)
    h (.marginCap h stall clear lim ceil tsd retry) (bodyMarginCap stall.val clear lim.val ceil.val tsd.val retry.val) s)

-- Report --------------------------------------------------------------------------------------------------------------------------------

/-- The MRAM partition of a 64 KiB sector (14 Table 14.2). -/
def sectorPartition (n : Nat) : Nat :=
  if n < 4 then 0 else if n < 100 then 1 else if n < 196 then 2 else if n < 198 then 3 else if n < 214 then 4 else if n < 230 then 5
  else if n < 232 then 6 else 7

/-- The highest MRAM sector use in % and its partition (15 Table 15.6); of equals the first. -/
def mramUse (a : Age) : Nat × Nat :=
  a.mramW.foldl (fun m e => if m.1 < e.2 / 100000000 then (e.2 / 100000000, sectorPartition e.1) else m) (0, 1)

/-- The 16 bytes of a stall in an AGE_REPORT record (15 Table 15.6). -/
def reportStall (k : Cap) : List Nat :=
  leBytes 4 (k.lim % 1024 + k.ceil % 1024 * 65536) ++ leBytes 4 (k.tsd % 256 + k.retry % 16 * 256 + b2n k.eol * 65536) ++
    leBytes 4 (ofSigned 16 k.d + ofSigned 16 k.z * 65536) ++ leBytes 4 (min 0xFFFFFFFF k.used)

/-- The on-resistance of a switch at 25 °C as the record holds it (15 Table 15.6). -/
def reportRds (c : Chip) (src : Nat) : Nat :=
  if UMap.get 0 c.age.rdsX src = 0 then Config.factoryRds src else UMap.get 0 c.age.rdsX src

/-- The record of AGE_REPORT (15 Table 15.6). -/
def ageRecord (c : Chip) : List Nat :=
  let a := c.age
  leBytes 4 (a.planSeq % 65536 + 65536) ++ leBytes 4 a.planT ++ leBytes 4 (a.planT / 2 ^ 32 % 65536) ++
    leBytes 4 (a.margin % 256 + a.avs % 256 * 256) ++ leBytes 4 ((mramUse a).1 % 256 + (mramUse a).2 * 256) ++ List.replicate 44 0 ++
    ((List.range 64).flatMap fun i => reportStall (capAt c i)) ++
    ((List.range 36).flatMap fun n => leBytes 4 (reportRds c (rdsSource (64 + n)))) ++ List.replicate 816 0

/-- An access from one world to an MRAM partition lies in the other world (14 R321, Table 14.2): the secure world's partitions, but a read of
one that is open to reads. -/
def partBlocked (c : Chip) (secure write : Bool) (p : Nat) : Bool :=
  let w := UMap.get 0 c.sys.parts p
  !secure && !(w == 0) && !(w == 2 && !write)

/-- The SRAM region, of the other world, in which an access from one world to an address lies (14 R321, Table 14.4); of several the first. No command
of the table is a core's own access, so none meets it (log entry 64). -/
def sramBlocked (c : Chip) (secure : Bool) (a : Nat) : Option Nat :=
  (c.sys.sram.find? fun e =>
    decide (bits e.2.1 31 12 ≤ a / 4096) && decide (a / 4096 ≤ bits e.2.2 31 12) && !(bit e.2.1 0 == secure)).map fun e => e.1

/-- A blocked access moves no data and raises cause INTERNAL of source 242 with the region or partition (14 R321, R322). -/
def internalBlocked (r : Regs) (pf region : Nat) (c : Chip) : Chip := violation r 5 pf region c

/-- What AGE_REPORT does past its checks (15 R350): the record is read from the ageing partition in the descriptor's world and written to the
host. -/
def ageReport (h : Hdr) (addr id : Nat) (r : Regs) (c : Chip) : Chip :=
  let c := if partBlocked c h.secure false 5 then internalBlocked r h.pf.val 5 c else dmaJob id addr (ageRecord c) c
  complete r id St.ok (c.age.planSeq % 65536) c

/-- Body of AGE_REPORT (15 R350). -/
def bodyAgeReport (h : Hdr) (addr : Nat) : Nat → State → State :=
  gated (fun r c => checks56 r c 0x05 0) fun id s => s.onChip (ageReport h addr id)

/-- What checks 1 to 4 see of AGE_REPORT. -/
def descAgeReport (addr : Nat) : Desc :=
  { opc := 0xA1, blk := 0x05, unit := 0, valid := addr % 64 == 0, bufs := [(addr, 2048, true)] }

/-- AGE_REPORT (15 R350, Table 15.5). -/
def execAgeReport (h : Hdr) (addr : Nat) (s : State) : Answer :=
  .next (runDesc (descAgeReport addr) h (.ageReport h addr)
    (bodyAgeReport h addr) s)

/-- The highest wear use in %, of all units (15 Table 15.8). -/
def worstUse (a : Age) : Nat :=
  max (a.caps.foldl (fun m e => max m (e.2.used * 100 / wearBudget)) 0) (a.wearX.foldl (fun m e => max m (e.2 * 100 / wearBudget)) 0)

/-- AGE_STATUS (15 Table 15.8). -/
def ageStatus (a : Age) : Nat :=
  a.planSeq % 65536 + b2n (a.caps.any fun e => e.2.eol) * 2 ^ 16 + min 255 (worstUse a) * 2 ^ 24

/-- ADAPT_STATUS (15 Table 15.8). -/
def adaptStatus (a : Age) : Nat := a.adapt % 64 + a.margin % 256 * 256

-- Adaptive loops ------------------------------------------------------------------------------------------------------------------------

/-- CORE_MARGIN (15 R340, R344, R346): a timing margin in %, read at the present AVS voltage, and the voltage, in 5 mV above 0.70 V, for
which AVS asks. Each reading at VMAX that finds less than 5 % raises CORE_MARGIN (log entry 64). -/
def execCoreMargin (m : Fin 101) (want : Fin 256) (s : State) : Answer :=
  .next (s.onChip fun r c =>
    if !c.inRun || c.sys.halted then c
    else
      let lo := min 50 (bits (r.c Reg.AVS_ENV) 7 0)
      let hi := max lo (min 50 (bits (r.c Reg.AVS_ENV) 15 8))
      let c := mramWrite r 214 { c with age := { c.age with margin := m.val } }
      let c := if m.val < 5 ∧ hi ≤ c.age.avs then ageEvent r 4 Cls.fault 0x05 0 m.val c else c
      adaptTo r 0 0 0x05 0 lo hi want.val { c with age := { c.age with avs := clampN lo hi want.val } })

/-- SENSE_TRIM (15 R344): the offset and gain, in 0.1 %, for which the sense trimming of a unit asks. -/
def execSenseTrim (src : Fin 125) (offset gain : Int) (s : State) : Answer :=
  .next (s.onChip fun r c =>
    if !c.awake || !c.fwRuns || c.sys.halted || src.val = 90 || src.val = 91 || src.val = 104 then c
    else
      let top : Int := clampN 1 50 (bits (r.c Reg.SENSE_ENV) 7 0)
      let o := clampI (-top) top offset
      let g := clampI (-top) top gain
      let c := { c with age := { c.age with trims := c.age.trims.put src.val (o, g) } }
      if o = offset then adaptTo r 1 src.val (srcBlock src.val) (srcUnit src.val) (-top) top gain c
      else adaptTo r 1 src.val (srcBlock src.val) (srcUnit src.val) (-top) top offset c)

/-- A guyline's equaliser takes a step within its envelope (15 R344). -/
def guylineStep (r : Regs) (y step : Nat) (c : Chip) : Chip :=
  let lo := bits (r.c Reg.EQ_ENV) 3 0
  let hi := max lo (bits (r.c Reg.EQ_ENV) 7 4)
  adaptTo r 2 y 0x05 y lo hi step (c.modYard y fun d => { d with eqStep := clampN lo hi step })

/-- GUYLINE_EQUALISATION (15 R344): the step for which a guyline's equaliser asks; 4 is WNA's guyline. -/
def execGuylineEqualisation (y : Fin 5) (step : Fin 256) (s : State) : Answer :=
  .next (s.onChip fun r c => if c.fwRuns && !c.sys.halted then guylineStep r y.val step.val c else c)

/-- GUYLINE_RETRAINING (01 R19; 15 R344): an upstream link is established or established again: its equaliser trains and its mirrors start
afresh. -/
def execGuylineRetraining (y : Fin 5) (step : Fin 256) (s : State) : Answer :=
  .next (s.onChip fun r c =>
    if c.ctlRuns then guylineStep r y.val step.val (c.modYard y.val fun d => { d with mirrorUp := false, evq := d.evTx ++ d.evq, evTx := [], results := d.resTx ++ d.results, resTx := [] })
    else c)

/-- BASEPLATE_TEMP_READ (18 R386): the baseplate temperature in m°C. -/
def execBaseplateTempRead (t : Int) (s : State) : Answer :=
  .next (s.onChip fun _ c => { c with sys := { c.sys with tbp := t } })

-- Self-test -----------------------------------------------------------------------------------------------------------------------------

/-- Each test of 15 Table 15.4: its blocks, and whether it is intrusive. -/
def testRow : Nat → Option (List Nat × Bool)
  | 0x01 => some ([0x10, 0x13, 0x14, 0x15, 0x11], false)
  | 0x02 => some ([0x10], false)
  | 0x03 => some ([0x10], true)
  | 0x04 => some ([0x10, 0x13, 0x11], true)
  | 0x05 => some ([0x12], true)
  | 0x06 => some ([0x14], true)
  | 0x07 => some ([0x15], true)
  | 0x08 => some ([0x18, 0x19, 0x1A], true)
  | 0x09 => some ([0x1B], true)
  | 0x0A => some ([0x17], false)
  | 0x0B => some ([0x1D], true)
  | _ => none

/-- The test is intrusive. -/
def testIntrusive (test : Nat) : Bool := ((testRow test).map fun x => x.2).getD false

/-- The test is listed for the block, and asked for with INTRUSIVE_OK where it is intrusive (15 R348: check 1). -/
def testValid (blk test : Nat) (intr : Bool) : Bool :=
  match testRow test with
  | some (blks, i) => blks.contains blk && (!i || intr)
  | none => false

/-- The units of a block on which a test acts (01 Table 1.2; 15 Table 15.4). -/
def testUnits (blk : Nat) : Nat :=
  if blk = 0x10 then 64 else if blk = 0x13 then 16 else if blk = 0x14 then 10 else if blk = 0x15 ∨ blk = 0x11 then 12 else if blk = 0x12 then 48
  else if blk = 0x19 then 6 else if blk = 0x1A ∨ blk = 0x1B then 2 else 8

/-- The unit of a test exists, and is no other member of a formed gang or pair. -/
def testTarget (r : Regs) (c : Chip) (blk u : Nat) : Bool :=
  decide (u < testUnits blk) && (!(blk == 0x10) || leader r c u == u) && (!(blk == 0x11) || doLeader c u == u)

/-- The segment of a unit of a network block. -/
def testSeg (blk u : Nat) : Nat := if blk = 0x18 then u else if blk = 0x19 then 8 + u else if blk = 0x1A then 14 + u else 16 + u

/-- A step of a running sequence of valve `n` falls due within 10 ms, or may at any time (07 R182). -/
def seqDue (c : Chip) (n : Nat) : Bool :=
  c.seqs.any fun q => q.steps.any fun x => x.ch == n && !x.fired &&
    (q.trig.isSome || decide (q.t0 + x.delay * 1000 < c.mt.val + 10000000))

/-- The idle window of a unit's intrusive tests (06 R162, 07 R182, 08 R206, 09 Table 9.13, 10 Table 10.10, 12 R293, 13 R315). -/
def idleWindow (c : Chip) (blk u : Nat) : Bool :=
  if blk = 0x10 then (c.stall u).st == .off && !(c.stall u).falling && !(c.stall u).crossTest
  else if blk = 0x13 then (c.valve u).phase == .idle && !(c.valve u).latched && !seqDue c u
  else if blk = 0x14 then (c.loop u).st == .idle && (c.loop u).speedNow c.now == 0
  else if blk = 0x15 then !(c.sink u).on && !(c.sink u).openS && !(c.boost (stageOf u)).short
  else if blk = 0x11 then !(c.dout u).on && !(c.dout u).latched && !(c.dout u).falling && !(c.dout u).waiting
  else if blk = 0x12 then (c.si u).cand == (c.si u).code && decide ((c.si u).candT + 1000000000 ≤ c.mt.val)
  else if blk = 0x1D then c.acc.poll.isNone && c.acc.queue.isEmpty && c.acc.rke.isEmpty
  else
    let st := (c.seg (testSeg blk u)).st
    (st == .sleep || st == .isolated || st == .off) && !(blk == 0x1B && (c.bb u).link)

/-- Requests of a unit (15 R348). -/
def testsOf (c : Chip) (blk u : Nat) : List SelfT := c.age.tests.filter fun t => t.blk == blk && t.unit == u

/-- What SELFTEST does past its checks: the request queues with its deadline (15 R348). -/
def queueTest (blk u test deadline : Nat) (id : Nat) (s : State) : State :=
  s.onChip fun r c =>
    let ms := if deadline = 0 then max 1 (bits (r.c Reg.ST_CFG) 15 0) else deadline
    { c with age := { c.age with
      tests := c.age.tests ++ [{ job := id, blk := blk, unit := u, test := test, deadline := c.now + ms * 1000000 }] } }

/-- Body of SELFTEST (15 R348): a fifth request of a unit is BUSY, and so is any while a sleep commit runs (15 R349). -/
def bodySelftest (blk u test deadline : Nat) : Nat → State → State :=
  gated (fun r c => checks56 r c blk u ++
      [(decide (4 ≤ (testsOf c blk u).length) || c.sys.sleepTo.isSome, St.busy), (unitYard blk u == some 2 && c.ycOff, St.supplyLow)])
    (queueTest blk u test deadline)

/-- What checks 1 to 4 see of SELFTEST. -/
def descSelftest (h : Hdr) (blk : Fin 64) (unit : Fin 16384) (test : Fin 256) (s : State) : Desc :=
  {
      opc := 0xA0, blk := blk.val, unit := unit.val, valid := testValid blk.val test.val h.intr
      target := testTarget s.regs s.chip blk.val unit.val }

/-- SELFTEST (15 R348, Table 15.5). -/
def execSelftest (h : Hdr) (blk : Fin 64) (unit : Fin 16384) (test : Fin 256) (deadline : Fin 65536) (s : State) : Answer :=
  .next (runDesc (descSelftest h blk unit test s)
    h (.selftest h blk unit test deadline) (bodySelftest blk.val unit.val test.val deadline.val) s)

/-- Request `k` comes to its turn: no earlier request of its unit runs or, being non-intrusive, waits; an intrusive one needs its unit's
idle window (15 R347, R348). -/
def testMayRun (c : Chip) (k : Nat) (t : SelfT) : Bool :=
  !t.running && !c.sys.halted && c.sys.sleepTo.isNone && c.awake &&
    !((c.age.tests.take k).any fun x => x.blk == t.blk && x.unit == t.unit && (x.running || !testIntrusive x.test)) &&
    (!testIntrusive t.test || (idleWindow c t.blk t.unit && !unitTesting c t.blk t.unit))

/-- SELFTEST_RUN (15 R347, R349): request `k` of the queue starts. -/
def execSelftestRun (k : Nat) (s : State) : Answer :=
  .next (s.onChip fun _ c =>
    match c.age.tests[k]? with
    | none => c
    | some t =>
      if !testMayRun c k t then c
      else
        let c := { c with age := { c.age with tests := c.age.tests.modify k fun t => { t with running := true } } }
        if testIntrusive t.test then setTesting t.blk t.unit true c else c)

/-- An event of source 241 about a test (15 R351). -/
def testEvent (r : Regs) (cause cls : Nat) (t : SelfT) (v : Nat) (c : Chip) : Chip :=
  raise r 241 cls (pay ([cause, t.blk] ++ two t.unit ++ two v)) c

/-- A Zth result in 0.01 K/W enters the plan (15 R340): one taken outside RUN belongs to no RUN period and is only recorded. -/
def stallZth (r : Regs) (i v : Nat) (c : Chip) : Chip :=
  let z := excess v (Config.factoryZth i)
  if !c.inRun then mramWrite r 214 c else
  let h := addResult z c.age.runId (capAt c i).zHist
  let c := mramWrite r 214 (modCap i (fun k => { k with zHist := h }) c)
  if agreed 50 h then replan r i (modCap i (fun k => { k with z := z }) c) else c

/-- A running test ends with a verdict (0 PASS, 1 FAIL, 2 INVALID) and a value (15 R349 to R351): RDS is INVALID unless the stall is static
ON; a FAIL raises TEST_FAIL; a Zth result enters the plan. -/
def testDone (r : Regs) (k verdict value : Nat) (c : Chip) : Chip :=
  match c.age.tests[k]? with
  | none => c
  | some t =>
    if !t.running then c
    else
      let verdict := if t.test = 2 ∧ !((c.stall t.unit).st == .on && !(c.stall t.unit).pwm) then 2 else verdict
      let c := { c with age := { c.age with tests := c.age.tests.eraseIdx k } }
      let c := if testIntrusive t.test then setTesting t.blk t.unit false c else c
      let c := complete r t.job St.ok (verdict + value * 65536) c
      let c := if verdict = 1 then testEvent r 1 Cls.fault t value c else c
      if t.test = 3 ∧ verdict ≠ 2 then stallZth r t.unit value c else c

/-- DEFERRED_TIMEOUT (15 R348): intrusive request `k` has found no idle window by its deadline. Which value bytes 4 and 5 hold is not
stated: free. -/
def execDeferredTimeout (k : Nat) (s : State) : Answer :=
  .next (s.onChip fun r c =>
    match c.age.tests[k]? with
    | none => c
    | some t =>
      if t.running || !testIntrusive t.test || c.sys.halted || decide (c.now < t.deadline) then c
      else
        let c := complete r t.job St.deferred 0 { c with age := { c.age with tests := c.age.tests.eraseIdx k } }
        let x := c.fresh 16
        testEvent r 4 Cls.warning t x.1 x.2)

/-- ST_STATUS (15 Table 15.8). -/
def stStatus (c : Chip) : Nat :=
  min 1023 (c.age.tests.filter fun t => !t.running).length + b2n (c.age.tests.any fun t => t.running && testIntrusive t.test) * 2 ^ 10

/-- Queued requests complete ABORTED_DISABLED at a sleep commit; a running test goes on to its end (15 R349). -/
def abortQueued (r : Regs) (c : Chip) : Chip :=
  let ids := (c.age.tests.filter fun t => !t.running).map fun t => t.job
  completeAll r ids St.aborted { c with age := { c.age with tests := c.age.tests.filter fun t => t.running } }

end Sys2Proof.Machine
end

