-- ==== Sys2Proof/Machine/Power.lean ====
section
/-!
DEFINITION. Sys2Proof/Machine/Power.lean: the power states (02 R38 to R44): RUN and STANDBY, the sleep commit to PARK and WATCH, wakes, and
the false-wake return (12 R284, R285).
-/

namespace Sys2Proof.Machine

-- Sleep conditions ----------------------------------------------------------------------------------------------------------------------

/-- A condition of 02 R42 holds against sleep. -/
def sleepBusy (c : Chip) : Bool :=
  ((List.range 16).any fun n => !((c.valve n).phase == .idle)) || !c.seqs.isEmpty ||
  ((List.range 10).any fun n => !((c.loop n).st == .idle || (c.loop n).st == .fault)) ||
  ((List.range 12).any fun n => (c.sink n).on) || ((List.range 2).any fun n => (c.boost n).running) || c.halt.mx.scanning ||
  ((List.range 8).any fun p => (c.port p).running) ||
  ((List.range 12).any fun n => (c.dout n).on) ||
  ((List.range 64).any fun i => (c.stall i).pwm) ||
  (c.jobs.any fun j => j.waiting) ||
  ((List.range 18).any fun s => (c.seg s).st.normal) ||
  c.acc.poll.isSome || !c.acc.queue.isEmpty

/-- The yards that take part in a sleep commit (02 R43; 01 R20): adopted and reachable. -/
def sleepYards (c : Chip) : List Nat := (List.range 4).filter fun y => yardPresent c y && (c.yard y).adopted && !(c.yard y).unreach

-- Sleep commit --------------------------------------------------------------------------------------------------------------------------

/-- The end of a sleep commit (02 R43, steps 3 and 4; 11 R266; 12 Table 12.13; 13 Table 13.10; 14 R333; 15 R341; 08 R200): POWER_STATE completes OK,
descriptors still in progress complete ABORTED_DISABLED, the domains go off, and an RC that CLK_LF runs from is no longer calibrated (03 R75). Grants run on; a latched loop keeps its count. -/
def sleepFinish (target : Power) (s : State) : State :=
  let s := commitRunS s
  s.onChip fun r c =>
    let tabs := (List.range 10).filter fun n => (c.loop n).tabValid
    let c := wearCommit r c
    let c := if tabs.isEmpty then c
      else saveSettings r (fun x => { x with tabs := tabs.foldl (fun m n => m.put n ((c.loop n).tabRef, (c.loop n).tabV, (c.loop n).tabLearn)) x.tabs }) c
    let c := match c.sys.sleepJob with
      | some id => complete r id St.ok 0 c
      | none => c
    let c := (List.range 19).foldl (fun c u => rxAbort r u c) c
    let c := (List.range 5).foldl (fun c n => if domBit r c n then disableDomain r n c else c) c
    let c := completeAll r (c.jobs.map fun j => j.id) St.aborted c
    let d := ctlLost c
    let d := { d with
      acc := { d.acc with fns := c.acc.fns }
      halt := { d.halt with loops := d.halt.loops.map fun e => (e.1, { e.2 with posUnc := (c.loop e.1).posUnc }) }
      sys := { d.sys with power := target, ctl := .off, armed := true, lfCal := false } }
    startPolling d

/-- The sleep commit goes on where it can (02 R43): every halter of the commit has disarmed its watchdog, and no intrusive or other test
still runs (15 R349). -/
def sleepCheck (s : State) : State :=
  match s.chip.sys.sleepTo with
  | none => s
  | some target =>
    if s.chip.age.tests.isEmpty && (sleepYards s.chip).all (fun y => !(s.chip.yard y).wdArmed) then sleepFinish target s else s

/-- Step 2 (02 R43): PARK_COMMIT to each halter, once a running test has ended (15 R349). -/
def sleepStep2 (s : State) : State :=
  match s.chip.sys.sleepTo with
  | none => s
  | some _ =>
    if !s.chip.age.tests.isEmpty then s
    else sleepCheck (s.onChip fun _ c => (sleepYards c).foldl (fun c y => c.emit (.guy y .parkCommit 0)) c)

/-- Step 1 (02 R43; 11 R266; 06 Table 6.20; 15 R349): WNA arms every wake detector, takes MTIME and the channels with PARK_RUN; a
cross-check ends, queued self-tests end. -/
def sleepStart (target : Power) (job : Option Nat) (s : State) : State :=
  sleepStep2 (s.onChip fun r c =>
    let c := setWakePin false c
    let c := { c with
      sys := { c.sys with armed := true, wakeRec := [], sleepTo := some target, sleepJob := job }
      mt := { c.mt with src := .lf, frac := 0 }
      timers := c.timers.map fun e => (e.1,
        if !e.2.running then e.2 else if bit (r.c (Reg.TMR_CFG e.1)) 11 then (if e.2.lf then e.2 else toLf e.2) else { e.2 with running := false, lf := false }) }
    abortQueued r (safeDue r (abortCross r St.aborted (fun _ => true) c)))

-- POWER_STATE ---------------------------------------------------------------------------------------------------------------------------

/-- STANDBY to RUN (02 Table 2.7). -/
def enterRun (id : Nat) (s : State) : State :=
  s.onChip fun r c =>
    let w := r.c Reg.POWER_CFG
    let c := (List.range 5).foldl (fun c n => if bit w n && !bit w (8 + n) then disableDomain r n c else c) c
    let c := { c with
      sys := { c.sys with power := .run }, upd := { c.upd with runFrom := c.now }, age := { c.age with runId := c.age.runId + 1 } }
    let c := (List.range 18).foldl (fun c n => if (c.seg n).st == .validating then c.modSeg n fun x => { x with valWait := segRuns r c n } else c) c
    complete r id St.ok 0 c

/-- RUN to STANDBY (02 Table 2.7, R40): domains outside STBY_EN go off. -/
def enterStandby (id : Nat) (s : State) : State :=
  (commitRunS s).onChip fun r c =>
    let w := r.c Reg.POWER_CFG
    let c := (List.range 5).foldl (fun c n => if bit w (8 + n) && !bit w n then disableDomain r n c else c) c
    let c := { c with sys := { c.sys with power := .standby } }
    let c := (List.range 18).foldl (fun c n => if (c.seg n).st == .validating then c.modSeg n fun x => { x with valWait := segRuns r c n } else c) c
    complete r id St.ok 0 c

/-- Body of POWER_STATE (02 R41 to R43). Before STANDBY is reached, in recovery, and while a sleep commit runs it is BUSY; a request for the
state in force completes OK at once (log entry 44). -/
def bodyPowerState (target : Nat) (id : Nat) (s : State) : State :=
  let busy (s : State) : State := s.onChip fun r c => complete r id St.busy 0 c
  if !(s.chip.sys.ctl == .up) || s.chip.sys.sleepTo.isSome then busy s
  else if target = 0 then
    if s.chip.sys.power = .run then s.onChip fun r c => complete r id St.ok 0 c else enterRun id s
  else if target = 1 then
    if s.chip.sys.power = .standby then s.onChip fun r c => complete r id St.ok 0 c else enterStandby id s
  else if sleepBusy s.chip then busy s
  else sleepStart (if target = 2 then .park else .watch) (some id) s

/-- What checks 1 to 4 see of a POWER_STATE (04 Table 4.14): values 4 to 7 are BAD_OPCODE. -/
def powerDesc (target : Nat) : Desc := { opc := 0x04, blk := 0x00, unit := 0, valid := decide (target < 4), owned := false }

/-- PARK_COMMIT (02 R43): the halter disarms its watchdog and keeps every output. -/
def parkCommit (y : Nat) (s : State) : State :=
  sleepCheck (s.onChip fun _ c => if (c.yard y).supplied then c.modYard y fun d => { d with wdArmed := false } else c)

/-- PARK_COMMIT (02 R43). -/
def execParkCommit (y : Fin 4) (s : State) : Answer := .next (parkCommit y.val s)

-- Wakes ---------------------------------------------------------------------------------------------------------------------------------

/-- A wake source fires, by event source with its payload; 255 is PERST# (02 R44). That of a segment takes the segment with it (12 Table
12.4). -/
def wakeFrom (r : Regs) (src p : Nat) (c : Chip) : Chip :=
  if 173 ≤ src ∧ src < 191 then segWake r (src - 173) (p / 2 ^ 32 % 256) c else fireWake r src p c.mt.val c

/-- WAKE (02 R44): an armed source fires in PARK or WATCH; while WNA declares CTL absent its detectors stay armed (01 R25). -/
def execWake (src : Fin 256) (p : Fin 281474976710656) (s : State) : Answer :=
  .next (s.onChip fun r c => if (c.parked && c.sys.armed) || c.sys.wnaAbsent then wakeFrom r src.val p.val c else c)

/-- LATE_WAKE (12 R285): a wake that meets a sleep commit aborts it; one that comes after POWER_STATE completed starts the return to
STANDBY. -/
def execLateWake (src : Fin 256) (p : Fin 281474976710656) (s : State) : Answer :=
  .next (s.onChip fun r c => if c.sys.armed then wakeFrom r src.val p.val c else c)

/-- The conditions of the false-wake return (12 R284). -/
def falseReturn (r : Regs) (c : Chip) : Bool :=
  c.sys.wokeUp && c.sys.power == .standby && c.sys.sleepTo.isNone && decide (173 ≤ c.net.wakeSrc) && decide (c.net.wakeSrc < 191) &&
    c.net.wakeValid && bit (r.c Reg.NM_CFG) 1 && ((List.range 18).all fun s => !(c.seg s).st.normal) && !c.sys.otherWake &&
    !c.ring0.enSinceWake && !c.ring1.enSinceWake && !c.ring0.hbSinceWake && !c.ring1.hbSinceWake && !sleepBusy c

/-- FALSE_WAKE of a segment that takes the module back is posted only where an EQ is enabled (12 R284). -/
def falseWakeEvent (r : Regs) (s : Nat) (back : Bool) (c : Chip) : Chip :=
  if back && !((srcFns r (173 + s)).any fun pf => bit (r.c (Reg.EQ_CFG pf)) 0) then c
  else segEvent r s 2 Cls.warning (c.seg s).falseWakes (b2n back) c

/-- WAKE_VALIDATE_END (12 Table 12.4, R284): FALSE_WAKE; where every condition holds the module returns to the state it left. -/
def wakeValidateEnd (n : Nat) (s : State) : State :=
  let x := s.chip.seg n
  if !(x.st == .validating) || !x.valWait || s.chip.sys.halted then s
  else
    let s := s.onChip fun r c =>
      let c := c.modSeg n fun x => { x with falseWakes := (x.falseWakes + 1) % 65536 }
      let c := segTo r n .sleep true c
      if c.net.wakeValid && c.net.wakeSrc == 173 + n then { c with net := { c.net with wakeFalse := true } } else c
    let back := falseReturn s.regs s.chip
    let s := s.onChip fun r c => falseWakeEvent r n back c
    if back then sleepStart s.chip.sys.left none (s.onChip fun _ c => { c with net := { c.net with returned := true } }) else s

/-- WAKE_VALIDATE_END (12 R281). -/
def execWakeValidateEnd (u : Fin 18) (s : State) : Answer := .next (wakeValidateEnd u.val s)

end Sys2Proof.Machine
end

