-- ==== Sys2Proof/Machine/System.lean ====
section
/-!
DEFINITION. Sys2Proof/Machine/System.lean: the system descriptors NOP, FENCE, HEARTBEAT and TIME_READ (04 R91, Table 4.14, R102).
-/

namespace Sys2Proof.Machine

/-- What checks 1 to 4 see of a system descriptor: it acts on SYS in either world (14 Table 14.1). -/
def sysDesc (opc : Nat) : Desc := { opc := opc, blk := 0x00, unit := 0, owned := false }

/-- Body of NOP and FENCE (04 Table 4.14): OK with result 0. -/
def bodyNop (id : Nat) (s : State) : State := s.onChip fun r c => complete r id St.ok 0 c

/-- NOP (04 R91). -/
def execNop (h : Hdr) (s : State) : Answer := .next (runDesc (sysDesc 0x00) h (.nop h) bodyNop s)

/-- FENCE (04 R91, R95): NOP with the FENCE flag set. -/
def execFence (h : Hdr) (s : State) : Answer :=
  .next (runDesc (sysDesc 0x01) { h with fence := true } (.fence h) bodyNop s)

/-- HOST_TMO in ms as it acts (04 Table 4.3). -/
def hostTmo (r : Regs) (pf : Nat) : Nat := clampN 10 10000 (bits (r.c (Reg.RING_CTRL pf)) 29 16)

/-- A heartbeat of a function restarts its supervision, with the HOST_TMO now in force (04 R102, Table 4.3). -/
def heartbeat (r : Regs) (pf : Nat) (c : Chip) : Chip := c.modRing pf fun g => { g with lastHb := c.now, tmo := hostTmo r pf }

/-- Body of HEARTBEAT (04 Table 4.14): it ends no declared host loss (R103). -/
def bodyHeartbeat (pf : Nat) (id : Nat) (s : State) : State :=
  s.onChip fun r c => complete r id St.ok (min 0xFFFFFFFF (c.ring pf).episodes) (heartbeat r pf c)

/-- HEARTBEAT (04 R91, R102). -/
def execHeartbeat (h : Hdr) (s : State) : Answer := .next (runDesc (sysDesc 0x02) h (.heartbeat h) (bodyHeartbeat h.fn) s)

/-- Body of TIME_READ (04 Table 4.14): MTIME[47:0] in the completion's MTIME field and MTIME[63:32] in RESULT, of one instant. -/
def bodyTimeRead (id : Nat) (s : State) : State :=
  s.onChip fun r c => completeAt r id St.ok (c.mt.val / 2 ^ 32 % 2 ^ 32) c.mt.val c

/-- TIME_READ (04 R91). -/
def execTimeRead (h : Hdr) (s : State) : Answer := .next (runDesc (sysDesc 0x03) h (.timeRead h) bodyTimeRead s)

end Sys2Proof.Machine
end

