-- ==== Sys2Proof/Machine/Descriptor.lean ====
section
/-!
DEFINITION. Sys2Proof/Machine/Descriptor.lean: a descriptor as the ring engine fetches it from host memory (04 R87, R89, R91): its words
become a command, which runs by its own meaning; arbitration (R92); AT_TIME descriptors whose time has come (R96); and commands that
waited for an intrusive self-test (15 R349).
-/

namespace Sys2Proof.Machine

/-- What checks 1 to 4 see of a descriptor (04 Table 4.16). -/
def descOf (s : State) : Instr → Desc
  | .nop _ => sysDesc 0x00
  | .fence _ => sysDesc 0x01
  | .heartbeat _ => sysDesc 0x02
  | .timeRead _ => sysDesc 0x03
  | .powerState _ target => powerDesc target.val
  | .accessPoll _ u _ => descAccessPoll u
  | .enrolAdd _ addr buf => descEnrolAdd addr buf
  | .enrolProvision _ addr buf => descEnrolProvision addr buf
  | .revoke _ slots => descRevoke slots
  | .marginCap h stall _ _ _ _ _ => descMarginCap h stall s
  | .ageReport _ addr => descAgeReport addr
  | .selftest h blk unit test _ => descSelftest h blk unit test s
  | .move _ u mode endAct _ target _ _ _ => descMove u mode endAct target
  | .hold _ u => loopDesc 0x41 u.val
  | .holdResume _ u => loopDesc 0x41 u.val
  | .stop _ u mode => descStop u mode
  | .stopClear _ u mode => descStopClear u mode
  | .coefWrite _ u addr pairs => descCoefWrite u addr pairs
  | .learnRun _ u addr => descLearnRun u addr
  | .learnLoad _ u addr ref vlearn => descLearnLoad u addr ref vlearn
  | .learnRead _ u addr => descLearnRead u addr
  | .siSnapshot _ u _ addr => descSiSnapshot u addr
  | .doSet _ u _ _ => descDoSet u s
  | .sinkSet _ u iSet dim _ => descSinkSet u iSet dim
  | .sinkCalibrate _ u _ _ _ => descSinkCalibrate u
  | .matrixFrame _ _ addr data => descMatrixFrame addr data
  | .netTx _ u _ _ len addr f => descNetTx u len addr f s
  | .netRxPost _ u len _ addr => descNetRxPost u len addr
  | .nmRequest _ u => nmDesc u.val false
  | .nmRelease _ u => nmDesc u.val true
  | .nmIsolate _ u _ => nmDesc u.val false
  | .nmUnisolate _ u => nmDesc u.val false
  | .nmStatus _ u => nmDesc u.val true
  | .lampFrame _ u start addr data => descLampFrame u start addr data s
  | .lampLatch _ u ports => descLampLatch u ports s
  | .lampEnumFull _ u addr => enumDesc u.val addr false
  | .lampEnumRediscover _ u addr => enumDesc u.val addr false
  | .lampEnumRead _ u addr => enumDesc u.val addr true
  | .stallSet _ u _ _ => stallDesc s 0x10 u.val
  | .stallPwm _ u duty => descStallPwm u duty s
  | .stallProfileSelect _ u slot => descStallProfileSelect u slot s
  | .stallProfileLoadUser h u user addr pts => descStallProfileLoadUser h u user addr pts s
  | .stallClear _ u _ _ => stallDesc s 0x13 u.val
  | .stallDiag _ u _ addr => descStallDiag u addr s
  | .stallCrosscheck h u mask addr => descStallCrosscheck h u mask addr s
  | .timerArmStart _ u _ _ _ cfg => armDesc u.val cfg
  | .timerArmArm _ u _ _ _ cfg => armDesc u.val cfg
  | .timerArmStop _ u _ _ _ cfg => armDesc u.val cfg
  | .timerArmUpdate _ u _ _ _ cfg => armDesc u.val cfg
  | .gstart h timers rows => descGstart h timers rows s
  | .imgWrite _ offset len addr data => descImgWrite offset len addr data
  | .imgCommit _ _ _ => descImgCommit
  | .imgConfirm _ => descImgConfirm
  | .valveFire _ u _ ipk ihold => fireDesc s u.val ipk.val ihold.val
  | .valveRelease _ u _ ipk ihold => fireDesc s u.val ipk.val ihold.val
  | .valveSeq _ u trig addr steps => descValveSeq u trig addr steps
  | .valveClear _ u _ _ => descValveClear u
  | _ => { opc := 0, blk := 0, unit := 0 }

/-- What a descriptor does once its time to execute has come. -/
def bodyOf : Instr → Nat → State → State
  | .nop _ => bodyNop
  | .fence _ => bodyNop
  | .heartbeat h => bodyHeartbeat h.fn
  | .timeRead _ => bodyTimeRead
  | .powerState _ target => bodyPowerState target.val
  | .accessPoll _ u _ => bodyAccessPoll u.val
  | .enrolAdd _ _ _ => bodyEnrol
  | .enrolProvision _ _ _ => bodyEnrol
  | .revoke _ _ => bodyEnrol
  | .marginCap _ stall clear lim ceil tsd retry => bodyMarginCap stall.val clear lim.val ceil.val tsd.val retry.val
  | .ageReport h addr => bodyAgeReport h addr
  | .selftest _ blk unit test deadline => bodySelftest blk.val unit.val test.val deadline.val
  | .move _ u mode endAct ref target vmax tol settle => bodyMove u.val mode.val endAct.val ref target vmax.val tol.val settle.val
  | .hold _ u => bodyHold u.val
  | .holdResume _ u => bodyHoldResume u.val
  | .stop _ u mode => bodyStop u.val mode.val
  | .stopClear _ u mode => bodyStopClear u.val mode.val
  | .coefWrite _ u _ pairs => bodyCoefWrite u.val (pairs.map fun p => (p.1.val, p.2.val))
  | .learnRun _ u _ => bodyLearnRun u.val
  | .learnLoad _ u _ ref vlearn => bodyLearnLoad u.val ref vlearn
  | .learnRead _ u addr => bodyLearnRead u.val addr
  | .siSnapshot _ u fresh addr => bodySiSnapshot u.val fresh addr
  | .doSet _ u on clear => bodyDoSet u.val on clear
  | .sinkSet _ u iSet dim clear => bodySinkSet u.val iSet.val dim.val clear
  | .sinkCalibrate _ u _ _ clear => bodySinkCalibrate u.val clear
  | .matrixFrame _ clear _ data => bodyMatrixFrame clear data
  | .netTx _ u wake tmo _ _ f => bodyNetTx u.val wake tmo.val f
  | .netRxPost _ u len flush addr => bodyNetRxPost u.val len.val flush.val addr
  | .nmRequest _ u => bodyNmRequest u.val
  | .nmRelease _ u => bodyNmRelease u.val
  | .nmIsolate _ u cycle => bodyNmIsolate u.val cycle
  | .nmUnisolate _ u => bodyNmUnisolate u.val
  | .nmStatus _ u => bodyNmStatus u.val
  | .lampFrame _ u _ _ _ => bodyLampFrame u.val
  | .lampLatch h u ports => bodyLampLatch h u.val ports.val
  | .lampEnumFull _ u _ => bodyLampEnumFull u.val
  | .lampEnumRediscover _ u _ => bodyLampEnumRediscover u.val
  | .lampEnumRead _ u addr => bodyLampEnumRead u.val addr
  | .stallSet _ u on slewFirst => bodyStallSet u.val on slewFirst
  | .stallPwm _ u duty => bodyStallPwm u.val duty.val
  | .stallProfileSelect _ u slot => bodyProfileSelect u.val slot.val
  | .stallProfileLoadUser _ u user _ pts => bodyProfileLoad u.val user pts
  | .stallClear _ u diag cross => bodyStallClear u.val diag cross
  | .stallDiag _ u offNow addr => bodyStallDiag u.val offNow addr
  | .stallCrosscheck _ u mask _ => bodyStallCrosscheck u.val mask
  | .timerArmStart _ u reload cmp init cfg => bodyArmStart u.val (reload.map (·.val)) (cmp.map (·.val)) (init.map (·.val)) (cfg.map (·.val))
  | .timerArmArm _ u reload cmp init cfg => bodyArmArm u.val (reload.map (·.val)) (cmp.map (·.val)) (init.map (·.val)) (cfg.map (·.val))
  | .timerArmStop _ u reload cmp init cfg => bodyArmStop u.val (reload.map (·.val)) (cmp.map (·.val)) (init.map (·.val)) (cfg.map (·.val))
  | .timerArmUpdate _ u reload cmp init cfg => bodyArmUpdate u.val (reload.map (·.val)) (cmp.map (·.val)) (init.map (·.val)) (cfg.map (·.val))
  | .gstart h timers rows => bodyGstart h.at_ timers.val rows.val
  | .imgWrite _ offset _ _ data => bodyImgWrite offset.val data
  | .imgCommit _ mode _ => bodyImgCommit mode
  | .imgConfirm _ => bodyImgConfirm
  | .valveFire _ u hold ipk ihold => bodyValveFire u.val hold.val ipk.val ihold.val
  | .valveRelease _ u _ _ _ => bodyValveRelease u.val
  | .valveSeq _ u trig _ steps => bodyValveSeq u.val trig steps
  | .valveClear _ u diag group => bodyValveClear u.val diag group
  | _ => fun _ s => s

/-- What the command of a descriptor does in yard `y` when it executes there after a wait on the guyline (01 R17). -/
def yardEffect (y : Nat) : Instr → Nat → State → State
  | .stallSet _ u on slewFirst, id => State.onChip (setStall u.val on slewFirst id)
  | .stallPwm _ u duty, id => State.onChip (setPwm u.val duty.val id)
  | .stallProfileSelect _ u slot, id => selectSlot u.val slot.val id
  | .stallProfileLoadUser _ _ user _ pts, _ => State.onChip (loadCurve y user pts)
  | .stallClear _ u diag cross, id => State.onChip fun r c => clearStall r u.val id diag cross c
  | .stallDiag _ u offNow addr, id => State.onChip (diagStall u.val offNow addr id)
  | .valveFire _ u hold ipk ihold, id => State.onChip fun r c => fireValve r u.val hold.val ipk.val ihold.val (id, none) c
  | .valveRelease _ u _ _ _, id => State.onChip fun r c => releaseValve r u.val (id, none) c
  | .valveClear _ u diag group, id => State.onChip fun r c => clearValve r u.val id diag group c
  | .stopClear _ u _, id => State.onChip (clearBridge u.val id)
  | .sinkSet _ u iSet dim clear, id => State.onChip fun r c =>
      if u.val < 12 then sinkSet u.val iSet.val dim.val id clear r c else boostClear (u.val - 16) id clear c
  | .sinkCalibrate _ u _ _ clear, id => State.onChip (sinkCal u.val clear id)
  | .matrixFrame _ clear _ data, id => State.onChip fun r c => mxFrame r clear data id c
  | .siSnapshot _ _ fresh addr, id => State.onChip (askSnap fresh addr id)
  | .doSet _ u on clear, id => State.onChip fun _ c => doSet u.val on clear id c
  | _, _ => id

/-- A command frame's turn in yard `y` (01 R17): a configuration word is taken; a descriptor's command takes its effect while the
descriptor is in progress, a sequence step while its sequence runs. -/
def runFrame (y : Nat) (f : Frame) (s : State) : State :=
  match f.who with
  | none => if f.off = 0 then s else applyCfg y f.off f.val s
  | some (id, some k) =>
    match stepAt s.chip id k with
    | some x => s.onChip (actStep id k x)
    | none => s
  | some (id, none) =>
    match s.chip.job id with
    | some j => yardEffect y j.op id s
    | none => s

-- Work that waited --------------------------------------------------------------------------------------------------------------------------

/-- A command that waited for an intrusive self-test of its unit executes once the test has ended (15 R349). -/
def releaseOne (s : State) (id : Nat) : State :=
  match s.chip.job id with
  | none => s
  | some j => if j.held && !unitTesting s.chip j.blk j.unit then bodyOf j.op id (s.onChip fun _ c => updJob id (fun j => { j with held := false }) c) else s

/-- Every command that no longer waits for a self-test executes, in fetch order (15 R349). -/
def releaseHeld (s : State) : State := ((s.chip.jobs.filter fun j => j.held).map fun j => j.id).foldl releaseOne s

/-- What has waited for the end of a cross-check or a self-test comes about (06 Table 6.20; 15 R349). -/
def afterTests (s : State) : State := releaseHeld (s.onChip safeDue)

/-- CROSS_PULSE (06 R152). -/
def execCrossPulse (hits : List (Fin 64)) (tripped : Bool) (s : State) : Answer := .next (afterTests (s.onChip fun r c => crossPulse r hits tripped c))

/-- The instant at which a waiting AT_TIME descriptor is released (04 R96). -/
def releaseAt (j : Job) : Nat := j.h.at_.getD 0 - j.lead

/-- The waiting AT_TIME descriptor whose time has come first; equal times in fetch order (04 R96). -/
def dueJob (c : Chip) : Option Job :=
  let due := c.jobs.filter fun j => j.waiting && !j.drop && decide (releaseAt j ≤ c.mt.val)
  due.find? fun j => due.all fun k => decide (releaseAt j ≤ releaseAt k)

/-- The AT_TIME descriptor that is due executes (04 R96); during an intrusive self-test of its unit it waits on (15 R349). -/
def runDue (s : State) : State :=
  match dueJob s.chip with
  | none => s
  | some j =>
    let s := s.onChip fun _ c => setWaiting j.id false c
    if unitTesting s.chip j.blk j.unit && !(j.op matches .selftest ..) then s.onChip fun _ c => updJob j.id (fun j => { j with held := true }) c
    else releaseHeld (bodyOf j.op j.id s)

/-- AT_TIME_DUE (04 R96): not in debug halt (03 Table 3.10). -/
def execAtTimeDue (s : State) : Answer := .next (if s.chip.ctlRuns && !s.chip.sys.halted then runDue s else s)

/-- What a step of MTIME has overtaken executes at once (11 R263; 04 R96): the AT_TIME descriptors and the starts that wait for their edge; not
in debug halt (03 Table 3.10). -/
def overtaken (s : State) : State :=
  if s.chip.sys.halted then s
  else
    let s := s.chip.jobs.foldl (fun s _ => runDue s) s
    s.onChip fun r c => c.gstart.foldl (fun c _ => gstartEdge r c) c

/-- GPTP_SYNC (11 R262, R263): the sync of the slave port disciplines MTIME, and the bridge passes it to its other port, in two
steps. -/
def execGptpSync (p : Fin 2) (d : Int) (s : State) : Answer :=
  .next <|
    if !gptpOn s.regs s.chip p.val then s
    else
      let t := s.onChip fun r c =>
        let c := syncRx r p.val d c
        if gptpOn r c (1 - p.val) then (c.emit (.gptp (1 - p.val) 0 [])).emit (.gptp (1 - p.val) 1 []) else c
      if t.chip.mt.val = s.chip.mt.val then t else overtaken t

/-- POWER_STATE (02 R41 to R43). -/
def execPowerState (h : Hdr) (target : Fin 8) (s : State) : Answer :=
  .next (releaseHeld (runDesc (powerDesc target.val) h (.powerState h target) (bodyPowerState target.val) s))

-- Words -------------------------------------------------------------------------------------------------------------------------------------

/-- A field as an operand. -/
def fld (n v : Nat) [NeZero n] : Fin n := Fin.ofNat n v

/-- A unit index as an operand; one that the block does not have stands as 0, with which the command is refused as BAD_TARGET. -/
def unitFld (n v : Nat) [NeZero n] : Fin n := Fin.ofNat n (if v < n then v else 0)

/-- `n` bytes of a host buffer from `a` on. -/
def bufBytes (buf : List Nat) (a n : Nat) : List Nat := (List.range n).map fun k => buf.getD (a + k) 0 % 256
/-- A little-endian value in a host buffer. -/
def bufLe (buf : List Nat) (a n : Nat) : Nat := leNat (bufBytes buf a n)

/-- The opcodes of 04 Table 4.15. -/
def opKnown (opc : Nat) : Bool :=
  decide (opc ≤ 0x04) || (decide (0x10 ≤ opc) && decide (opc ≤ 0x15)) || opc == 0x20 || opc == 0x21 ||
    (decide (0x30 ≤ opc) && decide (opc ≤ 0x32)) || (decide (0x40 ≤ opc) && decide (opc ≤ 0x44)) ||
    (decide (0x50 ≤ opc) && decide (opc ≤ 0x54)) || (decide (0x60 ≤ opc) && decide (opc ≤ 0x62)) || opc == 0x70 || opc == 0x71 ||
    (decide (0x80 ≤ opc) && decide (opc ≤ 0x82)) || (decide (0x90 ≤ opc) && decide (opc ≤ 0x92)) ||
    (decide (0xA0 ≤ opc) && decide (opc ≤ 0xA2))

/-- The block IDs an opcode accepts (04 Table 4.15); SELFTEST any block with units. -/
def opBlocks (opc : Nat) : List Nat :=
  if opc ≤ 0x04 then [0x00]
  else if opc ≤ 0x15 then [0x10]
  else if opc = 0x20 then [0x11]
  else if opc = 0x21 then [0x12]
  else if opc ≤ 0x32 then [0x13]
  else if opc ≤ 0x44 then [0x14]
  else if opc = 0x50 then [0x15]
  else if opc = 0x53 then [0x16]
  else if opc ≤ 0x54 then [0x17]
  else if opc ≤ 0x61 then [0x18, 0x19, 0x1A, 0x1B]
  else if opc = 0x62 then [0x1C]
  else if opc ≤ 0x71 then [0x02]
  else if opc ≤ 0x82 then [0x1D]
  else if opc ≤ 0x92 then [0x04]
  else if opc = 0xA0 then [0x10, 0x11, 0x12, 0x13, 0x14, 0x15, 0x16, 0x17, 0x18, 0x19, 0x1A, 0x1B, 0x1C, 0x1D, 0x1E, 0x02]
  else [0x05]

/-- The unit indices that an operand of the opcode spells; the command's own check 3 tells which of them exist (01 Table 1.2). GSTART takes
unit 0 only (11 R267; log entry 45). -/
def opUnits (opc blk : Nat) : Nat :=
  if opc ≤ 0x04 then 1
  else if opc ≤ 0x15 then 64
  else if opc = 0x20 then 12
  else if opc = 0x21 then 128
  else if opc ≤ 0x32 then 16
  else if opc ≤ 0x44 then 10
  else if opc = 0x50 then 32
  else if opc = 0x53 then 1
  else if opc ≤ 0x54 then 8
  else if opc ≤ 0x61 then (if blk = 0x18 then 8 else if blk = 0x19 then 6 else if blk = 0x1A then 2 else 3)
  else if opc = 0x62 then 32
  else if opc = 0x70 then 32
  else if opc = 0x71 then 1
  else if opc ≤ 0x82 then 8
  else if opc ≤ 0x92 then 1
  else if opc = 0xA0 then 16384
  else 1

/-- The bits of words 2 to 5 that hold fields. Where the home chapter says that fields not listed must be 0, the others must be 0; where it
does not (04 Table 4.14, 10 R242, 12 R288 to R290) they are ignored (log entry 45). -/
def opMasks (opc : Nat) : List Nat :=
  let a := 0xFFFFFFFF
  if opc = 0x10 then [0x3, 0, 0, 0]
  else if opc = 0x11 then [0x1FFFF, 0, 0, 0]
  else if opc = 0x12 then [0xF1F3, 0, a, a]
  else if opc = 0x13 then [0x3, 0, 0, 0]
  else if opc = 0x14 then [0x1, 0, a, a]
  else if opc = 0x15 then [a, a, a, a]
  else if opc = 0x20 then [0x3, 0, 0, 0]
  else if opc = 0x30 then [0xFFFF0001, 0x03FF07FF, 0, 0]
  else if opc = 0x31 then [0x9F3F, 0, a, a]
  else if opc = 0x32 then [0x3, 0, 0, 0]
  else if opc = 0x40 then [0x233, a, 0xFFFFFF, a]
  else if opc = 0x41 then [0x1, 0, 0, 0]
  else if opc = 0x42 then [0x13, 0, 0, 0]
  else if opc = 0x43 then [0x3F, 0, a, a]
  else if opc = 0x44 then [0x3, 0, a, a]
  else if opc = 0x50 then [0xFFFF03FF, 0x3, 0, 0]
  else if opc = 0x51 then [0x3FF, 0x3FFFF, a, a]
  else if opc = 0x52 then [0xFF, 0, 0, 0]
  else if opc = 0x53 then [0x1, 0, a, a]
  else if opc = 0x54 then [0x3, 0, a, a]
  else if opc = 0x70 then [0xFFFF003F, a, a, a]
  else if opc = 0x71 then [a, 0xFF, 0, 0]
  else if opc = 0x80 then [0xFFF, 0, 0, 0]
  else if opc = 0x81 then [0x1, 0, a, a]
  else if opc = 0x82 then [0xFF, 0, 0, 0]
  else if opc = 0x90 then [0x7FFFFF, 0x1FFFF, a, a]
  else if opc = 0x91 then [0x3, 0, 0, 0]
  else if opc = 0x92 then [0, 0, 0, 0]
  else if opc = 0xA0 then [0xFFFF00FF, 0, 0, 0]
  else if opc = 0xA1 then [0, 0, a, a]
  else if opc = 0xA2 then [0x13F, 0x03FF03FF, 0xFFF, 0]
  else [a, a, a, a]

end Sys2Proof.Machine

namespace Sys2Proof

open Machine

/-- Word `k` of a descriptor. -/
def SqHead.w (e : SqHead) (k : Nat) : Nat := e.words.getD k 0 % 2 ^ 32
/-- OPCODE (04 Table 4.13). -/
def SqHead.opc (e : SqHead) : Nat := bits (e.w 0) 7 0
/-- BLOCK. -/
def SqHead.blk (e : SqHead) : Nat := bits (e.w 1) 5 0
/-- UNIT. -/
def SqHead.unit (e : SqHead) : Nat := bits (e.w 1) 21 8
/-- ADDR of words 4 and 5. -/
def SqHead.addr (e : SqHead) : Nat := e.w 4 + e.w 5 * 2 ^ 32

/-- The header of a descriptor (04 Table 4.13): WORLD counts on PF1 only; the FENCE opcode carries the FENCE flag (Table 4.14). -/
def SqHead.hdr (e : SqHead) : Hdr :=
  { pf := e.pf, sq := e.sq, tag := fld 65536 (bits (e.w 0) 31 16), world := e.pf == 1 && bit (e.w 1) 31
    fence := bit (e.w 0) 8 || e.opc == 0x01, ncos := bit (e.w 0) 10, intr := bit (e.w 0) 11
    at_ := if bit (e.w 0) 9 then some (e.w 6 + e.w 7 * 2 ^ 32) else none }

/-- Check 1 as far as the words alone decide it: opcode, reserved flags and bits, AT_TIME value, fields not listed (04 R94). -/
def SqHead.wordsOk (e : SqHead) : Bool :=
  opKnown e.opc && bits (e.w 0) 15 12 == 0 && bits (e.w 1) 7 6 == 0 && bits (e.w 1) 30 22 == 0 &&
    (bit (e.w 0) 9 || (e.w 6 == 0 && e.w 7 == 0)) &&
    (List.range 4).all fun k => e.w (2 + k) &&& (0xFFFFFFFF - (opMasks e.opc).getD k 0) == 0

/-- The number of an SQ among those of both functions. -/
def SqHead.idx (e : SqHead) : Nat := 16 * e.pf.val + e.sq.val

end Sys2Proof

namespace Sys2Proof.Machine

/-- The frame that a record of 12 Table 12.6 holds. -/
def recordFrame (buf : List Nat) : NetFrm :=
  let f := bufLe buf 7 1
  let n := bufLe buf 12 2 % 4096
  let xl := bit f 5
  { id := fld 536870912 (bufLe buf 8 4), ide := bit f 0, rtr := bit f 1, fdf := bit f 2, brs := bit f 3, esi := bit f 4, xlf := xl, lcc := bit f 6
    sdt := fld 256 (bufLe buf 14 1), vcid := fld 256 (bufLe buf 15 1), af := fld 4294967296 (if xl then bufLe buf 16 4 else 0)
    data := bufBytes buf (if xl then 20 else 16) n }

/-- The number of a network unit among CAN 0 to 7, LIN 8 to 13, T1S 14 and 15, BACKBONE 16 to 18. -/
def netNum (blk unit : Nat) : Nat :=
  if blk = 0x19 then 8 + (if unit < 6 then unit else 0) else if blk = 0x1A then 14 + (if unit < 2 then unit else 0)
  else if blk = 0x1B then 16 + (if unit < 3 then unit else 0) else if unit < 8 then unit else 0

/-- A stall descriptor's command. -/
def stallOp (e : SqHead) (h : Hdr) : Option Instr :=
  let u := unitFld 64 e.unit
  let w2 := e.w 2
  match e.opc with
  | 0x10 => some (.stallSet h u (bit w2 0) (bit w2 1))
  | 0x11 => some (.stallPwm h u (fld 131072 (bits w2 16 0)))
  | 0x12 =>
    match bits w2 1 0 with
    | 0 => some (.stallProfileSelect h u (fld 16 (bits w2 7 4)))
    | 1 => some (.stallProfileLoadUser h u (bit w2 8) e.addr
        ((List.range (bits w2 15 12)).map fun k => (bufLe e.buf (4 * k) 3, bufLe e.buf (4 * k + 3) 1)))
    | _ => none
  | 0x13 => some (.stallClear h u (bit w2 0) (bit w2 1))
  | 0x14 => some (.stallDiag h u (bit w2 0) e.addr)
  | _ => some (.stallCrosscheck h u (w2 + e.w 3 * 2 ^ 32) e.addr)

/-- A valve descriptor's command. -/
def valveOp (e : SqHead) (h : Hdr) : Option Instr :=
  let u := unitFld 16 e.unit
  let w2 := e.w 2
  let hold := fld 65536 (bits w2 31 16)
  let ipk := fld 2048 (bits (e.w 3) 10 0)
  let ih := fld 1024 (bits (e.w 3) 25 16)
  match e.opc with
  | 0x30 => some (if bit w2 0 then .valveRelease h u hold ipk ih else .valveFire h u hold ipk ih)
  | 0x31 => some (.valveSeq h u (if bit w2 15 then some (fld 32 (bits w2 12 8)) else none) e.addr
      ((List.range (bits w2 5 0)).map fun k =>
        let a := bufLe e.buf (8 * k) 4
        let b := bufLe e.buf (8 * k + 4) 4
        { ch := fld 16 (bits a 3 0), rel := bit a 4, hold := fld 65536 (bits a 31 16), delay := fld 16777216 (bits b 23 0)
          rsv := bits a 15 5 != 0 || bits b 31 24 != 0 }))
  | _ => some (.valveClear h u (bit w2 0) (bit w2 1))

/-- A Bridle descriptor's command. -/
def loopOp (e : SqHead) (h : Hdr) : Option Instr :=
  let u := unitFld 10 e.unit
  let w2 := e.w 2
  match e.opc with
  | 0x40 => some (.move h u (fld 4 (bits w2 1 0)) (fld 4 (bits w2 5 4)) (bit w2 9) (toSigned 32 (e.w 3)) (fld 16777216 (bits (e.w 4) 23 0))
      (fld 65536 (bits (e.w 5) 15 0)) (fld 65536 (bits (e.w 5) 31 16)))
  | 0x41 => some (if bit w2 0 then .holdResume h u else .hold h u)
  | 0x42 => some (if bit w2 4 then .stopClear h u (fld 4 (bits w2 1 0)) else .stop h u (fld 4 (bits w2 1 0)))
  | 0x43 => some (.coefWrite h u e.addr ((List.range (bits w2 5 0)).map fun k =>
      (fld 8 (bits (bufLe e.buf (8 * k) 4) 2 0), fld 4294967296 (bufLe e.buf (8 * k + 4) 4))))
  | _ =>
    match bits w2 1 0 with
    | 0 => some (.learnRun h u e.addr)
    | 1 => some (.learnLoad h u e.addr ((List.range 256).map fun b => bufLe e.buf (2 * b) 2) ((List.range 256).map fun b => bufLe e.buf (512 + 2 * b) 2))
    | 2 => some (.learnRead h u e.addr)
    | _ => none

/-- A Lantern descriptor's command. -/
def lampOp (e : SqHead) (h : Hdr) : Option Instr :=
  let w2 := e.w 2
  let p := unitFld 8 e.unit
  match e.opc with
  | 0x50 =>
    let u := unitFld 32 e.unit
    let i := fld 1024 (bits w2 9 0)
    let d := fld 65536 (bits w2 31 16)
    some (if bit (e.w 3) 0 then .sinkCalibrate h u i d (bit (e.w 3) 1) else .sinkSet h u i d (bit (e.w 3) 1))
  | 0x51 => some (.lampFrame h p (fld 1024 (bits w2 9 0)) e.addr (bufBytes e.buf 0 (bits (e.w 3) 17 0)))
  | 0x52 => some (.lampLatch h p (fld 256 (bits w2 7 0)))
  | 0x53 => some (.matrixFrame h (bit w2 0) e.addr (bufBytes e.buf 0 192))
  | _ =>
    match bits w2 1 0 with
    | 0 => some (.lampEnumFull h p e.addr)
    | 1 => some (.lampEnumRediscover h p e.addr)
    | 2 => some (.lampEnumRead h p e.addr)
    | _ => none

/-- A network descriptor's command. -/
def netOp (e : SqHead) (h : Hdr) : Option Instr :=
  let w2 := e.w 2
  let u := fld 19 (netNum e.blk e.unit)
  let s := unitFld 32 e.unit
  match e.opc with
  | 0x60 => some (.netTx h u (bit w2 0) (fld 65536 (bits w2 31 16)) (fld 4096 (bits (e.w 3) 11 0)) e.addr (recordFrame e.buf))
  | 0x61 => some (.netRxPost h u (fld 65536 (bits w2 15 0)) (fld 65536 (bits w2 31 16)) e.addr)
  | _ =>
    match bits w2 2 0 with
    | 0 => some (.nmRequest h s)
    | 1 => some (.nmRelease h s)
    | 2 => some (.nmIsolate h s (bit w2 3))
    | 3 => some (.nmUnisolate h s)
    | 4 => some (.nmStatus h s)
    | _ => none

/-- A timer descriptor's command. -/
def timerOp (e : SqHead) (h : Hdr) : Option Instr :=
  let w2 := e.w 2
  let u := unitFld 32 e.unit
  let opt (n k : Nat) : Option (Fin 4294967296) := if bit w2 n then some (fld 4294967296 (e.w k)) else none
  let cfg : Option (Fin 65536) := if bit w2 5 then some (fld 65536 (bits w2 31 16)) else none
  if e.opc = 0x71 then some (.gstart h (fld 4294967296 w2) (fld 256 (bits (e.w 3) 7 0)))
  else match bits w2 1 0 with
    | 0 => some (.timerArmStart h u (opt 2 3) (opt 3 4) (opt 4 5) cfg)
    | 1 => some (.timerArmArm h u (opt 2 3) (opt 3 4) (opt 4 5) cfg)
    | 2 => some (.timerArmStop h u (opt 2 3) (opt 3 4) (opt 4 5) cfg)
    | _ => some (.timerArmUpdate h u (opt 2 3) (opt 3 4) (opt 4 5) cfg)

/-- The command that a descriptor's words spell; none for an operation that check 1 refuses. -/
def rawOp (e : SqHead) : Option Instr :=
  let h := e.hdr
  let o := e.opc
  let w2 := e.w 2
  if o = 0x00 then some (.nop h)
  else if o = 0x01 then some (.fence h)
  else if o = 0x02 then some (.heartbeat h)
  else if o = 0x03 then some (.timeRead h)
  else if o = 0x04 then some (.powerState h (fld 8 (bits w2 2 0)))
  else if o ≤ 0x15 then stallOp e h
  else if o = 0x20 then some (.doSet h (unitFld 12 e.unit) (bit w2 0) (bit w2 1))
  else if o = 0x21 then some (.siSnapshot h (unitFld 128 e.unit) (bit w2 0) e.addr)
  else if o ≤ 0x32 then valveOp e h
  else if o ≤ 0x44 then loopOp e h
  else if o ≤ 0x54 then lampOp e h
  else if o ≤ 0x62 then netOp e h
  else if o ≤ 0x71 then timerOp e h
  else if o = 0x80 then some (.accessPoll h (unitFld 8 e.unit) (fld 4096 (bits w2 11 0)))
  else if o = 0x81 then some (if bit w2 0 then .enrolProvision h e.addr (bufBytes e.buf 0 52) else .enrolAdd h e.addr (bufBytes e.buf 0 40))
  else if o = 0x82 then some (.revoke h (fld 256 (bits w2 7 0)))
  else if o = 0x90 then
    some (.imgWrite h (fld 8388608 (bits w2 22 0)) (fld 131072 (bits (e.w 3) 16 0)) e.addr (bufBytes e.buf 0 (bits (e.w 3) 16 0)))
  else if o = 0x91 then some (.imgCommit h (bit w2 0) (bit w2 1))
  else if o = 0x92 then some (.imgConfirm h)
  else if o = 0xA0 then some (.selftest h (fld 64 e.blk) (fld 16384 e.unit) (fld 256 (bits w2 7 0)) (fld 65536 (bits w2 31 16)))
  else if o = 0xA1 then some (.ageReport h e.addr)
  else some (.marginCap h (fld 64 (bits w2 5 0)) (bit w2 8) (fld 1024 (bits (e.w 3) 9 0)) (fld 1024 (bits (e.w 3) 25 16))
    (fld 256 (bits (e.w 4) 7 0)) (fld 16 (bits (e.w 4) 11 8)))

/-- A fetched descriptor is checked and executed (04 R94): words that check 1 refuses, then the command they spell; a block or a unit that
the opcode does not take fails check 3. -/
def runRaw (e : SqHead) (s : State) : State :=
  let h := e.hdr
  match (if e.wordsOk then rawOp e else none) with
  | none => runDesc { opc := e.opc, blk := e.blk, unit := e.unit, valid := false } h (.nop h) (fun _ s => s) s
  | some op =>
    let d := descOf s op
    let here := (opBlocks e.opc).contains e.blk
    runDesc { d with
        blk := e.blk, unit := e.unit, content := d.content || (e.opc == 0x60 && !here)
        target := d.target && here && decide (e.unit < opUnits e.opc e.blk) }
      h op (bodyOf op) s

-- Arbitration -------------------------------------------------------------------------------------------------------------------------------

/-- A CQ has a free slot to reserve (04 R93). -/
def slotFree (r : Regs) (c : Chip) (pf cq : Nat) : Bool :=
  let cfg := r.c (Reg.CQ_CFG pf cq)
  let q := (c.ring pf).cqAt cq
  bit cfg 0 && decide (occupied (ringSize cfg) q.head q.tail + q.reserved < ringSize cfg - 1)

/-- An SQ may be fetched from, its next descriptor's FENCE apart (04 R87, R92, R96, R103, R390; 03 Table 3.10). -/
def fetchable (r : Regs) (c : Chip) (e : SqHead) : Bool :=
  let pf := e.pf.val
  let n := e.sq.val
  let g := c.ring pf
  g.dmaOk && bit (r.c (Reg.RING_CTRL pf)) 0 && !g.hostLost && !c.sys.halted && bit (r.c (Reg.SQ_CFG pf n)) 0 &&
    !((g.sqAt n).head == (g.sqAt n).tail) && slotFree r c pf (sqCq r pf n) && !(e.hdr.at_.isSome && decide (255 ≤ atPending c pf))

/-- PRIO of an SQ (04 Table 4.6). -/
def sqPrio (r : Regs) (e : SqHead) : Nat := bits (r.c (Reg.SQ_CFG e.pf.val e.sq.val)) 9 8

/-- The next descriptor of one priority class (04 R92): the SQ that holds the turn keeps it for WEIGHT + 1 descriptors or until it drops
out; then the next eligible SQ takes it. Log entry 11. -/
def pickClass (r : Regs) (a : Arb) (els : List SqHead) : Option (SqHead × Arb) :=
  match (if a.left = 0 then none else els.find? fun e => e.idx == a.cur) with
  | some e => some (e, { a with left := a.left - 1 })
  | none =>
    match ((List.range 32).map fun k => (a.cur + 1 + k) % 32).find? fun q => els.any fun e => e.idx == q with
    | none => none
    | some q => (els.find? fun e => e.idx == q).map fun e => (e, { cur := q, left := bits (r.c (Reg.SQ_CFG e.pf.val e.sq.val)) 15 12 })

/-- The descriptor that the ring engine fetches next, with the turns as they then stand (04 R92): strict priority between classes. -/
def pickNext (r : Regs) (c : Chip) (els : List SqHead) : Option (SqHead × UMap Arb) :=
  (List.range 4).findSome? fun p =>
    (pickClass r (UMap.get {} c.arb p) (els.filter fun e => sqPrio r e == p)).map fun x => (x.1, c.arb.put p x.2)

/-- FENCE_WAIT of the SQs whose next descriptor is held by its FENCE (04 Table 4.7). -/
def markFences (els : List SqHead) (c : Chip) : Chip :=
  els.foldl (fun c e => c.modRing e.pf.val fun g => g.setSq e.sq.val { g.sqAt e.sq.val with fenceWait := true }) c

/-- The head of an SQ moves past the descriptor fetched (04 Table 4.7). -/
def advanceHead (r : Regs) (e : SqHead) (c : Chip) : Chip :=
  c.modRing e.pf.val fun g =>
    let q := g.sqAt e.sq.val
    g.setSq e.sq.val { q with head := (q.head + 1) % ringSize (r.c (Reg.SQ_CFG e.pf.val e.sq.val)) }

/-- DESCRIPTOR_FETCH (04 R92 to R94): of the descriptors at the heads of the SQs the ring engine fetches one and runs it. -/
def execDescriptorFetch (heads : List SqHead) (s : State) : Answer :=
  .next (if !s.chip.ctlRuns then s
    else
      let els := heads.filter fun e => fetchable s.regs s.chip e
      let held := els.filter fun e => fenceHolds s.chip e.hdr
      let s := s.onChip fun _ c => markFences held c
      match pickNext s.regs s.chip (els.filter fun e => !fenceHolds s.chip e.hdr) with
      | none => s
      | some (e, arb) => releaseHeld (runRaw e (s.onChip fun r c => advanceHead r e { c with arb := arb })))

end Sys2Proof.Machine
end

