-- ==== Sys2Proof/Machine/Halter.lean ====
section
/-!
DEFINITION. Sys2Proof/Machine/Halter.lean: a halter is cleared (01 R24, 03 R67 step 1), the yard reset that ends in it (03 R72), and the
halter's own timers: its watchdog and the SAFE_DELAY counts (01 R22).
-/

namespace Sys2Proof.Machine

-- Timers ------------------------------------------------------------------------------------------------------------------------------------

/-- SAFE_DELAY_EXPIRY (01 R22): the SAFE_DELAY of an output's count has passed; commands that waited for a test it ended execute. -/
def execSafeDelayExpiry (src : Fin 125) (s : State) : Answer := .next (releaseHeld (s.onChip fun r c => safeDelayEnd r src.val c))

/-- HALTER_WATCHDOG (01 R22, R25): no valid frame has reached a halter, or WNA as 4, for 2 ms. -/
def execHalterWatchdog (y : Fin 5) (s : State) : Answer := .next (releaseHeld (s.onChip fun r c => halterWatchdog r y.val c))

-- Yard reset --------------------------------------------------------------------------------------------------------------------------------

/-- A yard that a reset may select (03 R72): its halter is supplied and CTL reaches it. -/
def yardResettable (c : Chip) (y : Nat) : Bool := c.fwRuns && yardPresent c y && (c.yard y).supplied && !(c.yard y).unreach

/-- What a halter clear leaves of a loop (08 Table 8.13): CTL's part; the bridge is off and its latch cleared. -/
def bridgeCleared (l : Loop) : Loop :=
  { l with
    st := .idle, toFault := false, fault := 0, latch := false, dutyOut := 0, sample := false, sent := false, stopping := false, cruise := false
    pinched := false, reversing := false, brakeShort := false, ilimAct := false, limRaised := false, job := none, stopJobs := [], coefQ := []
    coefIdx := none, runOn := 0, testing := false, sig := 0 }

/-- A halter is cleared, as at its power-on: its outputs off, its configuration, counters and signatures at their reset values (03 R67 step
1, R72; 01 R24), each stall's phase at that of its position (05 R129). -/
def haltCleared (y : Nat) (x : Halt) : Halt :=
  if y = 3 then { stalls := x.stalls, rows := x.rows, curves := x.curves, loops := x.loops.map fun e => (e.1, bridgeCleared e.2) }
  else { x with
    stalls := (List.range 64).foldl (fun m i => if stallYard i = y then m.put i { phase := 0x20 * (i % 8) } else m) x.stalls
    rows := x.rows.filter fun e => !(rowYard e.1 == y)
    curves := x.curves.filter fun e => !(e.1 / 2 == y) }

/-- The yard whose halter holds the configuration word with a key; none for WNA's (01 R21). -/
def keyYard (k : Nat) : Option Nat :=
  if 0x170000 ≤ k ∧ k < 0x1F0000 then unitYard ((k - 0x170000) / 4 / 0x100) ((k - 0x170000) / 4 % 0x100)
  else if 0x800000 ≤ k then some 3
  else if k % 0x100000 = Reg.SUPPLY_CFG then some (k / 0x100000)
  else match regRow k with
    | some w => match w.res with
      | .stall => some (stallYard (w.index k))
      | .row => some (rowYard (w.index k))
      | .yd => some 3
      | .feed => some (([0, 1, 3, 2] : List Nat).getD (w.index k) 3)
      | _ => none
    | none => none

/-- A halter and its part of the register file are cleared; CTL is absent until its first keep-alive (01 R22, R24; 03 R67). It stays in
lock-out while its feed is in that band. -/
def clearHalter (y : Nat) (s : State) : State :=
  let s := { s with regs := { s.regs with halt := s.regs.halt.filter fun e => !(keyYard e.1 == some y) } }
  s.onChip fun _ c =>
    let d := c.yard y
    let c := { c with halt := haltCleared y c.halt, safes := c.safes.filter fun e => !(srcYard e.1 == some y) }
    let c := c.setYard y { d with
      cleared := true, ctlAbsent := true, wdArmed := false, lockout := (c.feed (yardFeed y)).band == 1, shed1 := false, shed2 := false, shed3 := false, restoreQ := []
      evq := [], evTx := [], results := [], resTx := [], mirrorUp := false, defer := [], conflict := false, redo := [], readback := false }
    { c with seqs := if y = 3 then [] else c.seqs }

/-- A yard reset ends once every output has reached its disable state (03 R72): the halter is cleared, and the yard is under adoption as
CLEARED. -/
def yardResetEnd (y : Nat) (s : State) : State :=
  if (s.chip.yard y).resetting && yardDisabled s.regs s.chip y then
    releaseHeld ((clearHalter y s).onChip fun _ c => c.modYard y fun d => { d with
      resetting := false, adopting := true, adopted := false, res := 3, frames := [], nextExec := d.nextSeq })
  else s

/-- Step 1 of a yard reset starts (03 R72). -/
def yardReset (y : Nat) (s : State) : State :=
  if yardResettable s.chip y && !(s.chip.yard y).resetting then yardResetEnd y (s.onChip fun r c => disableYard r y c) else s

end Sys2Proof.Machine
end

