-- ==== Sys2Proof/Machine/HostIf.lean ====
section
/-!
DEFINITION. Sys2Proof/Machine/HostIf.lean: what the host writes through BAR0 (04 R79 to R86, 16 R353 to R356): doorbells, ring set-up,
set-up registers under their access codes (00 R7, R392), RST_CMD; host loss (04 R103); the COAL_US windows of the CQs (04 R101).
-/

namespace Sys2Proof.Machine

-- Pages -------------------------------------------------------------------------------------------------------------------------------------

/-- A write to a ring or doorbell page of function `pf` that arrives through function `via` (04 R80): PF0's write to a page of PF1 is a
violation, PF1's to a page of PF0 is ignored. -/
def pageWrite (via pf off : Nat) (f : State → State) (s : State) : State :=
  if !hostReach s.chip via then s
  else if via = pf then f s
  else if via = 0 then s.onChip fun r c => violation r 3 0 off c
  else s

-- Doorbells ---------------------------------------------------------------------------------------------------------------------------------

/-- A refused doorbell (04 R86): DB_ERR by `mark`, and DB_INVALID of source 243 with the kind of queue (0 SQ, 1 CQ, 2 EQ) and its index. -/
def doorbellRefused (r : Regs) (pf kind n v : Nat) (mark : Ring → Ring) (c : Chip) : Chip :=
  raiseFn r pf 243 Cls.warning (pay ([2, kind, n] ++ two v)) (c.modRing pf mark)

/-- A head doorbell at `v` would move past the tail (04 R86). -/
def headPast (cfg head tail v : Nat) : Bool := decide (occupied (ringSize cfg) head tail < occupied (ringSize cfg) head v)

/-- An SQ tail doorbell (04 R85, R86). -/
def sqTail (pf n v : Nat) (s : State) : State :=
  s.onChip fun r c =>
    let cfg := r.c (Reg.SQ_CFG pf n)
    if !bit cfg 0 || decide (ringSize cfg ≤ v) then
      doorbellRefused r pf 0 n v (fun g => g.setSq n { g.sqAt n with dbErr := true }) c
    else c.modRing pf fun g => g.setSq n { g.sqAt n with tail := v }

/-- A CQ head doorbell (04 R85, R86, R93): the slots passed are released. -/
def cqHead (pf n v : Nat) (s : State) : State :=
  s.onChip fun r c =>
    let cfg := r.c (Reg.CQ_CFG pf n)
    let q := (c.ring pf).cqAt n
    if !bit cfg 0 || decide (ringSize cfg ≤ v) || headPast cfg q.head q.tail v then
      doorbellRefused r pf 1 n v (fun g => g.setCq n { g.cqAt n with dbErr := true }) c
    else c.modRing pf fun g => g.setCq n { g.cqAt n with head := v }

/-- The EQ head doorbell (04 R85, R86, R99): record slots are freed and COLLAPSED records written. -/
def eqHead (pf v : Nat) (s : State) : State :=
  s.onChip fun r c =>
    let cfg := r.c (Reg.EQ_CFG pf)
    let q := (c.ring pf).eq
    if !bit cfg 0 || decide (ringSize cfg ≤ v) || headPast cfg q.head q.tail v then
      doorbellRefused r pf 2 0 v (fun g => { g with eq := { g.eq with dbErr := true } }) c
    else drainCollapsed r pf 257 (c.modRing pf fun g => { g with eq := { g.eq with head := v } })

/-- A heartbeat doorbell (04 R102, R103): it ends a declared host loss; counts without another trigger stop. -/
def heartbeatBell (pf : Nat) (s : State) : State :=
  s.onChip fun r c =>
    let c := c.modRing pf fun g => { g with hbSinceWake := true }
    let c := if (c.ring pf).hostLost then
        let c := raiseFn r pf 237 Cls.state 0 (c.modRing pf fun g => { g with hostLost := false })
        (allOutputs r c).foldl (fun c src => if srcSecure r src == (pf == 1) then stopSafe r c src else c) c
      else c
    heartbeat r pf c

/-- SQ_TAIL (04 R86): function `via` writes the doorbell of SQ `n` of function `pf`. -/
def execSqTail (via pf : Fin 2) (n : Fin 16) (v : Fin 4294967296) (s : State) : Answer :=
  .next (pageWrite via.val pf.val (Reg.SQ_TAIL pf.val n.val) (sqTail pf.val n.val (v.val % 4096)) s)

/-- CQ_HEAD (04 R93). -/
def execCqHead (via pf : Fin 2) (n : Fin 8) (v : Fin 4294967296) (s : State) : Answer :=
  .next (pageWrite via.val pf.val (Reg.CQ_HEAD pf.val n.val) (cqHead pf.val n.val (v.val % 4096)) s)

/-- EQ_HEAD (04 R99). -/
def execEqHead (via pf : Fin 2) (v : Fin 4294967296) (s : State) : Answer :=
  .next (pageWrite via.val pf.val (Reg.EQ_HEAD pf.val) (eqHead pf.val (v.val % 4096)) s)

/-- HEARTBEAT_DOORBELL (04 R103): any write is a heartbeat. -/
def execHeartbeatDoorbell (via pf : Fin 2) (_v : Fin 4294967296) (s : State) : Answer :=
  .next (pageWrite via.val pf.val (Reg.HEARTBEAT pf.val) (heartbeatBell pf.val) s)

-- Ring set-up -------------------------------------------------------------------------------------------------------------------------------

/-- RING_CTRL is written (04 Table 4.3). -/
def ringCtrl (pf v : Nat) (s : State) : State :=
  (s.wrCtl (Reg.RING_CTRL pf) (v &&& 0x3FFF0001)).onChip fun _ c =>
    if bit v 0 then c.modRing pf fun g => { g with enSinceWake := true } else c

/-- RING_ENABLE (04 R82): RING_CTRL is written whole. -/
def execRingEnable (via pf : Fin 2) (v : Fin 4294967296) (s : State) : Answer :=
  .next (pageWrite via.val pf.val (Reg.RING_CTRL pf.val) (ringCtrl pf.val v.val) s)

/-- The configuration register of a queue: kind 0 SQ, 1 CQ, 2 EQ. -/
def queueCfg (pf kind n : Nat) : Nat := if kind = 0 then Reg.SQ_CFG pf n else if kind = 1 then Reg.CQ_CFG pf n else Reg.EQ_CFG pf
/-- The fields of that register (04 Tables 4.6, 4.8). -/
def queueMask (kind : Nat) : Nat := if kind = 0 then 0x7F3F1 else if kind = 1 then 0xFF1FF3 else 0xF1
/-- Host address of a queue's entry 0 (04 Table 4.5). -/
def queueBase (r : Regs) (pf kind n : Nat) : Nat :=
  let lo := if kind = 0 then Reg.SQ_BASE_LO pf n else if kind = 1 then Reg.CQ_BASE_LO pf n else Reg.EQ_BASE_LO pf
  let hi := if kind = 0 then Reg.SQ_BASE_HI pf n else if kind = 1 then Reg.CQ_BASE_HI pf n else Reg.EQ_BASE_HI pf
  r.c hi * 2 ^ 32 + bits (r.c lo) 31 12 * 4096

/-- EN may be set (04 R83; 14 R320): SIZE lies in 4 to 12 and the ring in one window with read (SQ) or write permission. -/
def queueFits (r : Regs) (pf kind n cfg : Nat) : Bool :=
  decide (4 ≤ bits cfg 7 4) && decide (bits cfg 7 4 ≤ 12) &&
    inWindow r pf (queueBase r pf kind n) (ringSize cfg * (if kind = 0 then 32 else 16)) (!(kind == 0))

/-- CFG_ERR of a queue. -/
def setCfgErr (pf kind n : Nat) (b : Bool) (c : Chip) : Chip :=
  c.modRing pf fun g =>
    if kind = 0 then g.setSq n { g.sqAt n with cfgErr := b }
    else if kind = 1 then g.setCq n { g.cqAt n with cfgErr := b }
    else { g with eq := { g.eq with cfgErr := b } }

/-- The events held before the EQ was enabled are posted in order of occurrence, those beyond 1,024 as collapsed behind an OVERFLOW record;
wake records of WNA concerning the function are then posted (04 R391). -/
def postHeld (r : Regs) (pf : Nat) (c : Chip) : Chip :=
  let g := c.ring pf
  let c := c.setRing pf { g with held := [], heldOver := false, heldOverT := 0, heldCnt := [] }
  let c := g.held.foldl (fun c ev => postEvent r pf ev c) c
  let c := if g.heldOver then
      let cnt := g.heldCnt.filter fun e => bit (r.c (Reg.EVT_ROUTE pf e.1)) 8
      let c := if (c.ring pf).eq.collapsing then c else overflowRecord r pf g.heldOverT c
      drainCollapsed r pf 257 (c.modRing pf fun h => { h with eq := { h.eq with cnt := cnt.foldl (fun m e =>
        m.put e.1 { e.2 with cnt := min 255 (e.2.cnt + (UMap.get {} m e.1 : Coll).cnt) }) h.eq.cnt } })
    else c
  { c with sys := { c.sys with wakeEv := c.sys.wakeEv.filter fun ev => !(srcFns r ev.src).contains pf } }

/-- A queue has been enabled (04 R83): its indices are 0 and its phase 1. Beyond the rule, an EQ that is enabled again has left COLLAPSING and
its collapse counters are 0: the events they counted are dropped (log entry 54). -/
def queueStart (r : Regs) (pf kind n : Nat) (c : Chip) : Chip :=
  if kind = 0 then c.modRing pf fun g => g.setSq n { g.sqAt n with tail := 0, head := 0, cfgErr := false, fenceWait := false }
  else if kind = 1 then c.modRing pf fun g => g.setCq n { g.cqAt n with
    head := 0, tail := 0, phase := true, cfgErr := false, coalOpen := false, coalHit := false }
  else postHeld r pf (c.modRing pf fun g => { g with eq := { dbErr := g.eq.dbErr } })

/-- Clearing EN of a CQ is refused while an enabled SQ names it or a slot of it is reserved (04 R83, R93). -/
def cqBound (r : Regs) (c : Chip) (pf n : Nat) : Bool :=
  let q := (c.ring pf).cqAt n
  ((List.range 16).any fun k => bit (r.c (Reg.SQ_CFG pf k)) 0 && sqCq r pf k == n) ||
    decide (0 < q.reserved + occupied (ringSize (r.c (Reg.CQ_CFG pf n))) q.head q.tail)

/-- A queue's configuration register is written (04 R83): SIZE of an enabled queue keeps its value; EN is set or cleared where nothing
refuses it. -/
def queueWrite (pf kind n v : Nat) (s : State) : State :=
  let off := queueCfg pf kind n
  let old := s.regs.c off
  let w := v &&& queueMask kind
  let w := if bit old 0 then setBits w 7 4 (bits old 7 4) else w
  let t := s.wrCtl off w
  if bit w 0 && !bit old 0 then
    if queueFits s.regs pf kind n w then t.onChip fun r c => queueStart r pf kind n c
    else (s.wrCtl off (w - 1)).onChip fun _ c => setCfgErr pf kind n true c
  else if !bit w 0 && bit old 0 && kind == 1 then
    if cqBound s.regs s.chip pf n then (s.wrCtl off (w + 1)).onChip fun _ c => setCfgErr pf 1 n true c
    else t.onChip fun _ c => setCfgErr pf 1 n false c
  else t

/-- QUEUE_ENABLE (04 R83): the configuration register is written with EN = 1; `kind` is 0 SQ, 1 CQ, 2 EQ. -/
def execQueueEnable (via pf : Fin 2) (kind : Fin 3) (n : Fin 16) (v : Fin 4294967296) (s : State) : Answer :=
  .next (if kind.val = 1 ∧ 8 ≤ n.val then s
    else pageWrite via.val pf.val (queueCfg pf.val kind.val n.val) (queueWrite pf.val kind.val n.val (v.val ||| 1)) s)

/-- QUEUE_DISABLE (04 R83): the configuration register is written with EN = 0. -/
def execQueueDisable (via pf : Fin 2) (kind : Fin 3) (n : Fin 16) (v : Fin 4294967296) (s : State) : Answer :=
  .next (if kind.val = 1 ∧ 8 ≤ n.val then s
    else pageWrite via.val pf.val (queueCfg pf.val kind.val n.val) (queueWrite pf.val kind.val n.val (v.val - v.val % 2)) s)

/-- The COAL_US window of a CQ closes (04 R101): its vector is raised if entries were posted meanwhile, which opens the next window. -/
def coalExpiry (r : Regs) (pf n : Nat) (c : Chip) : Chip :=
  let q := (c.ring pf).cqAt n
  let c' := c.modRing pf fun g => g.setCq n { g.cqAt n with coalOpen := false, coalHit := false }
  if q.coalOpen then (if q.coalHit then cqSignal r pf n c' else c') else c

/-- CQ_COAL_EXPIRY (04 R101). -/
def execCqCoalExpiry (pf : Fin 2) (n : Fin 8) (s : State) : Answer := .next (s.onChip fun r c => if c.ctlRuns then coalExpiry r pf.val n.val c else c)

-- Host loss ---------------------------------------------------------------------------------------------------------------------------------

/-- Host loss of a function is declared (04 R103). -/
def hostLoss (r : Regs) (pf : Nat) (c : Chip) : Chip :=
  let c := c.modRing pf fun g => { g with hostLost := true, episodes := g.episodes + 1 }
  let c := raiseFn r pf 237 Cls.fault 1 c
  let c := completeAll r ((c.jobs.filter fun j => j.waiting && j.h.pf.val == pf).map fun j => j.id) St.aborted c
  let reach := (List.range 4).filter fun y => yardPresent c y && (c.yard y).adopted && !(c.yard y).unreach
  let c := (reach.flatMap fun y => yardOutputs r c y).foldl (fun c src => if srcSecure r src == (pf == 1) then startSafe r c src else c) c
  let c := if ownerSecure r 0x17 0 == (pf == 1) then stopPorts r St.aborted c else c
  if ownerSecure r 0x1C 0 == (pf == 1) then nmHostLoss r c else c

/-- HOST_LOSS (04 R102, R103): not while debug halt suspends supervision (03 Table 3.10). -/
def execHostLoss (pf : Fin 2) (s : State) : Answer :=
  .next (
    let c := s.chip
    let g := c.ring pf.val
    if c.fwRuns && g.supervised && !g.hostLost && !(c.sys.halted && bit (s.regs.c Reg.DEBUG_CFG) 1) then
      releaseHeld (s.onChip fun r c => hostLoss r pf.val c)
    else s)

-- Yard reset --------------------------------------------------------------------------------------------------------------------------------

/-- RST_CMD with ACTION = 2 (03 R72). -/
def yardResetCmd (via yards : Nat) (s : State) : State :=
  if !hostReach s.chip via then s
  else if via = 0 then s.onChip fun r c => violation r 4 0 0 c
  else ((List.range 4).filter fun y => yards.testBit y).foldl (fun s y => yardReset y s) s

/-- YARD_RESET (03 R72). -/
def execYardReset (via : Fin 2) (yards : Fin 16) (s : State) : Answer := .next (yardResetCmd via.val yards.val s)

-- Register writes ---------------------------------------------------------------------------------------------------------------------------

/-- A register's block or unit belongs to the secure world (00 R392; 05 R139; 10 R251). -/
def rowSecure (r : Regs) (w : RegRow) (i : Nat) : Bool :=
  match w.owner with
  | .all | .page _ => false
  | .sec => true
  | .blk b => ownerSecure r b 0
  | .stall => ownerSecure r 0x10 i
  | .dout => ownerSecure r 0x11 i

/-- The bits that act as RWS (00 R7, R392). -/
def rwsMask (r : Regs) (w : RegRow) (i : Nat) : Nat := if rowSecure r w i then w.rw ||| w.rwl ||| w.rws else w.rws

/-- The bits that take a write through function `via` (00 Table 0.4): RWS only through PF1, RWL until the boot lock is set. -/
def takeMask (r : Regs) (lock : Bool) (via : Nat) (w : RegRow) (i : Nat) : Nat :=
  let all := w.rw ||| w.rwl ||| w.rws
  let all := if lock then all - (all &&& w.rwl) else all
  if via = 1 then all else all - (all &&& rwsMask r w i)

/-- `old` with the bits of `take` from `v`. -/
def mergeWord (take old v : Nat) : Nat := old - (old &&& take) + (v &&& take)

/-- The yards whose halter holds the register (01 R21, 02 R52). -/
def resYards (w : RegRow) (i : Nat) : List Nat :=
  match w.res with
  | .none_ => []
  | .stall => [stallYard i]
  | .row => [rowYard i]
  | .yd => [3]
  | .feed => [([0, 1, 3, 2] : List Nat).getD i 3]
  | .all => [0, 1, 2, 3]

/-- A word of the network range is held in WNA too (01 R25, 12 R286). -/
def inWna (off : Nat) : Bool := decide (0x38000 ≤ off) && decide (off < 0x3C000)

/-- The CFG register of a network segment and the place of its EN bit (12 Table 12.12). -/
def segCfg (n : Nat) : Nat × Nat :=
  if n < 8 then (Reg.CAN_CFG n, 12) else if n < 14 then (Reg.LIN_CFG (n - 8), 12)
  else if n < 16 then (Reg.T1S_CFG (n - 14), 29) else (Reg.BB_CFG (n - 16), 0)

/-- The segment whose EN lies in the register at `off`. -/
def cfgSeg (off : Nat) : Option Nat := (List.range 18).find? fun n => (segCfg n).1 == off

/-- What a register write does beside storing the value. -/
def regEffect (off old new : Nat) (s : State) : State :=
  if 0x01800 ≤ off ∧ off < 0x01A00 then s.onChip fun r c => msixFlush r 0 c
  else if 0x02800 ≤ off ∧ off < 0x02A00 then s.onChip fun r c => msixFlush r 1 c
  else if 0x30000 ≤ off ∧ off < 0x30400 then
    let n := (off - 0x30000) / 0x20
    s.onChip fun r c =>
      if off = Reg.TMR_RELOAD n then writeReload n new c else if off = Reg.TMR_CMP n then writeCmp r n new c else c
  else match cfgSeg off with
    | none => s
    | some n =>
      let b := (segCfg n).2
      s.onChip fun r c =>
        if bit old b && !bit new b then segDisable r n c
        else if !bit old b && bit new b then segEnable r n c
        else if 16 ≤ n ∧ !bit old 4 ∧ bit new 4 then qbvArm r (n - 16) c else c

/-- A W1C write: the bits of `v` are cleared where the register keeps them (00 Table 0.4). -/
def w1cWrite (off v : Nat) (c : Chip) : Chip :=
  let drop (x m : Nat) : Nat := x - (x &&& m)
  if off = Reg.RST_CAUSE then { c with sys := { c.sys with causes := drop c.sys.causes (v &&& 0x1FF) } }
  else if off = Reg.UPD_STATUS then { c with upd := { c.upd with setReset := c.upd.setReset && !bit v 6 } }
  else if off = Reg.UPD_KEYSTAT then { c with upd := { c.upd with keyErr := c.upd.keyErr && !bit v 14 } }
  else if off = Reg.ADAPT_STATUS then { c with age := { c.age with adapt := drop c.age.adapt (v &&& 0x3F) } }
  else if 0x20000 ≤ off ∧ off < 0x20A00 then c.modLoop ((off - 0x20000) / 0x100) fun l => { l with sat := drop l.sat (bits v 10 5) }
  else if 0x30000 ≤ off ∧ off < 0x30400 then c.modTimer ((off - 0x30000) / 0x20) fun t => { t with late := t.late && !bit v 2 }
  else if (0x01000 ≤ off ∧ off < 0x03000) ∧ bit v 2 then
    let pf := off / 0x1000 - 1
    let o := off % 0x1000
    c.modRing pf fun g =>
      if o = 0x1C then { g with eq := { g.eq with dbErr := false } }
      else if o < 0x200 then g.setSq ((o - 0x100) / 0x10) { g.sqAt ((o - 0x100) / 0x10) with dbErr := false }
      else g.setCq ((o - 0x200) / 0x10) { g.cqAt ((o - 0x200) / 0x10) with dbErr := false }
  else c

/-- A value is stored in CTL's register and sent to the halters that hold a copy of it (16 R356); a yard that CTL may not command gets it at
its next adoption (01 R20). WNA takes its part at once. -/
def storeReg (w : RegRow) (off new : Nat) (s : State) : State :=
  let s := s.wrCtl off new
  let s := if inWna off then { s with regs := { s.regs with halt := s.regs.halt.wr off new } } else s
  let s := s.onChip fun _ c => (resYards w (w.index off)).foldl (fun c y => if yardCommandable c y then sendFrame y off new none false c else c) c
  s.onChip fun _ c => if off = Reg.SHED_HYS 2 then { c with sys := { c.sys with dwellD := bits new 22 16 } } else c

/-- COEF[j] of a loop, whose writes are ignored unless the loop is IDLE (08 R205). -/
def coefWord (off : Nat) : Option (Nat × Nat) :=
  if 0x20000 ≤ off ∧ off < 0x20A00 ∧ 0x80 ≤ off % 0x100 ∧ off % 0x100 < 0xA0 then some ((off - 0x20000) / 0x100, off % 0x100 / 4 - 0x20) else none

/-- A word that behaves as absent (00 R2, 02 R30, 16 R354): those of yard YC where it is not fitted or not in use. -/
def regAbsent (c : Chip) (off : Nat) : Bool :=
  (c.ycOff && ((decide (0x13000 ≤ off) && decide (off < 0x14000)) || (decide (0x14180 ≤ off) && decide (off < 0x14200)))) ||
    (c.sys.y3 && (off == Reg.SHED_THR 3 || off == Reg.SHED_HYS 3 || off == Reg.FEED_LIM 3))

/-- A write to a set-up register outside the ring pages, under the access codes of its fields (00 R7, R392). -/
def fieldWrite (via off v : Nat) (s : State) : State :=
  match regRow off with
  | none => s
  | some w =>
    if regAbsent s.chip off then s
    else
      let i := w.index off
      let old := match coefWord off with
        | some (n, j) => ofSigned 32 (coefOf (s.chip.loop n) j)
        | none => s.regs.c off
      let take := takeMask s.regs s.chip.sys.lock via w i
      let new := mergeWord take old v
      let s := if via = 0 ∧ (Nat.xor v old &&& rwsMask s.regs w i) ≠ 0 then s.onChip fun r c => violation r 1 0 off c else s
      let s := if v &&& w.w1c = 0 then s else s.onChip fun _ c => w1cWrite off v c
      match coefWord off with
      | some (n, j) =>
        if take ≠ 0 ∧ (s.chip.loop n).st = .idle then s.onChip fun _ c => c.modLoop n (applyPairCoef j new) else s
      | none => if take = 0 then s else regEffect off old new (storeReg w off new s)

/-- A write to a word of a function's own ring page (04 R82, R83). -/
def ringPageWrite (pf off v : Nat) (s : State) : State :=
  let o := off % 0x1000
  if o = 0x000 then ringCtrl pf v s
  else if o = 0x018 then queueWrite pf 2 0 v s
  else if 0x100 ≤ o ∧ o < 0x200 ∧ o % 0x10 = 8 then queueWrite pf 0 ((o - 0x100) / 0x10) v s
  else if 0x200 ≤ o ∧ o < 0x280 ∧ o % 0x10 = 8 then queueWrite pf 1 ((o - 0x200) / 0x10) v s
  else
    let cfg := if o < 0x018 then Reg.EQ_CFG pf else if o < 0x200 then Reg.SQ_CFG pf ((o - 0x100) / 0x10) else Reg.CQ_CFG pf ((o - 0x200) / 0x10)
    let base := (o == 0x010 || o == 0x014) || (decide (0x100 ≤ o) && decide (o < 0x280) && decide (o % 0x10 < 8))
    if base && bit (s.regs.c cfg) 0 then s else fieldWrite pf off v s

/-- A write to a word of a function's own doorbell page (04 Table 4.12). -/
def bellPageWrite (pf off v : Nat) (s : State) : State :=
  let o := off % 0x1000
  if o < 0x040 then sqTail pf (o / 4) (v % 4096) s
  else if o < 0x060 then cqHead pf ((o - 0x040) / 4) (v % 4096) s
  else if o = 0x060 then eqHead pf (v % 4096) s
  else if o = 0x064 then heartbeatBell pf s
  else s

/-- RST_CMD (03 R72, Table 3.7). -/
def rstCmd (via v : Nat) (s : State) : State :=
  if bits v 31 16 ≠ 0xC7A5 then s
  else if bits v 1 0 = 1 then resetCtl 6 true s
  else if bits v 1 0 = 2 then yardResetCmd via (bits v 7 4) s
  else s

/-- UPD_KEYCTL (14 Table 14.5). -/
def keyCtl (v : Nat) (s : State) : State :=
  if bits v 31 16 ≠ 0x5E1F then s
  else if bits v 3 2 = 1 then keyProgram (bits v 1 0) (bit v 4) s
  else if bits v 3 2 = 2 then keyRevoke (bits v 1 0) s
  else s

/-- A write of a whole word through function `via` (00 R9, 04 R80, 13 R294, 14 R339). -/
def registerWrite (via off v : Nat) (s : State) : State :=
  if !hostReach s.chip via then s
  else if (0x01000 ≤ off ∧ off < 0x03000) then pageWrite via (off / 0x1000 - 1) off (ringPageWrite (off / 0x1000 - 1) off v) s
  else if (0x04000 ≤ off ∧ off < 0x06000) then pageWrite via (off / 0x1000 - 4) off (bellPageWrite (off / 0x1000 - 4) off v) s
  else if 0x40000 ≤ off ∧ off < 0x50000 ∧ via = 0 then s.onChip fun r c => violation r 1 0 off c
  else if off = Reg.RST_CMD then rstCmd via v s
  else if off = Reg.UPD_KEYCTL then keyCtl v s
  else if 0x48020 ≤ off ∧ off < 0x48040 then s.wrCtl off v
  else fieldWrite via off v s

/-- REGISTER_WRITE (16 R356, 00 R9): a write through function `via` at an offset of BAR0 with its byte enables; one that does not cover an
aligned word is discarded. -/
def execRegisterWrite (via : Fin 2) (off : Fin 1048576) (v : Fin 4294967296) (be : Fin 16) (s : State) : Answer :=
  .next (if be.val = 15 ∧ off.val % 4 = 0 then registerWrite via.val off.val v.val s else s)

/-- SEGMENT_ENABLE (12 R281): a write of the unit's CFG register that sets EN. -/
def execSegmentEnable (via : Fin 2) (u : Fin 18) (s : State) : Answer :=
  .next (registerWrite via.val (segCfg u.val).1 (setBits (s.regs.c (segCfg u.val).1) (segCfg u.val).2 (segCfg u.val).2 1) s)

/-- SEGMENT_DISABLE (12 R281): a write of the unit's CFG register that clears EN. -/
def execSegmentDisable (via : Fin 2) (u : Fin 18) (s : State) : Answer :=
  .next (registerWrite via.val (segCfg u.val).1 (setBits (s.regs.c (segCfg u.val).1) (segCfg u.val).2 (segCfg u.val).2 0) s)

end Sys2Proof.Machine
end

