-- ==== Sys2Proof/Machine/Guyline.lean ====
section
/-!
DEFINITION. Sys2Proof/Machine/Guyline.lean: the frames between CTL and a yard (01 R16 to R20): commands, acknowledgements, retransmission,
status mirrors, and a yard that is declared unreachable or whose halter has been cleared (03 R71).
-/

namespace Sys2Proof.Machine

-- Commands ----------------------------------------------------------------------------------------------------------------------------------

/-- The frame that carries a sequence number. -/
def frameOf (d : Yard) (seq : Nat) : Option Frame := d.frames.find? fun f => f.seq == seq

/-- A yard executes the commands that it has received, in order of sequence numbers (01 R17). -/
def runFrames (y : Nat) : Nat → State → State
  | 0, s => s
  | n + 1, s =>
    let d := s.chip.yard y
    match frameOf d d.nextExec with
    | none => s
    | some f =>
      if !f.rx && !f.done then s
      else
        let s := if f.done then s else runFrame y f s
        runFrames y n (s.onChip fun _ c => c.modYard y fun d => { d with
          nextExec := d.nextExec + 1
          frames := (d.frames.filter fun g => !(g.seq == f.seq && g.ack)).map fun g => if g.seq == f.seq then { g with done := true } else g })

/-- A command frame reaches a yard without error (01 R17): it is acknowledged, a duplicate too; the yard executes what has its turn. -/
def commandRx (y seq : Nat) (s : State) : State :=
  let d := s.chip.yard y
  let sent := match frameOf d seq with
    | some f => decide (0 < f.tx)
    | none => decide (seq < d.nextSeq)
  if !d.supplied || !sent then s
  else
    runFrames y (d.frames.length + 1) (s.onChip fun _ c =>
      (c.modYard y fun d => { d with frames := d.frames.map fun f => if f.seq == seq then { f with rx := true } else f }).emit (.guy y .ack seq))

/-- GUYLINE_COMMAND_RX (01 R17). -/
def execGuylineCommandRx (y : Fin 4) (seq : Nat) (s : State) : Answer := .next (releaseHeld (commandRx y.val seq s))

/-- GUYLINE_ACK_RX (01 R17, R18): the acknowledgement of a command that the yard has received. -/
def execGuylineAckRx (y : Fin 4) (seq : Nat) (s : State) : Answer :=
  .next (s.onChip fun r c =>
    match frameOf (c.yard y.val) seq with
    | some f => if f.rx || f.done then ackFrame r y.val seq c else c
    | none => c)

/-- A command is sent again (01 R18): after the fourth unsuccessful transmission LINK_DEGRADED is raised; none goes to a yard that is
unreachable or under adoption (01 R20). -/
def retransmit (r : Regs) (y seq : Nat) (c : Chip) : Chip :=
  match frameOf (c.yard y) seq with
  | none => c
  | some f =>
    if f.tx = 0 || f.ack || !yardCommandable c y || !c.fwRuns then c
    else
      let c := if f.tx = 4 then raise r (232 + y) Cls.warning (pay ([1, 4] ++ two (seq % 65536))) c else c
      (c.modYard y fun d => { d with frames := d.frames.map fun g => if g.seq == seq then { g with tx := satInc 255 g.tx } else g }).emit
        (.guy y .command seq)

/-- GUYLINE_RETRANSMIT (01 R18). -/
def execGuylineRetransmit (y : Fin 4) (seq : Nat) (s : State) : Answer := .next (s.onChip fun r c => retransmit r y.val seq c)

-- Mirrors -----------------------------------------------------------------------------------------------------------------------------------

/-- MIRROR_INTERVAL (01 R19): the yard sends a mirror with its state, and with the events and results since the last mirror received. -/
def execMirrorInterval (y : Fin 4) (s : State) : Answer :=
  .next (s.onChip fun _ c =>
    let d := c.yard y.val
    if !d.supplied || c.sys.ctl == .off then c
    else
      ({ c with img := c.img.put y.val c.halt }.setYard y.val { d with
        mirrorUp := true, evTx := d.evTx ++ d.evq, evq := [], resTx := d.resTx ++ d.results, results := [] }).emit (.guy y.val .mirror 0))

/-- Descriptors dispatched to the units of a yard that is lost to CTL complete BUSY, with the tests and cross-checks that ran there (01 R20,
03 R71). -/
def yardBusy (r : Regs) (y : Nat) (c : Chip) : Chip :=
  let c := if y < 3 then abortCross r St.busy (fun i => stallYard i == y) c else c
  let run := c.age.tests.filter fun t => inYard y t.blk t.unit
  let c := run.foldl (fun c t => setTesting t.blk t.unit false c) { c with age := { c.age with tests := c.age.tests.filter fun t => !inYard y t.blk t.unit } }
  let c := completeAll r ((c.jobs.filter fun j => inYard y j.blk j.unit && !j.waiting).map fun j => j.id) St.busy c
  if y = 3 then { c with seqs := [], halt := { c.halt with snaps := [] } } else c

/-- UNREACHABLE (01 R20): no valid mirror for 100 µs. -/
def unreachable (r : Regs) (y : Nat) (c : Chip) : Chip :=
  let d := c.yard y
  if !c.fwRuns || !yardPresent c y || d.unreach || !(d.adopted || d.adopting) then c
  else yardBusy r y (raise r (232 + y) Cls.fault 2 (c.setYard y { d with unreach := true, adopting := false, readback := false }))

/-- UNREACHABLE (01 R20). -/
def execUnreachable (y : Fin 4) (s : State) : Answer := .next (sleepCheck (afterTests (s.onChip fun r c => unreachable r y.val c)))

/-- A mirror replaces CTL's copy of its yard; its events are posted and its results taken (01 R19). -/
def takeMirror (r : Regs) (y : Nat) (c : Chip) : Chip :=
  let d := c.yard y
  let c := { c with copy := copyYard y (UMap.get {} c.img y) c.copy }
  let c := c.setYard y { d with mirrorUp := false, evTx := [], resTx := [] }
  takeResults r d.resTx (d.evTx.foldl (fun c ev => postAll r ev c) c)

/-- A yard must be adopted again (01 R20, 03 R71): the commands it has not acknowledged are not sent again, as adoption brings its
configuration up to date. -/
def readopt (y : Nat) (c : Chip) : Chip :=
  c.modYard y fun d => { d with
    unreach := false, adopting := true, adopted := false, readback := false, redo := [], frames := [], nextExec := d.nextSeq }

/-- The registers of a yard's outputs in canonical order of their configuration (03 Table 3.12): offsets. -/
def outputOffs (src : Nat) : List Nat :=
  if src < 64 then
    [Reg.STALL_CFG src, Reg.STALL_PWM_CFG src, Reg.STALL_WIRE src, Reg.STALL_WIRE_USER src, Reg.STALL_POLICY src, Reg.STALL_BUDGET src
     , Reg.STALL_SEC src, Reg.STALL_PROT src, Reg.STALL_THERM src, Reg.STALL_DIAG_CFG src, Reg.ROW_CFG (stallRow src)]
  else if src < 80 then
    let n := src - 64
    [Reg.VALVE_CFG n, Reg.VALVE_TIME n, Reg.VALVE_CHOP n, Reg.VALVE_POLICY n, Reg.VALVE_DUTY n, Reg.VALVE_DIAG_CFG n, Reg.VG_CFG (n / 4)]
  else if src < 90 then [Reg.LOOP_LIM (src - 80), Reg.BRIDGE_CFG (src - 80), Reg.LOOP_POLICY (src - 80)]
  else if src < 92 then [Reg.BOOST_CFG (src - 90), Reg.BOOST_POLICY (src - 90)]
  else if src < 104 then
    let n := src - 92
    [Reg.SINK_CFG n, Reg.SINK_POLICY n, Reg.SINK_DERATE n] ++ (if n = 5 ∨ n = 11 then [Reg.SINK_VF (n / 6)] else []) ++ [Reg.LANTERN_CFG]
  else if src = 104 then [Reg.MX_CFG, Reg.MX_POLICY]
  else
    let n := src - 113
    (if n % 2 = 1 then [Reg.DO_CFG (n - 1)] else []) ++ [Reg.DO_CFG n, Reg.DO_POLICY n]

/-- The halter takes a word that CTL holds (03 R69): plain, and for a bridge in force at once (03 R70). -/
def giveWord (y off : Nat) (s : State) : State :=
  let v := s.regs.c off
  let h := s.regs.halt.wr (haltKey y off) v
  let h := if 0x20000 ≤ off ∧ off < 0x20A00 then h.wr (liveKey off) v else h
  { s with regs := { s.regs with halt := h } }

/-- The world of an output as CTL now assigns it enters its halter, and a deferred change of ownership takes effect (03 R70). -/
def giveWorld (src : Nat) (s : State) : State :=
  let k := ownKey (srcBlock src) (srcUnit src)
  let s := { s with regs := { s.regs with ctl := s.regs.ctl.wr k 0 } }
  { s with regs := { s.regs with halt := s.regs.halt.wr k (if srcSecure s.regs src then 2 else 0) } }

/-- An output that is off receives its whole configuration with its signature (03 R69, R70). -/
def giveAll (y src : Nat) (s : State) : State :=
  let s := giveWorld src ((outputOffs src).foldl (fun s off => giveWord y off s) s)
  s.onChip fun r c =>
    let c := if src < 64 then c.modStall src fun x => { x with phaseNew := some (bits (r.h (Reg.STALL_PWM_CFG src)) 7 0), slotNew := none } else c
    resign r src c

/-- The units whose configuration goes with an output's: the members of a gang or a pair (05 R123, 10 R245). -/
def outputUnits (r : Regs) (c : Chip) (src : Nat) : List Nat :=
  if src < 64 then gang r c src
  else if 113 ≤ src ∧ (c.dout (src - 113)).pair && src % 2 = 1 then [src, src + 1] else [src]

/-- An output that is off, with its other members, receives its whole configuration (03 R69, R70). -/
def giveOutput (y src : Nat) (s : State) : State := (outputUnits s.regs s.chip src).foldl (fun s u => giveAll y u s) s

/-- The deferred changes of a yard's outputs that are now off are applied (03 R70). -/
def settleDeferred (y : Nat) (s : State) : State :=
  let ready := (s.chip.yard y).defer.filter fun src => !outputOn s.chip src
  if ready.isEmpty then s
  else
    let old := s
    let s := ready.foldl (fun s src => giveOutput y src s) s
    s.onChip fun r c => applyDeferred r y ((worldsChanged old.regs r y old.chip c).modYard y fun d => { d with defer := d.defer.filter fun src => !ready.contains src })

/-- A mirror that arrives before CTL has read its yard back is not taken: what it carried travels again (03 R68, R158). -/
def mirrorEarly (d : Yard) : Yard :=
  { d with mirrorUp := false, evq := d.evTx ++ d.evq, evTx := [], results := d.resTx ++ d.results, resTx := [] }

/-- A halter reports CLEARED while CTL runs (03 R71, 01 Table 1.8): HALTER_CLEARED, with CLEARED as the yard's result. -/
def haltClearedEvent (r : Regs) (y : Nat) (c : Chip) : Chip :=
  (raise r (232 + y) Cls.fault (7 + 3 * 256) c).modYard y fun d => { d with res := 3 }

/-- A mirror reaches CTL (01 R19, R20; 03 R70 to R72). -/
def mirrorRx (y : Nat) (s : State) : State :=
  let d := s.chip.yard y
  if !d.mirrorUp || !s.chip.fwRuns || !yardPresent s.chip y then s
  else if !d.unreach && !d.adopted && !d.readback then s.onChip fun _ c => c.modYard y mirrorEarly
  else
    let s := s.onChip fun r c => takeMirror r y c
    if d.unreach then
      s.onChip fun r c =>
        let c := readopt y (raise r (232 + y) Cls.link 3 c)
        if d.cleared && !d.resetting then haltClearedEvent r y c else c
    else if d.adopted && d.cleared && !d.resetting then
      s.onChip fun r c => yardBusy r y (haltClearedEvent r y (readopt y c))
    else yardResetEnd y (if d.adopted then settleDeferred y s else s)

/-- STATUS_MIRROR_RX (01 R19). -/
def execStatusMirrorRx (y : Fin 4) (s : State) : Answer := .next (releaseHeld (mirrorRx y.val s))

end Sys2Proof.Machine
end

