-- ==== Sys2Proof/Machine/Supply.lean ====
section
/-!
DEFINITION. Sys2Proof/Machine/Supply.lean: the feeds (02 R29 to R37): power-on and loss, bands and lock-out, shedding and restores (02 R47 to
R53), the pre-regulator, and the budget manager's blocks (02 R54, R56).
-/

namespace Sys2Proof.Machine

-- Bands -------------------------------------------------------------------------------------------------------------------------------------

/-- The band of a feed voltage in mV above Loss (02 Tables 2.2, 2.3, R58): feed 3 is VBAT48; `cls24` the 24 V class. The lower edge of a band
belongs to it (log entry 46). -/
def bandOf (cls24 : Bool) (f : Nat) (mv : Int) : Nat :=
  if f = 3 then if mv < 24000 then 1 else if mv < 36000 then 2 else if mv < 52000 then 3 else if mv < 60000 then 4 else 5
  else if mv < 3000 then 1 else if mv < (if cls24 then 16000 else 6000) then 2 else if mv < (if cls24 then 32000 else 18000) then 3 else 4

/-- SUPPLY_CFG.CLASS24 as the halter of a feed, or WNA for VBAT_AON, holds it (02 R52). -/
def feedCls24 (r : Regs) (f : Nat) : Bool := bit (supplyCfg r ((feedYard f).getD 4)) 0

/-- BAND_CHANGE of a feed (02 R58): by its halter, or by CTL for VBAT_AON; nothing while CTL is absent, but for the report that its return
brings: that of a yard at its adoption, that of VBAT_AON from WNA (log entry 52). -/
def bandEvent (r : Regs) (f old new : Nat) (mv : Int) (c : Chip) : Chip :=
  let p := pay ([1, f, new % 16 + old % 16 * 16] ++ mv10 mv)
  match feedYard f with
  | some y => feedEvent y (224 + f) Cls.state p c
  | none =>
    if c.sys.wnaAbsent || !c.ctlRuns then { c with sys := { c.sys with aonMissed := true } }
    else raise r 228 Cls.state p c

/-- The feed is measured by a supplied yard's comparator, or by WNA (02 R31). -/
def feedMeasured (c : Chip) (f : Nat) : Bool :=
  match feedYard f with
  | some y => (c.yard y).supplied
  | none => c.sys.aon

/-- A feed enters a band (02 R31 to R33): lock-out and the VBAT48 off band take every output and leaving them queues the restores; leaving the
normal band ends a cross-check. -/
def enterBand (r : Regs) (f new : Nat) (mv : Int) (c : Chip) : Chip :=
  let old := (c.feed f).band
  if old = new then c
  else
    let c := bandEvent r f old new mv (c.modFeed f fun x => { x with band := new, dwell := new == 1 })
    let c := if old = 3 then crossFeedLost r f c else c
    match feedYard f with
    | some y => if new = 1 then enterLockout r y c else if old = 1 then leaveLockout r y c else c
    | none => c

/-- A feed's voltage crosses into another band (02 R31, R32): lock-out and the off band are left only by their dwell. -/
def feedBand (r : Regs) (f : Nat) (mv : Int) (c : Chip) : Chip :=
  if !feedMeasured c f then c
  else
    let c := c.modFeed f fun x => { x with mv := mv }
    let c := enterBand r f (if (c.feed f).dwell then 1 else bandOf (feedCls24 r f) f mv) mv c
    let c := if f = 2 then lowInputs r c else c
    if f = 4 then netSupply r (accSupply r c) else c

/-- FEED_BAND_CHANGE (02 R31): feed 0 VBAT_A, 1 B, 2 D, 3 VBAT48, 4 AON at `mv` mV. -/
def execFeedBandChange (f : Fin 5) (mv : Nat) (s : State) : Answer := .next (afterTests (s.onChip fun r c => feedBand r f.val mv c))

/-- The level in mV above which a feed must stay to leave lock-out or the off band (02 R32, Table 2.3). -/
def leaveMv (f : Nat) : Int := if f = 3 then 26000 else 3500

/-- DWELL of a SHED_HYS word in ms: a value above 100 acts as 100 (02 Table 2.12). -/
def hysDwell (w : Nat) : Nat := 10 * min 100 (bits w 22 16)

/-- The dwell of a feed in ms: that of its SHED_HYS_x in its halter, for VBAT_AON WNA's copy of that of SHED_HYS_D (02 R32). -/
def feedDwell (r : Regs) (c : Chip) (f : Nat) : Nat := if f = 4 then 10 * min 100 c.sys.dwellD else hysDwell (r.h (Reg.SHED_HYS f))

/-- A feed has been above the level that ends lock-out or the off band for `ms`, no shorter than its dwell (02 R32, R33): it takes the band
of its voltage, and the outputs queue for their restores. -/
def dwellEnd (r : Regs) (f : Nat) (mv : Int) (ms : Nat) (c : Chip) : Chip :=
  if feedMeasured c f && (c.feed f).dwell && decide (leaveMv f < mv) && decide (feedDwell r c f ≤ ms) then
    let c := enterBand r f (bandOf (feedCls24 r f) f mv) mv (c.modFeed f fun x => { x with mv := mv })
    if f = 2 then lowInputs r c else c
  else c

/-- LOCKOUT_DWELL_END (02 R32). -/
def execLockoutDwellEnd (f : Fin 5) (v : FeedHeld) (s : State) : Answer := .next (s.onChip fun r c => dwellEnd r f.val v.mv v.ms c)

-- Power-on and loss -------------------------------------------------------------------------------------------------------------------------

/-- The voltage that a yard's feed must pass for its halter to come out of power-on, in mV (03 Table 3.4, step 1). -/
def releaseMv (y : Nat) : Nat := if y = 2 then 14000 else 3500

/-- A halter comes out of power-on (03 R67 step 1; 02 R32): cleared, CTL absent, at once in the band of its feed's voltage, with no dwell. YC
powered on between 14 V and 24 V is in its off band, which it leaves as its voltage rises (log entry 52). -/
def halterPowerOn (y mv : Nat) (s : State) : State :=
  if !yardPresent s.chip y || (s.chip.yard y).supplied || mv < releaseMv y then s
  else
    let f := yardFeed y
    (clearHalter y s).onChip fun _ c =>
      (c.modYard y fun d => { d with supplied := true, lockout := bandOf false f mv == 1 }).modFeed f fun x => { x with
        mv := mv, band := bandOf false f mv, dwell := false }

/-- HALTER_POWER_ON (02 R32). -/
def execHalterPowerOn (y : Fin 4) (mv : Nat) (s : State) : Answer := .next (halterPowerOn y.val mv s)

/-- The level in mV below which a feed is lost (02 Tables 2.2, 2.3). -/
def lossMv (y : Nat) : Nat := if y = 2 then 12000 else 2500

/-- A yard's feed is lost at `mv` mV (02 R31, R33): its halter loses everything it held. The change of band is reported unless CTL is absent
(02 R58); the voltage reported is that of the measurement that finds the loss. -/
def feedLoss (y mv : Nat) (s : State) : State :=
  if !(s.chip.yard y).supplied || lossMv y ≤ mv then s
  else
    let f := yardFeed y
    let s := s.onChip fun r c =>
      let d := c.yard y
      let p := pay ([1, f, (c.feed f).band % 16 * 16] ++ mv10 mv)
      let c := if d.ctlAbsent || d.unreach || !d.adopted then c else raise r (224 + f) Cls.state p c
      crossFeedLost r f (c.modFeed f fun x => { x with band := 0, mv := mv, dwell := false })
    (clearHalter y s).onChip fun _ c => c.modYard y fun d => { d with supplied := false }

/-- FEED_LOSS (02 R31). -/
def execFeedLoss (f : YardFeed) (s : State) : Answer := .next (feedLoss f.y.val f.mv s)

/-- AON_POWER_ON (03 R67 step 2, R59; 02 R32): VBAT_AON at `mv` mV; MTIME starts at 0, RST_CAUSE reads AON_POR; the crystals start. -/
def aonPowerOn (mv : Nat) (c : Chip) : Chip :=
  if c.sys.aon || mv < 3500 then c
  else
    let c := accPowerOn c
    { c with
      sys := { c.sys with aon := true, causes := 1, count := 0, xtal40 := true, wnaRc := false, ctl := if c.sys.prereg then .held else .off }
      mt := { src := .wna }
      feeds := c.feeds.put 4 { c.feed 4 with mv := mv, band := bandOf false 4 mv, dwell := false } }

/-- AON_POWER_ON (03 R67). -/
def execAonPowerOn (mv : Nat) (s : State) : Answer := .next (s.onChip fun _ c => aonPowerOn mv c)

/-- PREREG_START (03 R67 step 3): CTL can be released, from OFF or for a wake. -/
def execPreregStart (s : State) : Answer :=
  .next (s.onChip fun _ c =>
    let go := c.sys.aon && c.sys.ctl == .off && (c.sys.power == .off || !c.sys.wakeRec.isEmpty)
    { c with sys := { c.sys with prereg := true, ctl := if go then .held else c.sys.ctl } })

-- Pre-regulator -----------------------------------------------------------------------------------------------------------------------------

/-- The pre-regulator enters boost mode with its input below 6.5 V, or leaves it above 7.0 V (02 R35, R58). -/
def boostMode (r : Regs) (on : Bool) (mv : Nat) (c : Chip) : Chip :=
  if !c.sys.prereg || c.sys.boost == on || !(if on then decide (mv < 6500) else decide (7000 < mv)) then c
  else raise r 229 Cls.info (pay ([if on then 0x10 else 0x11, 0xFE, 0] ++ mv10 mv)) { c with sys := { c.sys with boost := on } }

/-- BOOST_ENTER (02 R35). -/
def execBoostEnter (mv : Nat) (s : State) : Answer := .next (s.onChip fun r c => boostMode r true mv c)

/-- BOOST_EXIT (02 R35). -/
def execBoostExit (mv : Nat) (s : State) : Answer := .next (s.onChip fun r c => boostMode r false mv c)

-- Shedding ----------------------------------------------------------------------------------------------------------------------------------

/-- A class is marked shed or not. -/
def setShed (k : Nat) (b : Bool) (d : Yard) : Yard :=
  if k = 1 then { d with shed1 := b } else if k = 2 then { d with shed2 := b } else if k = 3 then { d with shed3 := b } else d

/-- A crossing of a shed or restore threshold (02 R53, R58), which wakes the module with SHED_WAKE (02 R44). -/
def shedEvent (r : Regs) (y cause cls k : Nat) (mv : Nat) (c : Chip) : Chip :=
  let p := pay ([cause, yardFeed y, k] ++ mv10 mv)
  let c := feedEvent y 231 cls p c
  if c.parked && bit (supplyCfg r y) 1 then wakeNow r 231 p c else c

/-- The effective thresholds THR1' to THR3' of a SHED_THR word in mV above a floor (02 R48). -/
def shedThr (floor w k : Nat) : Nat :=
  let t3 := max floor (100 * bits w 29 20)
  let t2 := max floor (min (100 * bits w 19 10) t3)
  if k = 3 then t3 else if k = 2 then t2 else max floor (min (100 * bits w 9 0) t2)

/-- The threshold below which class k is shed on a feed, as its halter holds it (02 R48, R52). -/
def shedBelow (r : Regs) (f k : Nat) : Nat := shedThr (if f = 3 then 24000 else 3000) (r.h (Reg.SHED_THR f)) k

/-- The level at which class k is restored on a feed (02 R51). -/
def restoreAt (r : Regs) (f k : Nat) : Nat := shedBelow r f k + 100 * bits (r.h (Reg.SHED_HYS f)) 7 0

/-- Class k is shed on the feed of yard y, which has stayed below THRk' for 100 µs and is now at `mv` mV (02 R50). -/
def shedYard (r : Regs) (y k mv : Nat) (c : Chip) : Chip :=
  if !(c.yard y).supplied || k = 0 || classShed (c.yard y) k || !decide (mv < shedBelow r (yardFeed y) k) then c
  else
    let outs := (shedUnits r c y).filter fun src => shedClass r src == k
    let c := c.modYard y fun d => setShed k true { d with restoreQ := d.restoreQ.filter fun src => !outs.contains src }
    let c := if y = 3 then dropDeferred r St.shed (fun n => outs.contains (64 + n)) c else c
    shedEvent r y 0x30 Cls.limit k mv (outs.foldl (shedOutput r St.shed) c)

/-- SHED (02 R50): class `k` on the feed of a yard at `mv` mV. -/
def execShed (y : Fin 4) (k : Fin 4) (mv : Nat) (s : State) : Answer := .next (releaseHeld (s.onChip fun r c => shedYard r y.val k.val mv c))

/-- Class k is restored on the feed of yard y, which has stayed at or above THRk' + HYS for `ms`, no shorter than its DWELL: the outputs queue
for their restore slots (02 R51). -/
def restoreYard (r : Regs) (y k mv ms : Nat) (c : Chip) : Chip :=
  if !(c.yard y).supplied || !classShed (c.yard y) k || !decide (restoreAt r (yardFeed y) k ≤ mv) ||
      !decide (feedDwell r c (yardFeed y) ≤ ms) then c
  else
    let c := c.modYard y fun d => setShed k false d
    let c := if (c.yard y).lockout then c else queueRestores r y (fun j => j == k) c
    shedEvent r y 0x31 Cls.state k mv c

/-- RESTORE (02 R51). -/
def execRestore (y : Fin 4) (k : Fin 4) (v : FeedHeld) (s : State) : Answer :=
  .next (s.onChip fun r c => restoreYard r y.val k.val v.mv v.ms c)

/-- A restore slot of a yard (02 R51): the first output in order that still waits for its restore turns on. -/
def restoreSlot (r : Regs) (y : Nat) (c : Chip) : Chip :=
  let d := c.yard y
  if !d.supplied || d.lockout then c
  else match d.restoreQ.dropWhile fun src => !wantsRestore c src with
    | [] => c.setYard y { d with restoreQ := [] }
    | src :: rest => restoreOutput r src (c.setYard y { d with restoreQ := rest })

/-- RESTORE_SLOT (02 R51). -/
def execRestoreSlot (y : Fin 4) (s : State) : Answer := .next (s.onChip fun r c => restoreSlot r y.val c)

-- Budget manager ----------------------------------------------------------------------------------------------------------------------------

/-- One 1 ms value against its limit, both in thousandths of the limit's unit (02 R56): the next count of values above it, whether OVER_LIMIT
stands, and the cause to raise, 0 for none. -/
def overStep (value limit k : Nat) (raised : Bool) : Nat × Bool × Nat :=
  let n := if limit < value then min 10 (k + 1) else 0
  if n = 10 ∧ !raised then (n, true, 0x20)
  else if raised ∧ 100 * value < 95 * limit then (n, false, 0x21)
  else (n, raised, 0)

/-- An event of source 230 (02 R58): feed or 0xFF, the value in tenths, the limit. -/
def limitEvent (r : Regs) (cause feed value limit : Nat) (c : Chip) : Chip :=
  if cause = 0 then c
  else raise r 230 (if cause = 0x20 then Cls.limit else Cls.state) (pay ([cause, feed, 0] ++ two (value / 100) ++ [limit % 256])) c

/-- I_feed of one feed in mA (02 R54, R56). -/
def feedBlock (r : Regs) (f ma : Nat) (c : Chip) : Chip :=
  let x := c.feed f
  let o := overStep ma (feedLimit r f * 1000) x.overN x.overRaised
  limitEvent r o.2.2 f ma (feedLimit r f) (c.setFeed f { x with iMa := ma, overN := o.1, overRaised := o.2.1 })

/-- P_module in mW (02 R54, R56). -/
def dissBlock (r : Regs) (mw : Nat) (c : Chip) : Chip :=
  let b := c.budget
  let o := overStep mw (dissLimit r * 1000) b.overN b.overRaised
  limitEvent r o.2.2 0xFF mw (dissLimit r) { c with budget := { b with pMw := mw, overN := o.1, overRaised := o.2.1 } }

/-- The units whose sensed load current its feed supplies (02 R54): all but the sinks, which their boost stages supply. -/
def feedLoad (src : Nat) : Bool := decide (src < 92) || decide (104 ≤ src)

/-- I_feed of a feed over a millisecond in mA (02 R54): the mean currents of its units, the pre-regulator's branch, and 20 mA for each yard in
use. -/
def feedMa (c : Chip) (loads : List Load) (inA inB f : Nat) : Nat :=
  ((loads.filter fun x => feedLoad x.src.val && srcFeed x.src.val == f).map fun x => x.ma).sum +
    (if f = 0 then inA else if f = 1 then inB else 0) + 20 * ((List.range 4).filter fun y => yardFeed y == f && yardPresent c y).length

/-- A switch of the die by event source (02 R54): stalls, valve channels, MB6 to MB9, the matrix lines and the signal outputs. -/
def dieSwitch (src : Nat) : Bool := decide (src < 80) || (decide (86 ≤ src) && decide (src < 90)) || decide (src = 104) || decide (113 ≤ src)

/-- I²R in µW for a mean square current in mA² through the switch of an event source at its present temperature (02 R54, R55). -/
def lossUw (c : Chip) (src ma2 : Nat) : Nat := ma2 * rdsNow c src (Config.junction src c.now) / 10000

/-- The dissipation of one sensed unit in µW (02 R54): the loss of a switch, and current × headroom of a sink. -/
def unitUw (c : Chip) (x : Load) : Nat :=
  if dieSwitch x.src.val then lossUw c x.src.val x.ma2
  else if 92 ≤ x.src.val ∧ x.src.val < 104 then x.ma * (c.sink (x.src.val - 92)).head.toNat
  else 0

/-- The string power of a boost stage in µW (02 R54): its sinks' currents by the voltage over their strings. -/
def stringUw (c : Chip) (loads : List Load) (b : Nat) : Nat :=
  ((loads.filter fun x => decide (92 ≤ x.src.val) && decide (x.src.val < 104) && stageOf (x.src.val - 92) == b).map fun x =>
    x.ma * ((c.boost b).vout - (c.sink (x.src.val - 92)).head).toNat).sum

/-- P_module over a millisecond in mW (02 R54). -/
def moduleMw (c : Chip) (loads : List Load) (hs : List (Fin 4 × Nat)) (preMw : Nat) : Nat :=
  ((loads.map (unitUw c)).sum + (hs.map fun g => lossUw c (256 + g.1.val) g.2).sum +
    (((List.range 2).filter fun b => (c.boost b).running).map fun b => 8 * stringUw c loads b / 100).sum) / 1000 +
    c.budget.clampUj + 400 * ((List.range 6).filter fun k => outputOn c (80 + k)).length + preMw + 300 +
    250 * ((List.range 4).filter fun y => yardPresent c y).length

/-- The mean currents of the valve channels sensed are the latest that CTL knows of their coils (07 R180; log entry 56). -/
def coilLoads (loads : List Load) (c : Chip) : Chip :=
  loads.foldl (fun c x => if 64 ≤ x.src.val ∧ x.src.val < 80 then coilSeen (x.src.val - 64) x.ma c else c) c

/-- BUDGET_BLOCK (02 R54, R56): the sense samples of the millisecond just ended give I_feed of VBAT_A, B, D and, on a module whose YC is in
use, VBAT48 (00 R2), and P_module; suspended in debug halt (03 Table 3.10). -/
def execBudgetBlock (inA inB preMw : Nat) (loads : List Load) (hs : List (Fin 4 × Nat)) (s : State) : Answer :=
  .next (s.onChip fun r c =>
    if !c.fwRuns || c.sys.halted then c
    else
      let c := coilLoads loads c
      let fed := ([0, 1, 2, 3].filter fun f => !(f == 3 && c.ycOff)).foldl (fun c f => feedBlock r f (feedMa c loads inA inB f) c) c
      dissBlock r (moduleMw c loads hs preMw) { fed with budget := { fed.budget with clampUj := 0 } })

/-- RESERVATION_LAPSE (02 R54): the oldest reservation is 50 ms old. -/
def execReservationLapse (s : State) : Answer :=
  .next (s.onChip fun _ c => if c.sys.halted then c else { c with budget := { c.budget with resv := c.budget.resv.drop 1 } })

end Sys2Proof.Machine
end

