-- ==== Sys2Proof/Machine/Start.lean ====
section
/-!
DEFINITION. Sys2Proof/Machine/Start.lean: the start-up of CTL (03 R67): its release, firmware's set-up of registers from the settings store
(14 R319, R335), the adoption of the yards (03 R68 to R71), and STANDBY; and the end of a self-test (15 R349).
-/

namespace Sys2Proof.Machine

-- Release -----------------------------------------------------------------------------------------------------------------------------------

/-- The registers of a timer channel that WNA keeps over a wake (11 R266). -/
def timerKept (c : Chip) (off : Nat) : Bool := decide (0x30000 ≤ off) && decide (off < 0x30400) && (c.timer ((off - 0x30000) / 0x20)).lf

/-- CTL is released (03 R67 step 4): its registers at their reset values, a fresh unlock nonce (14 R323). -/
def ctlRelease (s : State) : State :=
  let c := s.chip
  if !(c.sys.ctl == .held) || !c.sys.aon || !c.sys.prereg || c.sys.thermHold then s
  else
    let x := c.fresh 128
    { s with
      regs := { s.regs with ctl := s.regs.ctl.filter fun e => timerKept c e.1 }
      chip := { x.2 with
        sys := { c.sys with ctl := .bist, nonce := x.1 }
        upd := { c.upd with reverted := false, revReason := 0, setReset := false, noteB := !c.sys.fromWake } } }

/-- CTL_RELEASE (03 R67). -/
def execCtlRelease (s : State) : Answer := .next (ctlRelease s)

-- Firmware ----------------------------------------------------------------------------------------------------------------------------------

/-- Firmware writes one word of the settings store (03 R67 step 7; 14 R319): into CTL's register, WNA's copy of the network range, a loop's
coefficients or a timer channel. Ring pages are not set up from it, and a channel that WNA keeps over a wake keeps its registers (11 R266). -/
def loadWord (s : State) (e : Nat × Nat) : State :=
  let off := e.1
  match regRow off with
  | none => s
  | some w =>
    if off < 0x8000 || regAbsent s.chip off || timerKept s.chip off then s
    else
      let v := mergeWord (w.rw ||| w.rwl ||| w.rws) (s.regs.c off) e.2
      match coefWord off with
      | some (n, j) => s.onChip fun _ c => c.modLoop n (applyPairCoef j v)
      | none =>
        let s := s.wrCtl off v
        let s := if inWna off then { s with regs := { s.regs with halt := s.regs.halt.wr off v } } else s
        if 0x30000 ≤ off ∧ off < 0x30400 then
          let n := (off - 0x30000) / 0x20
          s.onChip fun r c => if off = Reg.TMR_RELOAD n then writeReload n v c else if off = Reg.TMR_CMP n then writeCmp r n v c else c
        else s

/-- What the settings store holds beside register values takes effect (12 R276, R278; 08 R200; 05 R137); WNA gets its copies of the supply
words (02 R32, R52). -/
def loadTables (x : Settings) (s : State) : State :=
  let s := { s with regs := { s.regs with halt := s.regs.halt.wr (haltKey 4 Reg.SUPPLY_CFG) (s.regs.c Reg.SUPPLY_CFG) } }
  s.onChip fun r c =>
    let c := { c with
      sys := { c.sys with dwellD := bits (r.c (Reg.SHED_HYS 2)) 22 16 }
      net := { c.net with routes := x.routes, scheds := x.scheds, mac := x.macs.map fun m => { m with age := c.now } }, curves := x.curves }
    x.tabs.foldl (fun c e => c.modLoop e.1 fun l => { l with tabRef := e.2.1, tabV := e.2.2.1, tabLearn := e.2.2.2, tabValid := true }) c

/-- The event of source 239 that a cause pending from the loader asks for (14 R331, R335, R338): 2 SWAP_DONE, 4 REVERTED, 6 SETTINGS_RESET. -/
def loaderEvent (r : Regs) (build : Nat) (c : Chip) (cause : Nat) : Chip :=
  if cause = 2 then updEvent r 2 Cls.state build c.upd.jr.boots c
  else if cause = 4 then updEvent r 4 Cls.fault build c.upd.revReason c
  else updEvent r 6 Cls.warning build 0 c

/-- The events of a start (02 R44, R58, 04 R391; 03 R66 point 4, R75; 14 R331): the wake record that WNA keeps, VBAT_AON's band, clock
failures, THERMAL_RESTART, those of the loader. -/
def startEvents (r : Regs) (build : Nat) (c : Chip) : Chip :=
  let c := aonReport r (c.sys.wakeEv.foldl (fun c ev => postAll r ev c) c)
  let c := clockEvents r c
  let c := if c.sys.thermEv then thermalEvent r 3 Cls.fault { c with sys := { c.sys with thermEv := false } } else c
  let due := c.upd.pendEv
  due.foldl (loaderEvent r build) { c with upd := { c.upd with pendEv := [] } }

/-- Firmware starts (03 R67 step 7): the settings store sets the registers up, the boot lock is set, then events can be raised. -/
def firmwareStart (s : State) : State :=
  if !(s.chip.sys.ctl == .firmware) then s
  else
    let x := (settingsOf s.chip.upd s.chip.upd.setFmt).getD {}
    let s := loadTables x (x.words.foldl loadWord s)
    let s := s.onChip fun _ c => { c with sys := { c.sys with ctl := .start, lock := true } }
    s.onChip fun r c => startEvents r (buildId s.mram.exec) c

/-- FIRMWARE_START (03 R67). -/
def execFirmwareStart (s : State) : Answer := .next (firmwareStart s)

-- Adoption: readback ------------------------------------------------------------------------------------------------------------------------

/-- The chip with the run-time configuration as the settings store and CTL's last writes have it (03 R69; 05 R137; 09 R217): user curves,
and the calibrations of LS5 and LS11. -/
def wanted (c : Chip) : Chip :=
  let x := (settingsOf c.upd c.upd.setFmt).getD {}
  let cal (n : Nat) (k : Sink) : Sink :=
    match x.vfCal.find? fun e => e.1 == n with
    | some e => { k with vf0 := e.2.1, rs := e.2.2.1, tCal := e.2.2.2, valid := true }
    | none => { k with vf0 := 0, rs := 0, tCal := 0, valid := false }
  (({ c with halt := { c.halt with curves := c.curves } }).modSink 5 (cal 5)).modSink 11 (cal 11)

/-- The outputs of a yard whose signature in the halter is not the one CTL expects (03 R68 step 3, R69). -/
def differing (r : Regs) (c : Chip) (y : Nat) : List Nat :=
  let w := wanted c
  (yardOutputs r c y).filter fun src => !(heldSig c src == signature (canonWords r.c r w src))

/-- A stall's counters or flags differ from those CTL held (06 R158). -/
def summaryDue (now old : Stall) : Bool :=
  !(now.trips == old.trips && now.thermal == old.thermal && now.att == old.att && now.th == old.th && now.fb == old.fb &&
    now.latches == old.latches && now.openLoad == old.openLoad &&
    now.shortVbat == old.shortVbat && now.onLow == old.onLow && now.shortGnd == old.shortGnd)

/-- ADOPT_SUMMARY of a stall (06 R158). -/
def summary (r : Regs) (old : Halt) (c : Chip) (i : Nat) : Chip :=
  let x := c.stall i
  if summaryDue x (UMap.get {} old.stalls i) then raise r i (if x.latches = 0 then Cls.fault else Cls.latched) (stallPay r i 0x23 c) c else c

/-- An input whose CODE or CHANGES differs from CTL's copy is reported, with EVT_EN (10 R241, Table 10.9). -/
def inputReport (r : Regs) (old : Halt) (c : Chip) (n : Nat) : Chip :=
  let x := c.si n
  let o := (UMap.get {} old.sis n : Si)
  if (x.code = o.code ∧ x.changes = o.changes) ∨ !bit (r.h (Reg.SI_CFG n)) 15 then c
  else if codeFault (siType r n) x.code then raise r (125 + n) Cls.fault (siPay r n 2 x.code x) c
  else raise r (125 + n) Cls.state (siPay r n 1 x.code x) c

/-- An adoption cause that names outputs: its count and the lowest of them (01 R28). -/
def adoptEvent (r : Regs) (y cause cls : Nat) (outs : List Nat) (c : Chip) : Chip :=
  match outs with
  | [] => c
  | a :: _ => raise r (232 + y) cls (pay ([cause, (c.yard y).res] ++ two (outs.foldl min a) ++ [min 255 outs.length])) c

/-- The readback of a supplied yard (03 R68, R69): the mirror, the differences since CTL's last copy, the yard result and the outputs to
reapply. `corrupt` are the outputs whose readback does not reproduce their stored signature; where one is and another only differs the result
is CORRUPT, as the spec gives no precedence (log entry 53). -/
def readBack (r : Regs) (y : Nat) (corrupt : List Nat) (c : Chip) : Chip :=
  let d := c.yard y
  let old := c.copy
  let c := if y = 3 ∧ c.parked then endPolling r c else c
  let c := { c with copy := copyYard y c.halt c.copy }
  let bad := corrupt.filter fun src => (yardOutputs r c y).contains src
  let diff := differing r c y
  let redo := if d.cleared then yardOutputs r c y else (yardOutputs r c y).filter fun src => diff.contains src || bad.contains src
  let res := if d.cleared then 3 else if !bad.isEmpty then 4 else if !diff.isEmpty then 2 else 1
  let c := c.setYard y { d with adopting := true, readback := true, res := res, redo := redo }
  let c := bandReport r (yardFeed y) c
  if d.cleared then c
  else
    let c := (List.range 64).foldl (fun c i => if stallYard i = y then summary r old c i else c) c
    let c := if y = 3 then (List.range 48).foldl (inputReport r old) c else c
    adoptEvent r y 5 Cls.fault bad c

/-- Adoption of a yard (03 R68): at a start, and again under 01 R20 and 03 R71, R72. A halter without supply cannot be read: the yard is
unreachable. -/
def adoption (r : Regs) (y : Nat) (corrupt : List Nat) (c : Chip) : Chip :=
  let d := c.yard y
  if !c.fwRuns || !yardPresent c y || d.unreach || d.readback || !(d.adopting || (c.sys.ctl == .start && !d.adopted)) then c
  else if !d.supplied then
    raise r (232 + y) Cls.fault 2 (c.setYard y { d with res := 5, unreach := true, adopting := false })
  else readBack r y corrupt c

/-- ADOPTION (03 R68). -/
def execAdoption (y : Fin 4) (corrupt : List (Fin 125)) (s : State) : Answer :=
  .next (s.onChip fun r c => adoption r y.val (corrupt.map fun x => x.val) c)

-- Adoption: reapplication -------------------------------------------------------------------------------------------------------------------

/-- The words that the halter of a yard holds beside its outputs' configuration: supply, shedding, inputs (02 R52; 10 R251). -/
def yardWords (y : Nat) : List Nat :=
  regRows.flatMap fun w =>
    ((List.range w.count).filter fun i => (resYards w i).contains y).filterMap fun i =>
      let off := w.base + w.stride * i
      if (affected off).isEmpty then some off else none

/-- The word that an output which is on takes at once (03 R70): a stall keeps its phase, its load profile slot and a limit that its new one,
as it acts (05 R112), would put below the present current; a loop and a boost stage keep such a limit. -/
def onWord (c : Chip) (src off old new : Nat) : Nat :=
  if off = Reg.STALL_CFG src ∧ src < 64 then
    let w := setBits new 13 10 (bits old 13 10)
    if 100 * ilimAs (stallKind src) (bits new 9 0) < (c.stall src).iMa.natAbs then setBits w 9 0 (bits old 9 0) else w
  else if off = Reg.STALL_PWM_CFG src ∧ src < 64 then old
  else if 80 ≤ src ∧ off = Reg.LOOP_LIM (src - 80) ∧ loopIlim new (src - 80) < (c.loop (src - 80)).iMa.natAbs then setBits new 9 0 (bits old 9 0)
  else if 90 ≤ src ∧ off = Reg.BOOST_CFG (src - 90) ∧ boostIlim new < (c.boost (src - 90)).iin then setBits new 20 16 (bits old 20 16)
  else new

/-- One word of an output that is on is written (03 R70): of a loop the policy, the shed class and the limit act at once. -/
def onGive (y src : Nat) (s : State) (off : Nat) : State :=
  let v := onWord s.chip src off (s.regs.h off) (s.regs.c off)
  let h := s.regs.halt.wr (haltKey y off) v
  let h := if 80 ≤ src ∧ src < 90 ∧ (off = Reg.LOOP_POLICY (src - 80) ∨ off = Reg.LOOP_LIM (src - 80)) then h.wr (liveKey off) v else h
  { s with regs := { s.regs with halt := h } }

/-- The world of an output that is on stays as its halter holds it, in CTL too, until the output is off (03 R70, 14 R319). -/
def keepWorld (src : Nat) (s : State) : State :=
  let blk := srcBlock src
  let u := srcUnit src
  let held := heldSecure s.regs blk u
  let s := { s with regs := { s.regs with ctl := s.regs.ctl.wr (ownKey blk u) 0 } }
  if ownerSecure s.regs blk u == held then s
  else { s with regs := { s.regs with ctl := s.regs.ctl.wr (ownKey blk u) (if held then 2 else 1) } }

/-- An output that is on receives what it may receive at once (03 R70). -/
def giveOn (y src : Nat) (s : State) : State :=
  let s := keepWorld src ((outputOffs src).foldl (onGive y src) s)
  s.onChip fun r c => resign r src c

/-- A change of an output is left until it is off (03 R70). -/
def leftOpen (s : State) (src : Nat) : Bool :=
  ((outputOffs src).any fun off => !(s.regs.h off == s.regs.c off)) || !(s.regs.c (ownKey (srcBlock src) (srcUnit src)) == 0)

/-- An output is reapplied (03 R70). -/
def reapply (y : Nat) (s : State) (src : Nat) : State :=
  if outputOn s.chip src then (outputUnits s.regs s.chip src).foldl (fun s u => giveOn y u s) s else giveOutput y src s

/-- The run-time configuration that goes with the outputs reapplied is written (05 R137, 09 R217): the user curves they use, calibrations. -/
def giveRuntime (y : Nat) (s : State) : State :=
  s.onChip fun r c =>
    let d := c.yard y
    let w := wanted c
    let uses (k : Nat) : Bool := d.cleared || d.redo.any fun src => src < 64 && bits (r.c (Reg.STALL_CFG src)) 13 10 == 7 + k
    let c := [0, 1].foldl (fun c k =>
      if uses k then { c with halt := { c.halt with curves := c.halt.curves.put (2 * y + k) (UMap.get flatCurve w.halt.curves (2 * y + k)) } } else c) c
    [5, 11].foldl (fun c n => if d.redo.contains (92 + n) then c.modSink n fun k =>
      { k with vf0 := (w.sink n).vf0, rs := (w.sink n).rs, tCal := (w.sink n).tCal, valid := (w.sink n).valid } else c) c

/-- The outputs reapplied of which a change is deferred (03 R70). -/
def deferredOuts (r : Regs) (y : Nat) (c : Chip) : List Nat :=
  let d := c.yard y
  d.redo.filter fun src => d.defer.contains src || (src < 64 && rowPending r c (stallRow src)) ||
    (113 ≤ src && pairPending r c ((src - 113) / 2))

/-- An adoption ends (03 R68 step 4, R70): ADOPT_DEFERRED, ADOPTED; loops are IDLE; the caps of the stalls return to the halter (15 R342); the
SAFE_DELAY counts of a host loss that still stands start (01 R22). -/
def adopted (r : Regs) (y : Nat) (c : Chip) : Chip :=
  let late := deferredOuts r y c
  let c := adoptEvent r y 6 Cls.warning late c
  let d := c.yard y
  let c := raise r (232 + y) Cls.state (pay [4, d.res, 0, 0, min 255 d.redo.length]) c
  let c := if y = 3 then (List.range 10).foldl (fun c n => if (c.loop n).running then idleLoop r n c else c) c else c
  let c := c.modYard y fun d => { d with
    adopting := false, readback := false, adopted := true, cleared := false, redo := [], frames := [], nextExec := d.nextSeq }
  let c := (List.range 64).foldl (fun c i => if stallYard i = y then sendCaps r i c else c) c
  (yardOutputs r c y).foldl (fun c src => if (c.ring (b2n (srcSecure r src))).hostLost then startSafe r c src else c) c

/-- Reapplication (03 R69, R70). -/
def adoptionEnd (y : Nat) (s : State) : State :=
  let d := s.chip.yard y
  if !s.chip.fwRuns || !d.adopting || !d.readback || !d.supplied then s
  else
    let old := s
    let s := (yardWords y).foldl (fun s off => giveWord y off s) (giveRuntime y s)
    let s := d.redo.foldl (reapply y) s
    let open_ := d.redo.filter fun src => outputOn s.chip src && leftOpen s src
    s.onChip fun r c =>
      let c := worldsChanged old.regs r y old.chip c
      adopted r y (applyDeferred r y (c.modYard y fun d => { d with defer := (d.defer.filter fun src => !d.redo.contains src) ++ open_ }))

/-- ADOPTION_END (03 R70). -/
def execAdoptionEnd (y : Fin 4) (s : State) : Answer := .next (releaseHeld (adoptionEnd y.val s))

-- STANDBY -----------------------------------------------------------------------------------------------------------------------------------

/-- Every present yard has been adopted, or declared unreachable (03 R67 step 8). -/
def yardsReady (c : Chip) : Bool := (List.range 4).all fun y => !yardPresent c y || (c.yard y).adopted || (c.yard y).unreach

/-- The heartbeat supervision of a function starts (03 R67 step 10; 04 R102). -/
def superviseRing (r : Regs) (pf : Nat) (c : Chip) : Chip :=
  c.modRing pf fun g => { g with supervised := true, lastHb := c.now, tmo := hostTmo r pf, enSinceWake := false, hbSinceWake := false }

/-- STANDBY is reached (03 R67 steps 9 and 10; 11 R266; 12 R286). -/
def standbyReached (r : Regs) (c : Chip) : Chip :=
  if !(c.sys.ctl == .start) || !yardsReady c then c
  else
    let woke := c.parked
    let c := takeTime c
    let c := (List.range 4).foldl (fun c y => if yardCommandable c y then c.emit (.guy y .keepAlive 0) else c) (c.emit (.guy 4 .keepAlive 0))
    let c := { c with sys := { c.sys with
      ctl := .up, power := .standby, wokeUp := woke, otherWake := c.sys.otherWake && woke, armed := false, fromWake := false, ready := !c.sys.perst } }
    nmRestart r (superviseRing r 1 (superviseRing r 0 c))

/-- STANDBY_REACHED (03 R67). -/
def execStandbyReached (s : State) : Answer := .next (s.onChip standbyReached)

-- Self-test ---------------------------------------------------------------------------------------------------------------------------------

/-- SELFTEST_DONE (15 R349): test `k` ends with a verdict (0 PASS, 1 FAIL, 2 INVALID) and a value; commands that waited for it execute, and a
sleep commit that waited goes on. -/
def execSelftestDone (k : Nat) (verdict : Fin 3) (value : Fin 65536) (s : State) : Answer :=
  .next (sleepStep2 (releaseHeld (s.onChip fun r c => testDone r k verdict.val value.val c)))

end Sys2Proof.Machine
end

