-- ==== Sys2Proof/Machine/Debug.lean ====
section
/-!
DEFINITION. Sys2Proof/Machine/Debug.lean: debug halt and its release (03 R76, R77), and the unlock of secure debug (14 R323).
-/

namespace Sys2Proof.Machine

-- Halt --------------------------------------------------------------------------------------------------------------------------------------

/-- A refused debug request (14 R322, Table 14.3). Which function its byte 1 names is not stated: a free value. -/
def debugRefused (r : Regs) (c : Chip) : Chip :=
  let x := c.fresh 8
  violation r 6 x.1 0 x.2

/-- A running LAMP_ENUM, and one that waits for the line, ends ABORTED_DISABLED at a debug halt (09 Table 9.13). -/
def haltEnum (r : Regs) (c : Chip) (p : Nat) : Chip :=
  let q := c.port p
  let ids := q.enumJob.toList ++ q.enumQ.filterMap fun x => x.1
  let c := c.setPort p { q with enumJob := none, enumAt := none, enumTab := [], enumQ := [] }
  completeAll r ((c.jobs.filter fun j => ids.contains j.id).map fun j => j.id) St.aborted c

/-- The MAX_AWAKE count of a segment stops (12 R286). -/
def haltSeg (c : Chip) (n : Nat) : Chip := c.modSeg n fun x => { x with awakeAcc := awakeNs c x, awakeAt := none }

/-- The cores halt (03 R77, Table 3.10; 11 R265; 13 R307): loops brake, enumerations and a running poll end, MTIME and the timers run from
CLK_LF, access seconds and deadlines are frozen. -/
def haltCores (r : Regs) (c : Chip) : Chip :=
  let c := { c with sys := { c.sys with halted := true } }
  let c := (List.range 10).foldl (fun c n => if (c.loop n).working then disableLoop r n c else c) c
  let c := (List.range 8).foldl (haltEnum r) c
  let c := (List.range 18).foldl haltSeg c
  let c := stopPoll r St.aborted c
  { c with
    mt := { c.mt with src := .lf, frac := 0 }
    timers := c.timers.map fun e => (e.1, if e.2.running && !e.2.lf then toLf e.2 else e.2)
    acc := { c.acc with frozenAt := some c.now } }

/-- DEBUG_HALT (03 R76): of the non-secure cores with NS_EN = 1, of the secure world's once secure debug is unlocked; any other request is
refused. -/
def execDebugHalt (secure : Bool) (s : State) : Answer :=
  .next (s.onChip fun r c =>
    if !c.fwRuns || c.sys.halted then c
    else if (if secure then c.sys.unlocked else bit (r.c Reg.DEBUG_CFG) 0) then haltCores r c
    else debugRefused r c)

-- Release -----------------------------------------------------------------------------------------------------------------------------------

/-- What the halt froze runs on (03 Table 3.10; 11 R265; 12 R286; 13 R307): MTIME unless a sleep commit has handed it to WNA. -/
def thaw (r : Regs) (c : Chip) : Chip :=
  let dt := c.now - c.acc.frozenAt.getD c.now
  let c := { c with
    sys := { c.sys with halted := false }
    acc := { c.acc with frozen := c.acc.frozen + dt, frozenAt := none }
    age := { c.age with tests := c.age.tests.map fun t => { t with deadline := t.deadline + dt } } }
  let c := if c.sys.sleepTo.isSome then c else takeTime c
  let c := (List.range 18).foldl (fun c n =>
    if (c.seg n).st == .validating || (c.seg n).st == .ready then c.modSeg n fun x => { x with awakeAt := some c.now } else c) c
  if bit (r.c Reg.DEBUG_CFG) 1 then
    [0, 1].foldl (fun c pf => c.modRing pf fun g => { g with lastHb := g.lastHb + dt }) c
  else c

/-- The cores are released (03 R77): what waited executes: AT_TIME descriptors whose time has passed, ENROL and REVOKE, frames that wait on
their port. -/
def debugRelease (s : State) : State :=
  if !s.chip.sys.halted then s
  else
    let s := s.onChip thaw
    let s := s.chip.jobs.foldl (fun s _ => runDue s) s
    let s := s.onChip fun r c => accNext r (c.acc.queue.length + 1) c
    releaseHeld (s.onChip fun r c => (List.range 8).foldl (fun c p => portPump r p (latchMark p c)) c)

/-- DEBUG_RELEASE (03 R77). -/
def execDebugRelease (s : State) : Answer := .next (debugRelease s)

-- Secure debug ------------------------------------------------------------------------------------------------------------------------------

/-- The digest that a debugger signs: SHA-256 of the nonce and the device UID, the most significant byte of each first (14 R323; log entry
16). -/
def unlockDigest (c : Chip) : Nat := sha256 (beBytes 16 c.sys.nonce ++ beBytes 8 c.sys.uid)

/-- The key slot with the DEBUG permission, not revoked, against which a signature verifies (14 R323). -/
def unlockSlot (c : Chip) (sigR sigS : Nat) : Option Nat :=
  (List.range 4).find? fun k =>
    let x := keyAt c.upd k
    x.prog && !x.revoked && x.debug && ecdsaVerify (keyHash c.upd k) (unlockDigest c) sigR sigS

/-- An attempt to unlock secure debug (14 R323, Table 14.3): a nonce serves one attempt; a bad signature refuses further ones. -/
def unlockAttempt (r : Regs) (sigR sigS : Nat) (c : Chip) : Chip :=
  let next (c : Chip) : Chip :=
    let x := c.fresh 128
    { x.2 with sys := { x.2.sys with nonce := x.1 } }
  if c.sys.refuse then debugRefused r c
  else match unlockSlot c sigR sigS with
    | some k =>
      let x := c.fresh 8
      next (violation r 7 x.1 k { x.2 with sys := { c.sys with unlocked := true } })
    | none => next (debugRefused r { c with sys := { c.sys with refuse := true, refuseT := c.now } })

/-- SECURE_DEBUG_UNLOCK (14 R323): a signature (R, S). -/
def execSecureDebugUnlock (sigR sigS : Nat) (s : State) : Answer :=
  .next (s.onChip fun r c => if c.ctlRuns then unlockAttempt r sigR sigS c else c)

/-- UNLOCK_REFUSAL_END (14 R323): 10 s after a bad signature. -/
def execUnlockRefusalEnd (s : State) : Answer :=
  .next (s.onChip fun _ c =>
    if c.sys.refuseT + 10000000000 ≤ c.now then { c with sys := { c.sys with refuse := false } } else c)

end Sys2Proof.Machine
end

