-- ==== Sys2Proof/Machine/Read.lean ====
section
/-!
DEFINITION. Sys2Proof/Machine/Read.lean: what a read of a word of BAR0 returns (16 R354, R356): identification and system words, ring
status, world status, the status words of the units, CTL's copy of yard-resident status, and the configuration last written. Reads have
no side effects (04 R81), so no command of the table is a read.
-/

namespace Sys2Proof.Machine

/-- SYS_STATE.STATE (16 Table 16.2): coded as POWER_STATE word 2. -/
def stateCode (c : Chip) : Nat :=
  if c.sys.ctl = .up then
    match c.sys.power with
    | .run => 0
    | .standby | .off => 1
    | .park => 2
    | .watch => 3
  else 1

/-- A word of the SYS/ID block (16 Table 16.2; 03 Tables 3.2, 3.6). -/
def sysWord (c : Chip) (off : Nat) : Nat :=
  if off = Reg.SYS_ID then 0x94800000 + Config.vendorId % 65536
  else if off = Reg.SYS_REV then (if c.sys.y3 then 0x01101111 else 0x01111111)
  else if off = Reg.SYS_VARIANT then (if c.sys.y3 then 0x10B else 0xF)
  else if off = Reg.SYS_UID_LO then c.sys.uid % 2 ^ 32
  else if off = Reg.SYS_UID_HI then c.sys.uid / 2 ^ 32 % 2 ^ 32
  else if off = Reg.SYS_STATE then stateCode c + flagBits [(4, c.sys.xtal40), (5, c.sys.xtal32), (6, c.sys.ctl == .recovery)]
  else if off = Reg.RST_CAUSE then c.sys.causes % 2 ^ 9 + c.sys.count % 256 * 2 ^ 16
  else if off = Reg.ADOPT_STATUS then
    ((List.range 4).map fun y => (c.yard y).res % 8 * 16 ^ y + b2n (c.yard y).conflict * 2 ^ (16 + y)).sum
  else 0

/-- Descriptors of an SQ are in progress. -/
def sqJobs (c : Chip) (pf n : Nat) : Bool := c.jobs.any fun j => !j.drop && j.h.pf.val == pf && j.h.sq.val == n

/-- RING_STATUS (04 Table 4.4). -/
def ringStatus (r : Regs) (c : Chip) (pf : Nat) : Nat :=
  flagBits [(0, bit (r.c (Reg.RING_CTRL pf)) 0 && !(c.ring pf).hostLost && !c.sys.halted), (1, (c.ring pf).hostLost)] +
    min 255 (atPending c pf) * 2 ^ 16

/-- SQn_STATUS (04 Table 4.7). -/
def sqStatus (r : Regs) (c : Chip) (pf n : Nat) : Nat :=
  let q := (c.ring pf).sqAt n
  flagBits [(0, bit (r.c (Reg.SQ_CFG pf n)) 0 || sqJobs c pf n), (1, q.cfgErr), (2, q.dbErr), (3, q.fenceWait && sqJobs c pf n)] +
    q.head % 4096 * 2 ^ 16

/-- CQm_STATUS (04 Table 4.9). -/
def cqStatus (r : Regs) (c : Chip) (pf n : Nat) : Nat :=
  let q := (c.ring pf).cqAt n
  flagBits [(0, bit (r.c (Reg.CQ_CFG pf n)) 0), (1, q.cfgErr), (2, q.dbErr), (28, q.phase)] + q.tail % 4096 * 2 ^ 16

/-- EQ_STATUS (04 Table 4.10). -/
def eqStatus (r : Regs) (c : Chip) (pf : Nat) : Nat :=
  let q := (c.ring pf).eq
  flagBits [(0, bit (r.c (Reg.EQ_CFG pf)) 0), (1, q.cfgErr), (2, q.dbErr), (3, q.collapsing), (28, q.phase)] + q.tail % 4096 * 2 ^ 16

/-- A word of a function's own ring page that is no configuration (04 Table 4.2). -/
def ringPageStatus (r : Regs) (c : Chip) (pf o : Nat) : Option Nat :=
  if o = 0x004 then some (ringStatus r c pf)
  else if o = 0x01C then some (eqStatus r c pf)
  else if 0x100 ≤ o ∧ o < 0x200 ∧ o % 0x10 = 0xC then some (sqStatus r c pf ((o - 0x100) / 0x10))
  else if 0x200 ≤ o ∧ o < 0x280 ∧ o % 0x10 = 0xC then some (cqStatus r c pf ((o - 0x200) / 0x10))
  else if o = 0xA00 then some ((c.ring pf).pba % 2 ^ 32)
  else if o = 0xA04 then some ((c.ring pf).pba / 2 ^ 32 % 2 ^ 32)
  else none

/-- A word of a function's own doorbell page: the last value accepted (04 R85). -/
def bellWord (c : Chip) (pf o : Nat) : Nat :=
  let g := c.ring pf
  if o < 0x040 then (g.sqAt (o / 4)).tail
  else if o < 0x060 then (g.cqAt ((o - 0x040) / 4)).head
  else if o = 0x060 then g.eq.head
  else 0

/-- Entries of the world assignment table that are ignored (14 R318). -/
def badEntries (r : Regs) (lo n : Nat) : List Nat := (List.range n).filter fun e => wtBad (r.c (Reg.WT (lo + e)))

/-- A status word of the WORLD block (14 Table 14.5). -/
def worldStatus (r : Regs) (c : Chip) (off : Nat) : Nat :=
  if off = Reg.WORLD_STATUS then
    b2n c.sys.lock + min 255 (badEntries r 0 64).length * 2 ^ 8 + c.sys.violations % 65536 * 2 ^ 16
  else ((badEntries r (if off = Reg.WT_BAD_LO then 0 else 32) 32).map fun e => 2 ^ e).sum

/-- A status word of a stall (06 Tables 6.16 to 6.18; 03 R69): a gang's members read as its leader (06 R161), each with its own signature. -/
def stallWord (r : Regs) (c : Chip) (i o : Nat) : Nat :=
  let s := c.stall (leader r c i)
  if o = 0x1C then (c.stall i).sig
  else if o = 0x4C then stallStatus r c (leader r c i)
  else if o = 0x50 then stallCount s
  else if o = 0x54 then pauseLeft c s % 2048
  else if o = 0x58 then s.cross % 2 ^ 32
  else s.cross / 2 ^ 32 % 2 ^ 32

/-- The status, count and signature words that lie in a halter, in the copy of the halters given with `c` (16 R356). -/
def yardWord (r : Regs) (c : Chip) (off : Nat) : Option Nat :=
  if off < 0x14000 then some (stallWord r c ((off - 0x10000) / 0x100) (off % 0x100))
  else if off < 0x18400 then
    let n := (off - 0x18000) / 0x20
    if off % 0x20 = 0x8 then some (doStatus (c.dout (doLeader c n))) else if off % 0x20 = 0xC then some (c.dout n).sig else none
  else if off < 0x18800 then
    let n := (off - 0x18400) / 0x10
    if off % 0x10 = 0x4 then some (siStatus r n (c.si n)) else if off % 0x10 = 0x8 then some ((c.si n).changes % 2 ^ 32) else none
  else if off < 0x18900 then
    if off % 0x10 = 0x4 then some (UMap.get 0 c.halt.encs ((off - 0x18800) / 0x10) % 2 ^ 32) else none
  else if off < 0x1C000 then
    if off % 0x10 = 0x8 then some (ainWord (c.ain ((off - 0x18900) / 0x10))) else none
  else if off < 0x1C400 then
    let n := (off - 0x1C000) / 0x40
    if off % 0x40 = 0x18 then some (valveStatus r c n) else if off % 0x40 = 0x1C then some (c.valve n).sig else none
  else if off < 0x20000 then
    if off % 0x10 = 0x4 then some (vgStatus c ((off - 0x1C400) / 0x10)) else none
  else if off < 0x28000 then
    if off % 0x100 = 0x6C then some (c.loop ((off - 0x20000) / 0x100)).sig else none
  else if off < 0x28400 then
    let n := (off - 0x28000) / 0x40
    let o := off % 0x40
    if (o = 0x10 ∨ o = 0x14) ∧ (n = 5 ∨ n = 11) then some (if o = 0x10 then vfCalWord (c.sink n) else vfCalTWord (c.sink n))
    else if o = 0x18 then some (sinkStatus r c n) else if o = 0x1C then some (c.sink n).sig else none
  else if off < 0x28500 then
    let n := (off - 0x28400) / 0x40
    if off % 0x40 = 0x4 then some (boostStatus (c.boost n)) else if off % 0x40 = 0xC then some (c.boost n).sig else none
  else if off < 0x28600 then
    if off % 0x10 = 0x4 then some (ntcStatus (c.ntc ((off - 0x28500) / 0x10))) else none
  else if off = Reg.MX_STATUS then some (mxStatus c.halt.mx)
  else if off = Reg.MX_COLOPEN then some (c.halt.mx.colOpen % 2 ^ 24)
  else if off = Reg.MX_SIG then some c.halt.mx.sig
  else none

/-- A status word of a unit of CTL or WNA: loops, ports, timers, module time, networks. -/
def ctlWord (r : Regs) (c : Chip) (off : Nat) : Option Nat :=
  if 0x20000 ≤ off ∧ off < 0x20A00 then
    let l := c.loop ((off - 0x20000) / 0x100)
    let o := off % 0x100
    if o = 0x60 then some (loopStatus r c ((off - 0x20000) / 0x100)) else if o = 0x64 then some (ofSigned 32 l.pos) else if o = 0x68 then some (loopMissed l)
    else if 0x80 ≤ o ∧ o < 0xA0 then some (ofSigned 32 (coefOf l ((o - 0x80) / 4))) else none
  else if 0x28800 ≤ off ∧ off < 0x28A00 then
    let q := c.port ((off - 0x28800) / 0x40)
    let o := off % 0x40
    if o = 0xC then some (portStatus q) else if o = 0x10 then some (portErr q) else if o = 0x14 then some (q.brkAt % 1024) else none
  else if 0x30000 ≤ off ∧ off < 0x30400 then
    let t := c.timer ((off - 0x30000) / 0x20)
    if off % 0x20 = 0x10 then some (t.count % 2 ^ 32) else if off % 0x20 = 0x14 then some (timerStatus t) else none
  else if off = Reg.MTIME_LO then some (c.mt.val % 2 ^ 32)
  else if off = Reg.MTIME_HI then some (c.mt.val / 2 ^ 32 % 2 ^ 32)
  else if off = Reg.TIME_STATUS then some (timeStatus c.mt)
  else if 0x38000 ≤ off ∧ off < 0x38400 then
    let n := (off - 0x38000) / 0x80
    if off % 0x80 = 0xC then some (canStatus r c n) else if off % 0x80 = 0x10 then some (canCount (c.seg n)) else none
  else if 0x39000 ≤ off ∧ off < 0x39180 then
    let n := (off - 0x39000) / 0x40
    if off % 0x40 = 0x4 then some (linStatus (c.lin n)) else if off % 0x40 = 0x8 then some (linCount (c.lin n)) else none
  else if 0x39200 ≤ off ∧ off < 0x39280 then
    let n := (off - 0x39200) / 0x40
    if off % 0x40 = 0x4 then some (t1sStatus (c.t1s n)) else none
  else if 0x39400 ≤ off ∧ off < 0x39480 then
    if off % 0x40 = 0x4 then some (bbStatus (c.bb ((off - 0x39400) / 0x40))) else none
  else if off = Reg.SW_COUNT then some (swCount c.net)
  else if 0x3B000 ≤ off ∧ off < 0x3B400 then
    let n := (off - 0x3B000) / 0x20
    if off % 0x20 = 0x10 then some (nmStatusWord c n) else if off % 0x20 = 0x14 then some (nmCount (c.seg n)) else none
  else if off = Reg.NM_WAKE then some (nmWake c.net)
  else none

/-- A status word of the ACCESS, UPDATE, AGE or DEBUG block (16 Table 16.7; 14 Table 14.5; 15 Table 15.8; 03 Table 3.9). -/
def secWord (r : Regs) (c : Chip) (m : Mram) (off : Nat) : Option Nat :=
  if 0x40000 ≤ off ∧ off < 0x40080 then (if off % 0x10 = 0x8 then some (accStatus c ((off - 0x40000) / 0x10)) else none)
  else if off = Reg.TACK_STATUS then some (tackStatus c)
  else if off = Reg.UPD_STATUS then some (updStatus c)
  else if off = Reg.UPD_EXEC then some (updExec m)
  else if off = Reg.UPD_STAGE then some (updStage m)
  else if off = Reg.UPD_SVN then some (updSvn c.upd)
  else if off = Reg.UPD_KEYSTAT then some (updKeystat c.upd)
  else if off = Reg.ADAPT_STATUS then some (adaptStatus c.age)
  else if off = Reg.ST_STATUS then some (stStatus c)
  else if off = Reg.AGE_STATUS then some (ageStatus c.age)
  else if off = Reg.DEBUG_CFG then some (r.c off % 4 + flagBits [(8, c.sys.unlocked), (9, c.sys.halted)])
  else none

/-- A word that a register occupies, outside the ring and doorbell pages: its status, or the fields last written with write-only bits at 0
(00 R7, 16 R356). -/
def fieldRead (s : State) (w : RegRow) (off : Nat) : Nat :=
  let c := s.chip
  let kept := s.regs.c off &&& (w.rw ||| w.rwl ||| w.rws)
  if off < 0x1000 then sysWord c off
  else if off = Reg.WORLD_STATUS ∨ off = Reg.WT_BAD_LO ∨ off = Reg.WT_BAD_HI then worldStatus s.regs c off
  else if 0x40000 ≤ off then (secWord s.regs c s.mram off).getD kept
  else if w.rw ||| w.rwl ||| w.rws = 0 ∨ off = Reg.DEBUG_CFG ∨ (0x20000 ≤ off ∧ off < 0x20A00 ∧ 0x80 ≤ off % 0x100) then
    match ctlWord s.regs c off with
    | some v => v
    | none => (yardWord s.regs { c with halt := c.copy } off).getD 0
  else kept

/-- A field of a function's configuration space that 04 Table 4.1 fixes or R390 names. -/
inductive CfgField where
  | vendorId | deviceId | classCode | multiFunction
  /-- BAR0: its size in bytes, 64-bit, prefetchable; its address. -/
  | barSize | bar64 | barPrefetch | barAddr
  /-- Interrupts: MSI-X table size, MSI capability, INTx pin. -/
  | msixVectors | msiCap | intPin
  /-- The link: generation, lanes, L0s and L1 support, L1 substates. -/
  | maxSpeed | maxWidth | aspmL0s | aspmL1 | l1Substates | srisCap
  /-- The greatest payload and read request in bytes. -/
  | maxPayload | maxReadReq
  /-- Absent or present capabilities. -/
  | flrCap | aerCap | sriovCap | atsCap | pasidCap | relaxedOrdering | noSnoop
  /-- What the host has written: Command bits, D-state, MSI-X control, sizes in bytes, ASPM and AER. -/
  | memEnable | busMaster | dState | msixEnable | functionMask | payload | readReq | aspmCtl | l1SubCtl | aerUncMask
  deriving DecidableEq, Repr

/-- What a configuration read returns of a function (04 Table 4.1, R78, R390). -/
def configRead (g : Ring) : CfgField → Nat
  | .vendorId => Config.vendorId % 65536
  | .deviceId => 0x9480
  | .classCode => 0x088000
  | .multiFunction | .bar64 | .aspmL1 | .aerCap => 1
  | .barSize => 0x100000
  | .barAddr => g.cs.bar0.val * 0x100000
  | .msixVectors => 32
  | .maxSpeed => 3
  | .maxWidth => 2
  | .l1Substates => 3
  | .maxPayload => 256
  | .maxReadReq => 512
  | .barPrefetch | .msiCap | .intPin | .aspmL0s | .srisCap | .flrCap | .sriovCap | .atsCap | .pasidCap | .relaxedOrdering | .noSnoop => 0
  | .memEnable => b2n g.cs.mem
  | .busMaster => b2n g.bme
  | .dState => if g.d3 then 3 else 0
  | .msixEnable => b2n g.msixEn
  | .functionMask => b2n g.fmask
  | .payload => 128 * 2 ^ g.cs.mps.val
  | .readReq => 128 * 2 ^ g.cs.mrrs.val
  | .aspmCtl => if g.cs.aspmL1 then 2 else 0
  | .l1SubCtl => g.cs.l1sub.val
  | .aerUncMask => g.cs.aerMask.val

/-- What a read of a word of BAR0 through function `via` returns where the endpoint can be reached: 0 for a word that no register occupies
(16 R354), of the other function's ring and doorbell pages (04 R80), of the ACCESS and UPDATE pages through PF0 (13 R294, 14 R339) and of an
absent yard YC (00 R2), and for every word while CTL stays in the boot ROM (03 R65). The byte enables of a read are ignored (00 R9). -/
def readWord (via off : Nat) (s : State) : Nat :=
  let off := off - off % 4
  if s.chip.sys.ctl = .rom then 0
  else match regRow off with
  | none => 0
  | some w =>
    match w.owner with
    | .page pf =>
      if pf = via then
        if 0x4000 ≤ off then bellWord s.chip pf (off % 0x1000)
        else (ringPageStatus s.regs s.chip pf (off % 0x1000)).getD (s.regs.c off)
      else 0
    | _ =>
      if via = 0 ∧ 0x40000 ≤ off ∧ off < 0x50000 then 0
      else if regAbsent s.chip off then 0
      else fieldRead s w off

end Sys2Proof.Machine
end

