-- ==== Sys2Proof/Machine/Dispatch.lean ====
section
/-!
DEFINITION. Sys2Proof/Machine/Dispatch.lean: the one match from commands to their meanings.
-/

namespace Sys2Proof.Machine

/-- The effect of a command on everything but the queue. -/
def exec (i : Instr) (s : State) : Host.Outcome State Fault Refusal :=
  match i with
  | .nop h => Sys2Proof.Machine.execNop h s
  | .fence h => Sys2Proof.Machine.execFence h s
  | .heartbeat h => Sys2Proof.Machine.execHeartbeat h s
  | .timeRead h => Sys2Proof.Machine.execTimeRead h s
  | .powerState h target => Sys2Proof.Machine.execPowerState h target s
  | .sqTail via pf n v => Sys2Proof.Machine.execSqTail via pf n v s
  | .cqHead via pf n v => Sys2Proof.Machine.execCqHead via pf n v s
  | .eqHead via pf v => Sys2Proof.Machine.execEqHead via pf v s
  | .heartbeatDoorbell via pf v => Sys2Proof.Machine.execHeartbeatDoorbell via pf v s
  | .ringEnable via pf v => Sys2Proof.Machine.execRingEnable via pf v s
  | .queueEnable via pf kind n v => Sys2Proof.Machine.execQueueEnable via pf kind n v s
  | .queueDisable via pf kind n v => Sys2Proof.Machine.execQueueDisable via pf kind n v s
  | .descriptorFetch heads => Sys2Proof.Machine.execDescriptorFetch heads s
  | .cqCoalExpiry pf n => Sys2Proof.Machine.execCqCoalExpiry pf n s
  | .hostLoss pf => Sys2Proof.Machine.execHostLoss pf s
  | .registerWrite via off v be => Sys2Proof.Machine.execRegisterWrite via off v be s
  | .ctlResetCmd pf => Sys2Proof.Machine.execCtlResetCmd pf s
  | .yardReset via yards => Sys2Proof.Machine.execYardReset via yards s
  | .keyProgram pf slot key debug => Sys2Proof.Machine.execKeyProgram pf slot key debug s
  | .keyRevoke pf slot key => Sys2Proof.Machine.execKeyRevoke pf slot key s
  | .aonPowerOn mv => Sys2Proof.Machine.execAonPowerOn mv s
  | .halterPowerOn y mv => Sys2Proof.Machine.execHalterPowerOn y mv s
  | .feedLoss f => Sys2Proof.Machine.execFeedLoss f s
  | .feedBandChange f mv => Sys2Proof.Machine.execFeedBandChange f mv s
  | .lockoutDwellEnd f v => Sys2Proof.Machine.execLockoutDwellEnd f v s
  | .shed y k mv => Sys2Proof.Machine.execShed y k mv s
  | .restore y k v => Sys2Proof.Machine.execRestore y k v s
  | .restoreSlot y => Sys2Proof.Machine.execRestoreSlot y s
  | .boostEnter mv => Sys2Proof.Machine.execBoostEnter mv s
  | .boostExit mv => Sys2Proof.Machine.execBoostExit mv s
  | .ctlTempMeasure t => Sys2Proof.Machine.execCtlTempMeasure t s
  | .wnaThermalCheck t => Sys2Proof.Machine.execWnaThermalCheck t s
  | .resetNotice y => Sys2Proof.Machine.execResetNotice y s
  | .bootLoader loader exec stage => Sys2Proof.Machine.execBootLoader loader exec stage s
  | .adoption y corrupt => Sys2Proof.Machine.execAdoption y corrupt s
  | .adoptionEnd y => Sys2Proof.Machine.execAdoptionEnd y s
  | .debugHalt secure => Sys2Proof.Machine.execDebugHalt secure s
  | .secureDebugUnlock sigR sigS => Sys2Proof.Machine.execSecureDebugUnlock sigR sigS s
  | .guylineCommandRx y seq => Sys2Proof.Machine.execGuylineCommandRx y seq s
  | .guylineAckRx y seq => Sys2Proof.Machine.execGuylineAckRx y seq s
  | .guylineRetransmit y seq => Sys2Proof.Machine.execGuylineRetransmit y seq s
  | .mirrorInterval y => Sys2Proof.Machine.execMirrorInterval y s
  | .statusMirrorRx y => Sys2Proof.Machine.execStatusMirrorRx y s
  | .keepAliveTx y => Sys2Proof.Machine.execKeepAliveTx y s
  | .keepAliveRx y => Sys2Proof.Machine.execKeepAliveRx y s
  | .halterWatchdog y => Sys2Proof.Machine.execHalterWatchdog y s
  | .unreachable y => Sys2Proof.Machine.execUnreachable y s
  | .parkCommit y => Sys2Proof.Machine.execParkCommit y s
  | .parkAbort y => Sys2Proof.Machine.execParkAbort y s
  | .safeDelayExpiry src => Sys2Proof.Machine.execSafeDelayExpiry src s
  | .wake src p => Sys2Proof.Machine.execWake src p s
  | .lateWake src p => Sys2Proof.Machine.execLateWake src p s
  | .budgetBlock inA inB preMw loads hs => Sys2Proof.Machine.execBudgetBlock inA inB preMw loads hs s
  | .stallSet h u on slewFirst => Sys2Proof.Machine.execStallSet h u on slewFirst s
  | .stallPwm h u duty => Sys2Proof.Machine.execStallPwm h u duty s
  | .stallProfileSelect h u slot => Sys2Proof.Machine.execStallProfileSelect h u slot s
  | .stallProfileLoadUser h u user addr pts => Sys2Proof.Machine.execStallProfileLoadUser h u user addr pts s
  | .stallClear h u diag cross => Sys2Proof.Machine.execStallClear h u diag cross s
  | .stallDiag h u offNow addr => Sys2Proof.Machine.execStallDiag h u offNow addr s
  | .stallCrosscheck h u mask addr => Sys2Proof.Machine.execStallCrosscheck h u mask addr s
  | .crossPulse hits tripped => Sys2Proof.Machine.execCrossPulse hits tripped s
  | .stallSenseSample u ma mv tj ref => Sys2Proof.Machine.execStallSenseSample u ma mv tj ref s
  | .tripOc u ma => Sys2Proof.Machine.execTripOc u ma s
  | .tripSc u ma mv => Sys2Proof.Machine.execTripSc u ma mv s
  | .tripThermal u => Sys2Proof.Machine.execTripThermal u s
  | .shortVbatOn u => Sys2Proof.Machine.execShortVbatOn u s
  | .rampTimeout u => Sys2Proof.Machine.execRampTimeout u s
  | .wireModelUpdate u i2 => Sys2Proof.Machine.execWireModelUpdate u i2 s
  | .rampEnd u => Sys2Proof.Machine.execRampEnd u s
  | .inrushEnd u => Sys2Proof.Machine.execInrushEnd u s
  | .turnOnComplete u ma => Sys2Proof.Machine.execTurnOnComplete u ma s
  | .turnOffComplete u clampUj => Sys2Proof.Machine.execTurnOffComplete u clampUj s
  | .restart u => Sys2Proof.Machine.execRestart u s
  | .cleanRun u => Sys2Proof.Machine.execCleanRun u s
  | .rowPeriodWrap w => Sys2Proof.Machine.execRowPeriodWrap w s
  | .pwmPulse u start => Sys2Proof.Machine.execPwmPulse u start s
  | .offstateDiag u up dn => Sys2Proof.Machine.execOffstateDiag u up dn s
  | .onLowCurrent u low => Sys2Proof.Machine.execOnLowCurrent u low s
  | .valveFire h u hold ipk ihold => Sys2Proof.Machine.execValveFire h u hold ipk ihold s
  | .valveRelease h u hold ipk ihold => Sys2Proof.Machine.execValveRelease h u hold ipk ihold s
  | .valveSeq h u trig addr steps => Sys2Proof.Machine.execValveSeq h u trig addr steps s
  | .valveSeqStep q k => Sys2Proof.Machine.execValveSeqStep q k s
  | .valveClear h u diag group => Sys2Proof.Machine.execValveClear h u diag group s
  | .peakDeferTimeout u => Sys2Proof.Machine.execPeakDeferTimeout u s
  | .peakReached u => Sys2Proof.Machine.execPeakReached u s
  | .peakEnd u => Sys2Proof.Machine.execPeakEnd u s
  | .peakTimeout u => Sys2Proof.Machine.execPeakTimeout u s
  | .holdReached u => Sys2Proof.Machine.execHoldReached u s
  | .holdEnd u => Sys2Proof.Machine.execHoldEnd u s
  | .valveEndDone u clampUj => Sys2Proof.Machine.execValveEndDone u clampUj s
  | .dutyCut u => Sys2Proof.Machine.execDutyCut u s
  | .dutyBinAdvance u => Sys2Proof.Machine.execDutyBinAdvance u s
  | .valveFault u kind => Sys2Proof.Machine.execValveFault u kind s
  | .groupFault g excess => Sys2Proof.Machine.execGroupFault g excess s
  | .valveOffstateDiag u mv => Sys2Proof.Machine.execValveOffstateDiag u mv s
  | .move h u mode endAct ref target vmax tol settle => Sys2Proof.Machine.execMove h u mode endAct ref target vmax tol settle s
  | .hold h u => Sys2Proof.Machine.execHold h u s
  | .holdResume h u => Sys2Proof.Machine.execHoldResume h u s
  | .stop h u mode => Sys2Proof.Machine.execStop h u mode s
  | .stopClear h u mode => Sys2Proof.Machine.execStopClear h u mode s
  | .coefWrite h u addr pairs => Sys2Proof.Machine.execCoefWrite h u addr pairs s
  | .learnRun h u addr => Sys2Proof.Machine.execLearnRun h u addr s
  | .learnLoad h u addr ref vlearn => Sys2Proof.Machine.execLearnLoad h u addr ref vlearn s
  | .learnRead h u addr => Sys2Proof.Machine.execLearnRead h u addr s
  | .loopCompute u ib vt vb ilim edge => Sys2Proof.Machine.execLoopCompute u ib vt vb ilim edge s
  | .dutyApply u => Sys2Proof.Machine.execDutyApply u s
  | .missedSample u dropped => Sys2Proof.Machine.execMissedSample u dropped s
  | .brakeEnd u => Sys2Proof.Machine.execBrakeEnd u s
  | .pinchReverse u => Sys2Proof.Machine.execPinchReverse u s
  | .bridgeTrip u kind => Sys2Proof.Machine.execBridgeTrip u kind s
  | .currentLimit u => Sys2Proof.Machine.execCurrentLimit u s
  | .endStop u up => Sys2Proof.Machine.execEndStop u up s
  | .ripple u => Sys2Proof.Machine.execRipple u s
  | .rippleFill u => Sys2Proof.Machine.execRippleFill u s
  | .windingUpdate u im emf => Sys2Proof.Machine.execWindingUpdate u im emf s
  | .sinkSet h u iSet dim clear => Sys2Proof.Machine.execSinkSet h u iSet dim clear s
  | .sinkCalibrate h u iSet dim clear => Sys2Proof.Machine.execSinkCalibrate h u iSet dim clear s
  | .lampFrame h u start addr data => Sys2Proof.Machine.execLampFrame h u start addr data s
  | .frameSent u => Sys2Proof.Machine.execFrameSent u s
  | .lampLatch h u ports => Sys2Proof.Machine.execLampLatch h u ports s
  | .latchStart u => Sys2Proof.Machine.execLatchStart u s
  | .statusFrameRx u words whole => Sys2Proof.Machine.execStatusFrameRx u words whole s
  | .statusFrameTimeout u began => Sys2Proof.Machine.execStatusFrameTimeout u began s
  | .matrixFrame h clear addr data => Sys2Proof.Machine.execMatrixFrame h clear addr data s
  | .lampEnumFull h u addr => Sys2Proof.Machine.execLampEnumFull h u addr s
  | .lampEnumRediscover h u addr => Sys2Proof.Machine.execLampEnumRediscover h u addr s
  | .lampEnumRead h u addr => Sys2Proof.Machine.execLampEnumRead h u addr s
  | .enumReply u reply => Sys2Proof.Machine.execEnumReply u reply s
  | .portRefresh u => Sys2Proof.Machine.execPortRefresh u s
  | .portFeedLost u => Sys2Proof.Machine.execPortFeedLost u s
  | .feedRestored u => Sys2Proof.Machine.execFeedRestored u s
  | .boostUpdate b vin vout iin inlim heads => Sys2Proof.Machine.execBoostUpdate b vin vout iin inlim heads s
  | .openString u => Sys2Proof.Machine.execOpenString u s
  | .boostOv b vout => Sys2Proof.Machine.execBoostOv b vout s
  | .boostShort b => Sys2Proof.Machine.execBoostShort b s
  | .sinkThermal u tj => Sys2Proof.Machine.execSinkThermal u tj s
  | .ledShort u => Sys2Proof.Machine.execLedShort u s
  | .ntcRead k ohm => Sys2Proof.Machine.execNtcRead k ohm s
  | .vfSample hi vf => Sys2Proof.Machine.execVfSample hi vf s
  | .matrixLineSlot held => Sys2Proof.Machine.execMatrixLineSlot held s
  | .siSample m => Sys2Proof.Machine.execSiSample m s
  | .wettingEnd n => Sys2Proof.Machine.execWettingEnd n s
  | .parkPoll m => Sys2Proof.Machine.execParkPoll m s
  | .ainConversion v => Sys2Proof.Machine.execAinConversion v s
  | .encEdge k rising => Sys2Proof.Machine.execEncEdge k rising s
  | .siSnapshot h u fresh addr => Sys2Proof.Machine.execSiSnapshot h u fresh addr s
  | .doSet h u on clear => Sys2Proof.Machine.execDoSet h u on clear s
  | .doTrip n => Sys2Proof.Machine.execDoTrip n s
  | .doThermal n tj => Sys2Proof.Machine.execDoThermal n tj s
  | .doRetry n tj => Sys2Proof.Machine.execDoRetry n tj s
  | .doCleanRun n => Sys2Proof.Machine.execDoCleanRun n s
  | .doOpenLoad n ma => Sys2Proof.Machine.execDoOpenLoad n ma s
  | .timerArmStart h u reload cmp init cfg => Sys2Proof.Machine.execTimerArmStart h u reload cmp init cfg s
  | .timerArmArm h u reload cmp init cfg => Sys2Proof.Machine.execTimerArmArm h u reload cmp init cfg s
  | .timerArmStop h u reload cmp init cfg => Sys2Proof.Machine.execTimerArmStop h u reload cmp init cfg s
  | .timerArmUpdate h u reload cmp init cfg => Sys2Proof.Machine.execTimerArmUpdate h u reload cmp init cfg s
  | .gstart h timers rows => Sys2Proof.Machine.execGstart h timers rows s
  | .timerZeroStep n => Sys2Proof.Machine.execTimerZeroStep n s
  | .timerMatch n => Sys2Proof.Machine.execTimerMatch n s
  | .gptpSync p d => Sys2Proof.Machine.execGptpSync p d s
  | .canFrameRx n f rec => Sys2Proof.Machine.execCanFrameRx n f rec s
  | .linSlot n heard resp good sof => Sys2Proof.Machine.execLinSlot n heard resp good sof s
  | .ethFrameRx u f => Sys2Proof.Machine.execEthFrameRx u f s
  | .busOff n => Sys2Proof.Machine.execBusOff n s
  | .busRecovered n => Sys2Proof.Machine.execBusRecovered n s
  | .canWake n kind frm => Sys2Proof.Machine.execCanWake n kind frm s
  | .linWake n => Sys2Proof.Machine.execLinWake n s
  | .t1sWake n => Sys2Proof.Machine.execT1sWake n s
  | .tc10Wake p => Sys2Proof.Machine.execTc10Wake p s
  | .tc10Reject p => Sys2Proof.Machine.execTc10Reject p s
  | .plcaLost n => Sys2Proof.Machine.execPlcaLost n s
  | .linkUp p sqi eq => Sys2Proof.Machine.execLinkUp p sqi eq s
  | .bbLinkDown p => Sys2Proof.Machine.execBbLinkDown p s
  | .addressAgeOut addr vlan => Sys2Proof.Machine.execAddressAgeOut addr vlan s
  | .qbvGateEntry p => Sys2Proof.Machine.execQbvGateEntry p s
  | .netTx h u wake tmo len addr frm => Sys2Proof.Machine.execNetTx h u wake tmo len addr frm s
  | .netTxDone u cause retries tec sof => Sys2Proof.Machine.execNetTxDone u cause retries tec sof s
  | .netRxPost h u len flush addr => Sys2Proof.Machine.execNetRxPost h u len flush addr s
  | .rxFlush u => Sys2Proof.Machine.execRxFlush u s
  | .holdQueueDiscard u => Sys2Proof.Machine.execHoldQueueDiscard u s
  | .nmRequest h u => Sys2Proof.Machine.execNmRequest h u s
  | .nmRelease h u => Sys2Proof.Machine.execNmRelease h u s
  | .nmIsolate h u cycle => Sys2Proof.Machine.execNmIsolate h u cycle s
  | .nmUnisolate h u => Sys2Proof.Machine.execNmUnisolate h u s
  | .nmStatus h u => Sys2Proof.Machine.execNmStatus h u s
  | .segmentEnable via u => Sys2Proof.Machine.execSegmentEnable via u s
  | .segmentDisable via u => Sys2Proof.Machine.execSegmentDisable via u s
  | .wakeValidateEnd u => Sys2Proof.Machine.execWakeValidateEnd u s
  | .readySleepEnd u => Sys2Proof.Machine.execReadySleepEnd u s
  | .maxAwake u => Sys2Proof.Machine.execMaxAwake u s
  | .cycleOffEnd u => Sys2Proof.Machine.execCycleOffEnd u s
  | .isoHoldEnd u => Sys2Proof.Machine.execIsoHoldEnd u s
  | .accessPoll h u tmo => Sys2Proof.Machine.execAccessPoll h u tmo s
  | .lfRound bad => Sys2Proof.Machine.execLfRound bad s
  | .tokenReply eof crc tid cnt slot round mac => Sys2Proof.Machine.execTokenReply eof crc tid cnt slot round mac s
  | .tpcUplink crc tid cnt mac coupling => Sys2Proof.Machine.execTpcUplink crc tid cnt mac coupling s
  | .rangingExchange slot a ra rb da db sts => Sys2Proof.Machine.execRangingExchange slot a ra rb da db sts s
  | .anchorLost slot a => Sys2Proof.Machine.execAnchorLost slot a s
  | .pollEnd rke => Sys2Proof.Machine.execPollEnd rke s
  | .lockoutEnd f => Sys2Proof.Machine.execLockoutEnd f s
  | .grantEnd f => Sys2Proof.Machine.execGrantEnd f s
  | .failureWindowAge f => Sys2Proof.Machine.execFailureWindowAge f s
  | .rkeFrame crc tid cnt cmd mac => Sys2Proof.Machine.execRkeFrame crc tid cnt cmd mac s
  | .lfSearch bad => Sys2Proof.Machine.execLfSearch bad s
  | .enrolAdd h addr buf => Sys2Proof.Machine.execEnrolAdd h addr buf s
  | .enrolProvision h addr buf => Sys2Proof.Machine.execEnrolProvision h addr buf s
  | .revoke h slots => Sys2Proof.Machine.execRevoke h slots s
  | .imgWrite h offset len addr data => Sys2Proof.Machine.execImgWrite h offset len addr data s
  | .imgCommit h mode previous => Sys2Proof.Machine.execImgCommit h mode previous s
  | .imgConfirm h => Sys2Proof.Machine.execImgConfirm h s
  | .selftest h blk unit test deadline => Sys2Proof.Machine.execSelftest h blk unit test deadline s
  | .selftestRun k => Sys2Proof.Machine.execSelftestRun k s
  | .selftestDone k verdict value => Sys2Proof.Machine.execSelftestDone k verdict value s
  | .deferredTimeout k => Sys2Proof.Machine.execDeferredTimeout k s
  | .ageReport h addr => Sys2Proof.Machine.execAgeReport h addr s
  | .marginCap h stall clear lim ceil tsd retry => Sys2Proof.Machine.execMarginCap h stall clear lim ceil tsd retry s
  | .rdsMeasurement u rds => Sys2Proof.Machine.execRdsMeasurement u rds s
  | .coreMargin m want => Sys2Proof.Machine.execCoreMargin m want s
  | .senseTrim src offset gain => Sys2Proof.Machine.execSenseTrim src offset gain s
  | .guylineEqualisation y step => Sys2Proof.Machine.execGuylineEqualisation y step s
  | .configSpaceWrite pf bme msix d3 cs => Sys2Proof.Machine.execConfigSpaceWrite pf bme msix d3 cs s
  | .frameLoadDone u => Sys2Proof.Machine.execFrameLoadDone u s
  | .vfCalibrationEnd hi vLo vHi => Sys2Proof.Machine.execVfCalibrationEnd hi vLo vHi s
  | .wakeSignalDone u => Sys2Proof.Machine.execWakeSignalDone u s
  | .plcaUp n => Sys2Proof.Machine.execPlcaUp n s
  | .gptpAnnounce p prio qual gm => Sys2Proof.Machine.execGptpAnnounce p prio qual gm s
  | .gptpPdelay p kind delay => Sys2Proof.Machine.execGptpPdelay p kind delay s
  | .gptpSignaling p logSync logPdelay => Sys2Proof.Machine.execGptpSignaling p logSync logPdelay s
  | .baseplateTempRead t => Sys2Proof.Machine.execBaseplateTempRead t s
  | .guylineRetraining y step => Sys2Proof.Machine.execGuylineRetraining y step s
  | .atTimeDue => Sys2Proof.Machine.execAtTimeDue s
  | .perstAssert => Sys2Proof.Machine.execPerstAssert s
  | .perstDeassert => Sys2Proof.Machine.execPerstDeassert s
  | .hotReset => Sys2Proof.Machine.execHotReset s
  | .linkDown => Sys2Proof.Machine.execLinkDown s
  | .aonLoss => Sys2Proof.Machine.execAonLoss s
  | .preregStart => Sys2Proof.Machine.execPreregStart s
  | .brownOut => Sys2Proof.Machine.execBrownOut s
  | .lockstepMismatch => Sys2Proof.Machine.execLockstepMismatch s
  | .firmwareWatchdog => Sys2Proof.Machine.execFirmwareWatchdog s
  | .memoryEccError => Sys2Proof.Machine.execMemoryEccError s
  | .xtal40Fail => Sys2Proof.Machine.execXtal40Fail s
  | .xtal32kFail => Sys2Proof.Machine.execXtal32kFail s
  | .debugReset => Sys2Proof.Machine.execDebugReset s
  | .ctlRelease => Sys2Proof.Machine.execCtlRelease s
  | .swapStep => Sys2Proof.Machine.execSwapStep s
  | .firmwareStart => Sys2Proof.Machine.execFirmwareStart s
  | .standbyReached => Sys2Proof.Machine.execStandbyReached s
  | .debugRelease => Sys2Proof.Machine.execDebugRelease s
  | .unlockRefusalEnd => Sys2Proof.Machine.execUnlockRefusalEnd s
  | .reservationLapse => Sys2Proof.Machine.execReservationLapse s
  | .ovCut => Sys2Proof.Machine.execOvCut s
  | .ovCutRelease => Sys2Proof.Machine.execOvCutRelease s
  | .dimPeriodStart => Sys2Proof.Machine.execDimPeriodStart s
  | .lineShort => Sys2Proof.Machine.execLineShort s
  | .gstartEdge => Sys2Proof.Machine.execGstartEdge s
  | .lfTick => Sys2Proof.Machine.execLfTick s
  | .timeLocked => Sys2Proof.Machine.execTimeLocked s
  | .timeHoldover => Sys2Proof.Machine.execTimeHoldover s
  | .tokenWake => Sys2Proof.Machine.execTokenWake s
  | .runSCommit => Sys2Proof.Machine.execRunSCommit s
  | .revertDue => Sys2Proof.Machine.execRevertDue s
  | .wearCommit => Sys2Proof.Machine.execWearCommit s
  | .pllLockLoss => Sys2Proof.Machine.execPllLockLoss s
  | .xtal40Return => Sys2Proof.Machine.execXtal40Return s
  | .xtal32kStable => Sys2Proof.Machine.execXtal32kStable s
  | .lfRcCalibration => Sys2Proof.Machine.execLfRcCalibration s
  | .pcieLinkUp => Sys2Proof.Machine.execPcieLinkUp s

end Sys2Proof.Machine
end

