-- ==== Sys2Proof/Machine/Step.lean ====
section
/-!
DEFINITION. Sys2Proof/Machine/Step.lean: one step: the command at the front of the queue, or 25 ns without a command (log entry 2).
-/

namespace Sys2Proof.Machine

/-- The state with its queue at `q`. -/
def State.setPending (s : State) (q : List Instr) : State := { s with pending := q }

/-- The front command's effect on the state with the queue's rest; on an empty queue 25 ns pass. -/
def step (s : State) : Host.Outcome State Fault Refusal :=
  match s.pending with
  | [] => .next (s.onChip idleTick)
  | i :: rest => exec i (s.setPending rest)

/-- The state with the command that a word spells at the front of its queue. -/
def State.withFetchWord (s : State) (nbits w : Nat) : State :=
  match decodeTableWord nbits w with
  | some i => s.setPending (i :: s.pending)
  | none => s

end Sys2Proof.Machine
end

