-- ==== Sys2Proof/Safety.lean ====
section
/-!
DEFINITION. Sys2Proof/Safety.lean: the terms in which statements about the block are made: what events and completions may touch, when a
descriptor passes the ring engine's checks, the entry it completes with, and the canonical form of the stores.
-/

namespace Sys2Proof.Safety

open Sys2Proof.Machine

/-- A function's ring state without what the posting of entries and records moves (04 R88, R93, R99). -/
def ringRest (g : Ring) : Ring :=
  { g with sqs := [], cqs := [], eq := {}, held := [], heldOver := false, heldOverT := 0, heldCnt := [], pba := 0 }

/-- A yard without what waits on its guyline: events, results, commands (01 R17, R19). -/
def yardRest (d : Yard) : Yard := { d with evq := [], results := [], frames := [], nextSeq := 0, nextExec := 0 }

/-- The chip without its yards and without what reporting moves: queues, descriptors in progress, what was sent, the counter of free
values. -/
def chipRest (c : Chip) : Chip :=
  { c with ring0 := ringRest c.ring0, ring1 := ringRest c.ring1, jobs := [], nextJob := 0, yards := [], out := [], free := 0 }

/-- Two chips agree on everything but events and completions on their way. -/
def SameChip (d c : Chip) : Prop := chipRest d = chipRest c ∧ ∀ y, y < 4 → yardRest (d.yard y) = yardRest (c.yard y)

/-- Two states agree on everything but events and completions on their way: the frame of a command. -/
def SameBut (t s : State) : Prop := t.pending = s.pending ∧ t.mram = s.mram ∧ t.regs = s.regs ∧ SameChip t.chip s.chip

/-- Of queue, MRAM, registers only one register has changed: it reads as `v` (16 R356). -/
def SetsReg (t s : State) (off v : Nat) : Prop :=
  t.pending = s.pending ∧ t.mram = s.mram ∧ t.regs.c off = v ∧ (∀ k, k ≠ off → t.regs.c k = s.regs.c k) ∧ ∀ k, t.regs.h k = s.regs.h k

/-- No command waits for the end of a self-test (15 R349). -/
abbrev NoneHeld (s : State) : Prop := ∀ j ∈ s.chip.jobs, j.held = false

/-- No cross-check runs, no SAFE action waits for the end of one, and no command for the end of a self-test (06 Table 6.20, 15 R349). -/
abbrev NoneWaits (s : State) : Prop := NoneHeld s ∧ s.chip.cross = [] ∧ ∀ i, i < 64 → (s.chip.safe i).due = false

/-- The state with its chip replaced. -/
def withChip (s : State) (c : Chip) : State := { s with chip := c }

/-- A descriptor is fetched and passes checks 1 to 4 of 04 Table 4.16: no FENCE holds it, and no self-test runs on its unit. -/
abbrev Passes (d : Desc) (h : Hdr) (s : State) : Prop :=
  s.chip.ctlRuns = true ∧ fenceHolds s.chip h = false ∧ recoveryRefuses s.chip h d.opc = false ∧
    firstFail (checks14 s.regs s.chip d h) = none ∧ unitTesting s.chip d.blk d.unit = false

/-- Such a descriptor has no AT_TIME, so that nothing keeps it from executing. -/
abbrev Admitted (d : Desc) (h : Hdr) (s : State) : Prop := Passes d h s ∧ h.at_ = none

/-- Entries can be written: memory requests are possible, and the descriptor asks for an entry on success (04 R97, R390). -/
abbrev Answers (h : Hdr) (s : State) : Prop := (s.chip.ring h.pf.val).dmaOk = true ∧ h.ncos = false

/-- A descriptor that a yard executes: it is admitted, its checks 5 to 8 pass, and no earlier command of the yard is on its way, so that it
executes in the state given (01 R17). -/
abbrev AdmittedYard (d : Desc) (h : Hdr) (y : Nat) (checks : List (Bool × Nat)) (s : State) : Prop :=
  Admitted d h s ∧ firstFail checks = none ∧ (s.chip.yard y).frames = []

/-- The completion entry of a descriptor fetched in `s`, at the tail of its CQ (04 R88, R97). -/
def entryOf (s : State) (h : Hdr) (status result : Nat) : Out :=
  let cq := sqCq s.regs h.pf.val h.sq.val
  let q := (s.chip.ring h.pf.val).cqAt cq
  .completion h.pf.val cq q.tail (entryWords h status s.chip.mt.val result q.phase)

/-- The result that a yard reports of the descriptor fetched in `s` (01 R19, 04 R97). -/
def resultOf (s : State) (status result : Nat) : YRes := { job := s.chip.nextJob, st := status, res := result, t := s.chip.mt.val }

/-- A record of source `src` can be written to the EQ of a function: it is enabled, posts the source, does not collapse, has a slot besides
the kept one, and memory requests are possible (04 R84, R99, R390). -/
abbrev EqReady (s : State) (pf src : Nat) : Prop :=
  let q := (s.chip.ring pf).eq
  let size := ringSize (s.regs.c (Reg.EQ_CFG pf))
  bit (s.regs.c (Reg.EQ_CFG pf)) 0 = true ∧ bit (s.regs.c (Reg.EVT_ROUTE pf src)) 8 = true ∧ q.collapsing = false ∧
    occupied size q.head q.tail < size - 2 ∧ (s.chip.ring pf).dmaOk = true

/-- An event of the present MTIME. -/
def evNow (s : State) (src cls pay : Nat) : Ev := { src := src, cls := cls, pay := pay, t := s.chip.mt.val }

/-- The record of an event at the tail of a function's EQ (04 R88, R99). -/
def recordOf (s : State) (pf : Nat) (ev : Ev) : Out :=
  let q := (s.chip.ring pf).eq
  .record pf q.tail (recordWords ev (recordWorld s.regs pf ev.src) q.phase q.seq)

/-- An event of the present MTIME is posted to every function to which its source is assigned (01 R26, 04 R99). -/
def Told (s t : State) (src cls pay : Nat) : Prop :=
  ∀ pf ∈ srcFns s.regs src, EqReady s pf src → recordOf s pf (evNow s src cls pay) ∈ t.chip.out

/-- A yard's halter can report: CTL is present to it, and not asleep (01 R22, 06 R158). -/
abbrev Reports (y : Nat) (s : State) : Prop := (s.chip.yard y).ctlAbsent = false ∧ s.chip.parked = false

/-- An event waits for the next status mirror of a yard (01 R19). -/
def Waits (t : State) (y src cls pay time : Nat) : Prop := ({ src := src, cls := cls, pay := pay, t := time } : Ev) ∈ (t.chip.yard y).evq

/-- One descriptor is in progress, for which an entry will be written (04 R97). -/
abbrev OnlyJob (s : State) (j : Job) : Prop :=
  s.chip.jobs = [j] ∧ j.drop = false ∧ j.h.ncos = false ∧ (s.chip.ring j.h.pf.val).dmaOk = true

/-- That descriptor has completed with its entry at the tail of its CQ, and none is left in progress (04 R88, R97). -/
def Done (s t : State) (j : Job) (status result time : Nat) : Prop :=
  t.chip.jobs = [] ∧ Out.completion j.h.pf.val j.cq ((s.chip.ring j.h.pf.val).cqAt j.cq).tail
    (entryWords j.h status time result ((s.chip.ring j.h.pf.val).cqAt j.cq).phase) ∈ t.chip.out

/-- Stall `u`, the leader of its gang, has tripped for `k` (06 R143, R147): its output is off, the attempt is counted, with TH where a thermal
condition of the gang holds too; below RETRY_N and TH_M it waits with a pause of 10 ms doubled for each attempt after the first, at most 1.28 s;
at one of them it is latched. A halter that can report reports the trip, and the latch. Of an awake module, whose output was on, nothing else
changes. -/
def Tripped (s t : State) (u : Nat) (k : TripKind) : Prop :=
  let x := s.chip.stall u
  let y := t.chip.stall u
  let hot := decide (k = .thermal) || tripHot s.regs s.chip u
  let att := min 15 (x.att + 1)
  let th := if hot then min 15 (x.th + 1) else x.th
  (y.out = false ∧ y.att = att ∧ y.th = th ∧ y.lastCause = (k.with hot).cause ∧ y.job = none ∧ y.jobsP = []) ∧
    (att < retryE x → th < thM x → (k = .wire → bit (s.regs.h (Reg.STALL_PROT u)) 10 = false) →
      y.st = .wait ∧ y.req = x.req ∧ y.pauseEnd = s.chip.now + 10000000 * 2 ^ min (att - 1) 7) ∧
    (retryE x ≤ att ∨ thM x ≤ th →
      y.st = .latched ∧ y.req = false ∧ (retryE x ≤ att → y.latchRetry = true) ∧ (thM x ≤ th → y.latchTh = true) ∧
        (Reports (stallYard u) s → Waits t (stallYard u) u Cls.latched (stallPay s.regs u 8 t.chip) s.chip.mt.val)) ∧
    (Reports (stallYard u) s → Waits t (stallYard u) u Cls.fault (stallPay s.regs u (k.with hot).cause t.chip) s.chip.mt.val) ∧
    (x.out = true → s.chip.parked = false → s.chip.sys.sleepTo = none → s.chip.sys.wnaAbsent = false →
      SameBut t (withChip s { s.chip.setStall u y with sys := { s.chip.sys with otherWake := t.chip.sys.otherWake } }))

/-- Of the valves only channel `u` and its group have changed: of the other channels no more than a low side, which follows the group's rail
(07 R164), and nothing but the valves. -/
def OnlyValve (s t : State) (u : Nat) : Prop :=
  (∀ n, n ≠ u → { t.chip.valve n with ls := (s.chip.valve n).ls, lsT := (s.chip.valve n).lsT } = s.chip.valve n) ∧
    (∀ g, g ≠ u / 4 → t.chip.vg g = s.chip.vg g) ∧
    SameBut t (withChip s { s.chip with halt := { s.chip.halt with valves := t.chip.halt.valves, vgs := t.chip.halt.vgs } })

/-- A channel as it was but for its low side. -/
def lowOf (y x : Valve) : Valve := { x with ls := y.ls, lsT := y.lsT }

/-- A port with the registers of a frame or an enumeration that starts now in force (09 R233). -/
def inForce (r : Regs) (n : Nat) (q : Port) : Port :=
  { q with cfg := r.c (Reg.PORT_CFG n), slowN := r.c (Reg.PORT_SLOW n), feed := r.c (Reg.PORT_FEED n) }

/-- The line of port `n` is free for an enumeration, and nothing waits for it (09 R225, R227). -/
abbrev LineFree (s : State) (n : Nat) : Prop :=
  let q := s.chip.port n
  s.chip.sys.halted = false ∧ q.txBusy = false ∧ q.enumAt = none ∧ q.latchWait = false ∧ q.statWait = false ∧ q.load = none ∧ q.enumQ = []

/-- The registers of timer channel `n` after the writes of a TIMER_ARM (11 R267); no other register has changed. -/
def ArmRegs (t s : State) (n : Nat) (reload cmp init : Option (Fin 4294967296)) (cfg : Option (Fin 65536)) : Prop :=
  t.regs.c (Reg.TMR_RELOAD n) = (reload.map (·.val)).getD (s.regs.c (Reg.TMR_RELOAD n)) ∧
    t.regs.c (Reg.TMR_CMP n) = (cmp.map (·.val)).getD (s.regs.c (Reg.TMR_CMP n)) ∧
    t.regs.c (Reg.TMR_INIT n) = (init.map (·.val)).getD (s.regs.c (Reg.TMR_INIT n)) ∧
    t.regs.c (Reg.TMR_CFG n) = (cfg.map fun v => tmrCfgMask v.val).getD (s.regs.c (Reg.TMR_CFG n)) ∧
    (∀ k, k ≠ Reg.TMR_RELOAD n ∧ k ≠ Reg.TMR_CMP n ∧ k ≠ Reg.TMR_INIT n ∧ k ≠ Reg.TMR_CFG n → t.regs.c k = s.regs.c k) ∧
    t.regs.halt = s.regs.halt

/-- A channel after the writes of a TIMER_ARM: its buffers wait for their third edge, and COMPARE_LATE is set where it is due (11 R254,
R256). -/
def armTaken (x : Timer) (reload cmp : Option (Fin 4294967296)) : Timer :=
  { x with
    reloadAt := match reload with
      | some v => some (3, v.val)
      | none => x.reloadAt
    cmpAt := match cmp with
      | some v => some (3, v.val)
      | none => x.cmpAt
    late := match cmp with
      | some v => x.late || compareLate x v.val
      | none => x.late }

/-- A channel started with its registers (11 R255, R260, R269). -/
def started (r : Regs) (n : Nat) (x : Timer) : Timer :=
  { x with
    count := if r.c (Reg.TMR_INIT n) = 0 then r.c (Reg.TMR_RELOAD n) else r.c (Reg.TMR_INIT n)
    cfg := bits (r.c (Reg.TMR_CFG n)) 7 0, running := true, armed := false, psc := 0, frac := 0, next := r.c (Reg.TMR_RELOAD n) }

/-- The controller of segment `n` runs and its transceiver is in normal mode (12 Tables 12.3, 12.4). -/
abbrev SegUp (s : State) (n : Nat) : Prop := segRuns s.regs s.chip n = true ∧ (s.chip.seg n).st.normal = true

/-- A segment has entered a state, from `x` to `y` (12 Table 12.4, R282): its transceiver follows, READY_SLEEP starts in READY, HOST_REQ
lasts in AWAKE only, and the MAX_AWAKE count is cleared or runs. Its queues and counts stay. -/
def Entered (c : Chip) (x : Seg) (st : SegSt) (y : Seg) : Prop :=
  y = { x with
      st := st, xcvr := st.normal, readyT := if st = .ready then c.now else x.readyT, hostReq := x.hostReq && st == .awake
      awakeAcc := y.awakeAcc, awakeAt := y.awakeAt, valWait := y.valWait, holdLeft := y.holdLeft } ∧
    (st = .awake ∨ st = .sleep ∨ st = .off → y.awakeAcc = 0 ∧ y.awakeAt = none) ∧
    (st = .validating ∨ st = .ready → c.sys.halted = false → y.awakeAcc = awakeNs c x ∧ y.awakeAt = some c.now)

/-- A segment whose wake signal is over (12 R273, R279, R290): what it held may be sent, and no REQUEST waits for it. -/
def signalOver (x : Seg) : Seg :=
  { x with signalling := false, txq := x.txq.map fun (y : TxFrame) => { y with hold := false }, nmJob := none }

/-- Of the chip only segment `n` has changed, with the LIN schedule or the PLCA cycle of its own controller. -/
def OnlySeg (s t : State) (n : Nat) : Prop :=
  SameBut t (withChip s { s.chip.setSeg n (t.chip.seg n) with lins := t.chip.lins, t1ss := t.chip.t1ss }) ∧
    (∀ k, n ≠ k + 8 → t.chip.lin k = s.chip.lin k) ∧ ∀ k, n ≠ k + 14 → t.chip.t1s k = s.chip.t1s k

/-- Command `c` is the reception of frame `f`, whose start of frame was at MTIME `sof`, without error on CAN, LIN or T1S segment `u` (12 R278):
on a CAN that stays error-active and takes its format, on a LIN in the slot whose turn it is, which the module does not publish. -/
abbrev Receives (s : State) (c : Instr) (u : Nat) (f : NetFrm) (sof : Nat) : Prop :=
  (∃ n rec, c = .canFrameRx n ⟨f, sof⟩ rec ∧ u = n.val ∧ (s.chip.can n.val).fstate = 0 ∧ errorState (s.chip.can n.val).tecE rec.val = 0 ∧
      (f.xlf = true → n.val < 4 ∧ bit (s.regs.c (Reg.CAN_CFG n.val)) 13 = true)) ∨
    (∃ l : Fin 6, c = .linSlot l true f.data true sof ∧ linNext s.chip l.val = some (f.id.val, false) ∧
      f = { id := f.id, data := f.data, lcc := f.id.val == 0x3C || f.id.val == 0x3D } ∧ u = 8 + l.val ∧
      (s.chip.lin l.val).running = true ∧ (s.chip.seg u).signalling = false ∧ busDrives s.chip = true) ∨
    ∃ e : Fin 4, c = .ethFrameRx e ⟨f, sof⟩ ∧ e.val < 2 ∧ u = 14 + e.val

/-- The running poll of access function `f` is over: no other function has changed, nor anything but what an event and a commit of the secure
store move (13 R306, R307). -/
def PollOver (s t : State) (f : Nat) : Prop :=
  (∀ g, g ≠ f → accFn t.chip g = accFn s.chip g) ∧
    SameBut t (withChip s { s.chip with acc := { s.chip.acc with poll := none, fns := t.chip.acc.fns }, age := t.chip.age })

/-- An access function granted now to the token in slot `sl` (13 R307). -/
def granted (c : Chip) (x : AccFn) (set : AccSet) (sl : Nat) : AccFn :=
  { x with grant := some sl, grantEnd := accSec c + max 1 (bits set.time 15 0), level := 0 }

/-- The update state after one more journal record, which `f` makes of the last one; it names the build of each slot of `m` (14 R330). -/
def journaled (m : Mram) (f : Journal → Journal) (u : Upd) : Upd :=
  { u with jr := { f u.jr with seq := u.jr.seq + 1, bidExec := buildId m.exec, bidStage := buildId m.stage }, jrOld := u.jr }

/-- The register files and MRAM are in their one canonical form. -/
abbrev StoresWf (s : State) : Prop :=
  s.regs.ctl.wf = true ∧ s.regs.halt.wf = true ∧ s.mram.exec.wf = true ∧ s.mram.stage.wf = true ∧ s.mram.scratch.wf = true

end Sys2Proof.Safety
end

