-- ==== Sys2Proof/WellFormed.lean ====
section
/-!
DEFINITION. Sys2Proof/WellFormed.lean: which commands the outside can send at all: times and host addresses have 64 bits (04 Table 4.13,
R89), buffers hold bytes, a descriptor has eight words, a sample has one value for each input. What the spec lets the host send wrongly (a
reserved field, a curve that falls) is no matter of form: the descriptor checks answer it (04 R94).
-/

namespace Sys2Proof

/-- A form a command can break. -/
inductive Malformed
  /-- AT_TIME has more than 64 bits (04 Table 4.13). -/
  | atTime
  /-- A host address has more than 64 bits (04 R89). -/
  | address
  /-- A buffer holds something that is no byte. -/
  | byte
  /-- A list has another length than the buffer or the inputs it stands for. -/
  | length
  /-- A value does not fit its field. -/
  | field
  deriving DecidableEq, Repr

/-- AT_TIME has 64 bits. -/
def Hdr.wf (h : Hdr) : Bool :=
  match h.at_ with
  | some t => decide (t < 2 ^ 64)
  | none => true

/-- A host address has 64 bits. -/
def addrWf (a : Nat) : Bool := decide (a < 2 ^ 64)

/-- Every element is a byte. -/
def bytesWf (l : List Nat) : Bool := l.all fun b => decide (b < 256)

/-- Every element fits in `n` bits. -/
def wordsWf (n : Nat) (l : List Nat) : Bool := l.all fun w => decide (w < 2 ^ n)

/-- A frame holds bytes, at most 2,048, and a standard ID has 11 bits (12 Table 12.6). -/
def NetFrm.wf (f : NetFrm) : Bool := bytesWf f.data && decide (f.data.length ≤ 2048) && (f.ide || decide (f.id.val < 2048))

/-- A head of an SQ holds eight words (04 R87). -/
def SqHead.wf (e : SqHead) : Bool := decide (e.words.length = 8) && wordsWf 32 e.words && bytesWf e.buf

/-- The header of a descriptor; none for a write or an event. -/
def Instr.hdr? : Instr → Option Hdr
  | .nop h | .fence h | .heartbeat h | .timeRead h | .powerState h _ | .stallSet h _ _ _ | .stallPwm h _ _ | .stallProfileSelect h _ _
  | .stallProfileLoadUser h _ _ _ _ | .stallClear h _ _ _ | .stallDiag h _ _ _ | .stallCrosscheck h _ _ _ | .valveFire h _ _ _ _
  | .valveRelease h _ _ _ _ | .valveSeq h _ _ _ _ | .valveClear h _ _ _ | .move h _ _ _ _ _ _ _ _ | .hold h _ | .holdResume h _
  | .stop h _ _ | .stopClear h _ _ | .coefWrite h _ _ _ | .learnRun h _ _ | .learnLoad h _ _ _ _ | .learnRead h _ _ | .sinkSet h _ _ _ _
  | .sinkCalibrate h _ _ _ _ | .lampFrame h _ _ _ _ | .lampLatch h _ _ | .matrixFrame h _ _ _ | .lampEnumFull h _ _
  | .lampEnumRediscover h _ _ | .lampEnumRead h _ _ | .siSnapshot h _ _ _ | .doSet h _ _ _ | .timerArmStart h _ _ _ _ _
  | .timerArmArm h _ _ _ _ _ | .timerArmStop h _ _ _ _ _ | .timerArmUpdate h _ _ _ _ _ | .gstart h _ _ | .netTx h _ _ _ _ _ _
  | .netRxPost h _ _ _ _ | .nmRequest h _ | .nmRelease h _ | .nmIsolate h _ _ | .nmUnisolate h _ | .nmStatus h _ | .accessPoll h _ _
  | .enrolAdd h _ _ | .enrolProvision h _ _ | .revoke h _ | .imgWrite h _ _ _ _ | .imgCommit h _ _ | .imgConfirm h | .selftest h _ _ _ _
  | .ageReport h _ | .marginCap h _ _ _ _ _ _ => some h
  | _ => none

/-- The host address of a descriptor's buffer, where it names one. -/
def Instr.addr? : Instr → Option Nat
  | .stallProfileLoadUser _ _ _ a _ | .stallDiag _ _ _ a | .stallCrosscheck _ _ _ a | .valveSeq _ _ _ a _ | .coefWrite _ _ a _
  | .learnRun _ _ a | .learnLoad _ _ a _ _ | .learnRead _ _ a | .lampFrame _ _ _ a _ | .matrixFrame _ _ a _ | .lampEnumFull _ _ a
  | .lampEnumRediscover _ _ a | .lampEnumRead _ _ a | .siSnapshot _ _ _ a | .netTx _ _ _ _ _ a _ | .netRxPost _ _ _ _ a | .enrolAdd _ a _
  | .enrolProvision _ a _ | .imgWrite _ _ _ a _ | .ageReport _ a => some a
  | _ => none

/-- The bytes a command carries: of a host buffer, or received. -/
def Instr.bytes : Instr → List Nat
  | .lampFrame _ _ _ _ d | .matrixFrame _ _ _ d | .enrolAdd _ _ d | .enrolProvision _ _ d | .imgWrite _ _ _ _ d => d
  | .linSlot _ _ r _ _ => r
  | _ => []

/-- The lists a command carries have the length of what they stand for: 48 switch inputs (10 R235), 8 analog inputs (10 R244), the image
block (14 R327), at most 15 curve points (05 R136) and 64 steps (07 R179). -/
def Instr.lengthWf : Instr → Bool
  | .siSample m | .parkPoll m => decide (m.length = 48)
  | .ainConversion v => decide (v.length = 8)
  | .imgWrite _ _ len _ d => decide (d.length = len.val)
  | .stallProfileLoadUser _ _ _ _ p => decide (p.length ≤ 15)
  | .valveSeq _ _ _ _ l => decide (l.length ≤ 64)
  | .netTx _ _ _ _ _ _ f | .canWake _ _ f => f.wf
  | .canFrameRx _ f _ | .ethFrameRx _ f => f.frm.wf
  | .descriptorFetch l => l.all SqHead.wf
  | _ => true

/-- The numbers a command carries without a bound of their type fit their fields. -/
def Instr.fieldWf : Instr → Bool
  | .stallProfileLoadUser _ _ _ _ p => p.all fun x => decide (x.1 < 2 ^ 24) && decide (x.2 < 256)
  | .stallCrosscheck _ _ m _ => decide (m < 2 ^ 64)
  | .learnLoad _ _ _ a b => wordsWf 16 a && wordsWf 16 b
  | .statusFrameRx _ w _ => w.all fun x => decide (x.1 < 2 ^ 32) && decide (x.2 < 256)
  | .ainConversion v => wordsWf 12 v
  | .matrixLineSlot m => decide (m < 2 ^ 24)
  | .secureDebugUnlock a b => decide (a < 2 ^ 256) && decide (b < 2 ^ 256)
  | .tokenReply _ _ _ _ _ _ m | .tpcUplink _ _ _ m _ | .rkeFrame _ _ _ _ m => decide (m < 2 ^ 64)
  | .move _ _ _ _ _ t _ _ _ => decide (-2 ^ 31 ≤ t) && decide (t < 2 ^ 31)
  | .addressAgeOut a v => decide (a < 2 ^ 48) && decide (v < 4096)
  | _ => true

/-- The first form that a command breaks. -/
def Instr.malformed (i : Instr) : Option Malformed :=
  if !(i.hdr?.all Hdr.wf) then some .atTime
  else if !(i.addr?.all addrWf) then some .address
  else if !bytesWf i.bytes then some .byte
  else if !i.lengthWf then some .length
  else if !i.fieldWf then some .field
  else none

/-- A command that the outside can send. -/
def Instr.wf (i : Instr) : Bool := i.malformed.isNone

end Sys2Proof
end

