-- ==== Sys2Proof/Certificates/Slice0/Obligations.lean ====
section
/-!
DEFINITION. Sys2Proof/Certificates/Slice0/Obligations.lean: the statements about the EZ9480: what each command completes with and leaves
alone, what the ring engine and the event queues do, and the invariants of a step.
-/

open Sys2Proof Sys2Proof.Machine Sys2Proof.Safety

/-- A step takes the command at the front of the queue and runs it with the queue's rest; with nothing waiting the block takes its idle step
(the model's choice, log entry 2), which moves neither the queue, the registers nor MRAM. -/
def Obligations.StepRunsTheFront : Prop :=
  (∀ (c : Instr) (rest : List Instr) (s : State), s.pending = c :: rest → step s = exec c (s.setPending rest)) ∧
  (∀ s : State, s.pending = [] → ∃ t, step s = .next t ∧ t.pending = [] ∧ t.regs = s.regs ∧ t.mram = s.mram)

/-- Every command completes, and none touches the queue of those that wait. -/
def Obligations.CommandsLeaveTheQueue : Prop :=
  ∀ (c : Instr) (s : State), ∃ t, exec c s = .next t ∧ t.pending = s.pending

/-- The canonical form of the register files and of MRAM holds at reset. Right after reset the module is OFF (02 R41): CTL is without supply, no
function has a ring enabled, every stall is in OFF. -/
def Obligations.ResetState : Prop :=
  (StoresWf State.reset) ∧
  (State.reset.chip.sys.power = .off ∧ State.reset.chip.sys.ctl = .off ∧ State.reset.chip.sys.lock = false ∧
  (∀ i, (State.reset.chip.stall i).st = .off ∧ (State.reset.chip.stall i).req = false) ∧
  (∀ n, (State.reset.chip.loop n).st = .idle) ∧ (∀ n, (State.reset.chip.valve n).phase = .idle) ∧
  (∀ pf, bit (State.reset.regs.c (Reg.RING_CTRL pf)) 0 = false) ∧ State.reset.chip.mt.src = .off ∧ State.reset.chip.jobs = [])

/-- Every step keeps the canonical form of the register files and of MRAM: equal contents are equal data. -/
def Obligations.StepKeepsStoresCanonical : Prop :=
  ∀ s t : State, StoresWf s → step s = .next t → StoresWf t

/-- NOP and FENCE complete OK with result 0; HEARTBEAT restarts the supervision of the function whose world it has (PF1 with WORLD = 0 counts as
PF0) with the HOST_TMO in force and returns that function's episodes of host loss since CTL's start; TIME_READ returns MTIME[47:0] and
MTIME[63:32] of one instant (04 Table 4.14, R90, R95, R102). Nothing else changes. A descriptor with NO_COMPLETION_ON_SUCCESS that completes
OK writes no entry and sends nothing; its slot is released (04 R96, R97). A descriptor with the FENCE flag waits while an earlier descriptor
of its SQ has not completed: nothing is sent and FENCE_WAIT of the SQ is set (04 R95, Table 4.7). A descriptor with AT_TIME ahead of MTIME
waits; after MTIME has reached it, it executes (04 R96). -/
def Obligations.SystemDescriptorsAndWaits : Prop :=
  (∀ (h : Hdr) (s : State), Admitted (sysDesc 0x00) h s → Answers h s →
    ∃ t, exec (.nop h) s = .next t ∧ entryOf s h St.ok 0 ∈ t.chip.out ∧ SameBut t s) ∧
  (∀ (h : Hdr) (s : State), Admitted (sysDesc 0x01) { h with fence := true } s → Answers h s →
    ∃ t, exec (.fence h) s = .next t ∧ entryOf s h St.ok 0 ∈ t.chip.out ∧ SameBut t s) ∧
  (∀ (h : Hdr) (s : State), Admitted (sysDesc 0x02) h s → Answers h s →
    ∃ t, exec (.heartbeat h) s = .next t ∧ entryOf s h St.ok (min 0xFFFFFFFF (s.chip.ring h.fn).episodes) ∈ t.chip.out ∧
      (t.chip.ring h.fn).lastHb = s.chip.now ∧
      (t.chip.ring h.fn).tmo = clampN 10 10000 (bits (s.regs.c (Reg.RING_CTRL h.fn)) 29 16) ∧
      SameBut t (withChip s (s.chip.modRing h.fn fun g =>
        { g with lastHb := s.chip.now, tmo := clampN 10 10000 (bits (s.regs.c (Reg.RING_CTRL h.fn)) 29 16) }))) ∧
  (∀ (h : Hdr) (s : State), Admitted (sysDesc 0x03) h s → Answers h s →
    ∃ t, exec (.timeRead h) s = .next t ∧ entryOf s h St.ok (s.chip.mt.val / 2 ^ 32 % 2 ^ 32) ∈ t.chip.out ∧ SameBut t s) ∧
  (∀ (h : Hdr) (s : State), Admitted (sysDesc 0x00) h s → h.ncos = true →
    ∃ t, exec (.nop h) s = .next t ∧ t.chip.out = s.chip.out ∧
      ((t.chip.ring h.pf.val).cqAt (sqCq s.regs h.pf.val h.sq.val)).reserved =
        ((s.chip.ring h.pf.val).cqAt (sqCq s.regs h.pf.val h.sq.val)).reserved ∧ SameBut t s) ∧
  (∀ (h : Hdr) (s : State), s.chip.ctlRuns = true → fenceHolds s.chip { h with fence := true } = true →
    ∃ t, exec (.fence h) s = .next t ∧ t.chip.out = s.chip.out ∧ t.chip.jobs = s.chip.jobs ∧
      ((t.chip.ring h.pf.val).sqAt h.sq.val).fenceWait = true ∧ SameBut t s) ∧
  (∀ (h : Hdr) (s : State) (at_ : Nat), Admitted (sysDesc 0x00) { h with at_ := none } s → s.chip.mt.val < at_ →
    ∃ t, exec (.nop { h with at_ := some at_ }) s = .next t ∧ t.chip.out = s.chip.out ∧
      (∃ j ∈ t.chip.jobs, j.op = .nop { h with at_ := some at_ } ∧ j.waiting = true ∧ j.id = s.chip.nextJob) ∧ SameBut t s) ∧
  (∀ (h : Hdr) (s : State) (j : Job), s.chip.ctlRuns = true → s.chip.sys.halted = false →
    s.chip.jobs = [j] → j.op = .nop h → j.h = h → j.waiting = true → j.drop = false → j.blk = 0 →
    h.at_.getD 0 - j.lead ≤ s.chip.mt.val → h.ncos = false → (s.chip.ring h.pf.val).dmaOk = true → j.held = false →
    ∃ t, exec .atTimeDue s = .next t ∧ t.chip.jobs = [] ∧
      Out.completion h.pf.val j.cq ((s.chip.ring h.pf.val).cqAt j.cq).tail
        (entryWords h St.ok s.chip.mt.val 0 ((s.chip.ring h.pf.val).cqAt j.cq).phase) ∈ t.chip.out ∧ SameBut t s)

/-- A descriptor that fails one of the checks 1 to 4 of 04 Table 4.16 completes with the status of the first check that fails, and its command
has no effect: only the count of world violations moves, with WORLD_VIOLATION, and source 242 reports cause DESCRIPTOR with the function
whose world the descriptor has (14 R322, Table 14.3). -/
def Obligations.ChecksRefuse : Prop :=
  ∀ (c : Instr) (h : Hdr) (s : State) (st : Nat), c.hdr? = some h → s.chip.ctlRuns = true →
    fenceHolds s.chip { h with fence := true } = false → recoveryRefuses s.chip h (descOf s c).opc = false →
    NoneHeld s → (s.chip.ring h.pf.val).dmaOk = true →
    firstFail (checks14 s.regs s.chip (descOf s c) h) = some st →
    ∃ t, exec c s = .next t ∧ entryOf s h st 0 ∈ t.chip.out ∧
      (st = St.world → Told s t 242 9 (2 + h.fn * 256 + ((descOf s c).opc + (descOf s c).blk * 256 + (descOf s c).unit * 65536) % 2 ^ 32 * 65536)) ∧
      SameBut t (withChip s { s.chip with sys := { s.chip.sys with
        violations := if st = St.world then (s.chip.sys.violations + 1) % 65536 else s.chip.sys.violations } })

/-- POWER_STATE (02 R41, R42, Table 2.7): with CTL up and no sleep commit running, a request for RUN from STANDBY enters RUN and one for STANDBY
from RUN enters STANDBY, and the descriptor is no longer in progress; where no domain changes and no segment validates a wake, the entry is
OK and nothing else changes but the run's bookkeeping. A request for PARK or WATCH while a condition of R42 holds completes BUSY and changes
nothing; else the sleep commit starts (R43), or has ended in the state asked for. Where no channel runs, no test or cross-check runs, WAKE#
is released and a halter's watchdog is armed, the commit sends PARK_COMMIT to every adopted, reachable yard, arms the wake detectors and
gives MTIME to WNA. A request for the state in force completes OK (the model's choice, log entry 44). PARK_COMMIT disarms the watchdog of a
supplied halter and changes nothing else; PARK_ABORT arms it again (02 R43, 12 R285). With the last halter of a sleep commit, and no
self-test running, the module is in the state asked for: CTL off, no descriptor in progress, wake detectors armed. -/
def Obligations.PowerStatesAndParkFrames : Prop :=
  (∀ (h : Hdr) (s : State), Admitted (powerDesc 0) h s → Answers h s → NoneHeld s → s.chip.sys.ctl = .up → s.chip.sys.sleepTo = none →
    s.chip.sys.power = .standby → (∀ n, n < 5 → bit (s.regs.c Reg.POWER_CFG) n = true → bit (s.regs.c Reg.POWER_CFG) (8 + n) = true) →
    (∀ n, n < 18 → (s.chip.seg n).st ≠ .validating) →
    ∃ t, exec (.powerState h 0) s = .next t ∧ entryOf s h St.ok 0 ∈ t.chip.out ∧ t.chip.sys.power = .run ∧
      SameBut t (withChip s { s.chip with
        sys := { s.chip.sys with power := .run }, upd := { s.chip.upd with runFrom := s.chip.now }
        age := { s.chip.age with runId := s.chip.age.runId + 1 } })) ∧
  (∀ (h : Hdr) (s : State), Admitted (powerDesc 1) h s → Answers h s → NoneHeld s → s.chip.sys.ctl = .up → s.chip.sys.sleepTo = none →
    s.chip.sys.power = .run → s.chip.upd.jr.st ≠ 4 →
    (∀ n, n < 5 → bit (s.regs.c Reg.POWER_CFG) (8 + n) = true → bit (s.regs.c Reg.POWER_CFG) n = true) →
    (∀ n, n < 18 → (s.chip.seg n).st ≠ .validating) →
    ∃ t, exec (.powerState h 1) s = .next t ∧ entryOf s h St.ok 0 ∈ t.chip.out ∧ t.chip.sys.power = .standby ∧
      SameBut t (withChip s { s.chip with
        sys := { s.chip.sys with power := .standby }
        upd := { s.chip.upd with runFrom := s.chip.upd.runFrom + (s.chip.now - s.chip.upd.runFrom) / 1000000000 * 1000000000 } })) ∧
  (∀ (h : Hdr) (s : State) (target : Fin 8), target.val < 2 → Admitted (powerDesc target.val) h s → Answers h s → NoneHeld s →
    s.chip.sys.ctl = .up → s.chip.sys.sleepTo = none → s.chip.sys.power = (if target.val = 0 then Power.run else Power.standby) →
    ∃ t, exec (.powerState h target) s = .next t ∧ entryOf s h St.ok 0 ∈ t.chip.out ∧ SameBut t s) ∧
  (∀ (h : Hdr) (s : State) (target : Fin 8), target.val = 2 ∨ target.val = 3 → Admitted (powerDesc target.val) h s → Answers h s →
    NoneHeld s → s.chip.sys.ctl = .up → s.chip.sys.sleepTo = none → sleepBusy s.chip = true →
    ∃ t, exec (.powerState h target) s = .next t ∧ entryOf s h St.busy 0 ∈ t.chip.out ∧ SameBut t s) ∧
  (∀ (h : Hdr) (s : State) (target : Fin 8), target.val = 2 ∨ target.val = 3 → Admitted (powerDesc target.val) h s → NoneHeld s →
    s.chip.sys.ctl = .up → s.chip.sys.sleepTo = none → sleepBusy s.chip = false → s.chip.cross = [] → s.chip.age.tests = [] →
    s.chip.timers = [] → s.chip.sys.wakePin = false → (∃ y ∈ sleepYards s.chip, (s.chip.yard y).wdArmed = true) →
    ∃ t, exec (.powerState h target) s = .next t ∧ (∀ y ∈ sleepYards s.chip, Out.guy y .parkCommit 0 ∈ t.chip.out) ∧
      t.chip.sys.sleepTo = some (if target.val = 2 then Power.park else Power.watch) ∧ t.chip.sys.sleepJob = some s.chip.nextJob ∧
      t.chip.sys.armed = true ∧ t.chip.mt.src = .lf ∧ t.chip.mt.val = s.chip.mt.val ∧
      SameBut t (withChip s { s.chip with
        sys := { s.chip.sys with armed := true, wakeRec := [], sleepTo := some (if target.val = 2 then Power.park else Power.watch)
                                 sleepJob := some s.chip.nextJob }
        mt := { s.chip.mt with src := .lf, frac := 0 } })) ∧
  (∀ (h : Hdr) (s : State) (target : Fin 8), target.val < 2 → Admitted (powerDesc target.val) h s → NoneHeld s → s.chip.sys.ctl = .up →
    s.chip.sys.sleepTo = none → s.chip.sys.power = (if target.val = 0 then Power.standby else Power.run) →
    ∃ t, exec (.powerState h target) s = .next t ∧ t.chip.sys.power = (if target.val = 0 then Power.run else Power.standby) ∧
      t.chip.job s.chip.nextJob = none) ∧
  (∀ (h : Hdr) (s : State) (target : Fin 8), target.val = 2 ∨ target.val = 3 → Admitted (powerDesc target.val) h s → NoneHeld s →
    s.chip.sys.ctl = .up → s.chip.sys.sleepTo = none → sleepBusy s.chip = false →
    ∃ t, exec (.powerState h target) s = .next t ∧ t.chip.sys.armed = true ∧
      (t.chip.sys.sleepTo = some (if target.val = 2 then Power.park else Power.watch) ∨
        t.chip.sys.power = if target.val = 2 then Power.park else Power.watch)) ∧
  (∀ (y : Fin 4) (s : State), (s.chip.yard y.val).supplied = true →
    s.chip.sys.sleepTo = none ∨ s.chip.age.tests ≠ [] ∨ (∃ k ∈ sleepYards s.chip, k ≠ y.val ∧ (s.chip.yard k).wdArmed = true) →
    exec (.parkCommit y) s = .next (withChip s (s.chip.setYard y.val { s.chip.yard y.val with wdArmed := false }))) ∧
  (∀ (y : Fin 4) (s : State) (target : Power), (s.chip.yard y.val).supplied = true → s.chip.sys.sleepTo = some target →
    s.chip.age.tests = [] → (∀ k ∈ sleepYards s.chip, k ≠ y.val → (s.chip.yard k).wdArmed = false) →
    ∃ t, exec (.parkCommit y) s = .next t ∧ t.chip.sys.power = target ∧ t.chip.sys.ctl = .off ∧ t.chip.sys.armed = true ∧
      t.chip.jobs = [] ∧ t.chip.sys.sleepTo = none) ∧
  (∀ (y : Fin 4) (s : State), (s.chip.yard y.val).supplied = true →
    exec (.parkAbort y) s = .next (withChip s (s.chip.setYard y.val { s.chip.yard y.val with wdArmed := true })))

/-- A doorbell that the host writes through its own function, with a value that the enabled queue can take, becomes the queue's pointer (04 R85,
R86): bits 11 to 0 count. Nothing else changes, but that an EQ in COLLAPSING may write records into the slots freed. A heartbeat doorbell
restarts the function's supervision with the HOST_TMO in force; it ends a declared host loss with the event of source 237, and the
SAFE_DELAY counts of the outputs of the function's world stop where no other trigger is in force and no SAFE action waits (04 R102 to R104). -/
def Obligations.DoorbellsMove : Prop :=
  (∀ (pf : Fin 2) (n : Fin 16) (v : Fin 4294967296) (s : State), hostReach s.chip pf.val = true →
    bit (s.regs.c (Reg.SQ_CFG pf.val n.val)) 0 = true → v.val % 4096 < ringSize (s.regs.c (Reg.SQ_CFG pf.val n.val)) →
    exec (.sqTail pf pf n v) s = .next (withChip s (s.chip.setRing pf.val
      ((s.chip.ring pf.val).setSq n.val { (s.chip.ring pf.val).sqAt n.val with tail := v.val % 4096 })))) ∧
  (∀ (pf : Fin 2) (n : Fin 8) (v : Fin 4294967296) (s : State), hostReach s.chip pf.val = true →
    bit (s.regs.c (Reg.CQ_CFG pf.val n.val)) 0 = true → v.val % 4096 < ringSize (s.regs.c (Reg.CQ_CFG pf.val n.val)) →
    headPast (s.regs.c (Reg.CQ_CFG pf.val n.val)) ((s.chip.ring pf.val).cqAt n.val).head ((s.chip.ring pf.val).cqAt n.val).tail (v.val % 4096) = false →
    exec (.cqHead pf pf n v) s = .next (withChip s (s.chip.setRing pf.val
      ((s.chip.ring pf.val).setCq n.val { (s.chip.ring pf.val).cqAt n.val with head := v.val % 4096 })))) ∧
  (∀ (pf : Fin 2) (v : Fin 4294967296) (s : State), hostReach s.chip pf.val = true → bit (s.regs.c (Reg.EQ_CFG pf.val)) 0 = true →
    v.val % 4096 < ringSize (s.regs.c (Reg.EQ_CFG pf.val)) →
    headPast (s.regs.c (Reg.EQ_CFG pf.val)) (s.chip.ring pf.val).eq.head (s.chip.ring pf.val).eq.tail (v.val % 4096) = false →
    (s.chip.ring pf.val).eq.collapsing = false →
    exec (.eqHead pf pf v) s = .next (withChip s (s.chip.setRing pf.val
      { s.chip.ring pf.val with eq := { (s.chip.ring pf.val).eq with head := v.val % 4096 } }))) ∧
  (∀ (pf : Fin 2) (v : Fin 4294967296) (s : State), hostReach s.chip pf.val = true → bit (s.regs.c (Reg.EQ_CFG pf.val)) 0 = true →
    v.val % 4096 < ringSize (s.regs.c (Reg.EQ_CFG pf.val)) →
    headPast (s.regs.c (Reg.EQ_CFG pf.val)) (s.chip.ring pf.val).eq.head (s.chip.ring pf.val).eq.tail (v.val % 4096) = false →
    ∃ t, exec (.eqHead pf pf v) s = .next t ∧ (t.chip.ring pf.val).eq.head = v.val % 4096 ∧ SameBut t s) ∧
  (∀ (pf : Fin 2) (v : Fin 4294967296) (s : State), hostReach s.chip pf.val = true → (s.chip.ring pf.val).hostLost = false →
    exec (.heartbeatDoorbell pf pf v) s = .next (withChip s (s.chip.setRing pf.val { s.chip.ring pf.val with
      hbSinceWake := true, lastHb := s.chip.now, tmo := clampN 10 10000 (bits (s.regs.c (Reg.RING_CTRL pf.val)) 29 16) }))) ∧
  (∀ (pf : Fin 2) (v : Fin 4294967296) (s : State), hostReach s.chip pf.val = true → (s.chip.ring pf.val).hostLost = true →
    ∃ t, exec (.heartbeatDoorbell pf pf v) s = .next t ∧ (t.chip.ring pf.val).hostLost = false ∧ (t.chip.ring pf.val).lastHb = s.chip.now ∧
      (EqReady s pf.val 237 → recordOf s pf.val (evNow s 237 Cls.state 0) ∈ t.chip.out) ∧
      (∀ src ∈ allOutputs s.regs s.chip, srcSecure s.regs src = (pf == 1) → (∀ y, y < 4 → (s.chip.yard y).ctlAbsent = false) →
        (s.chip.safe src).due = false → (t.chip.safe src).running = false ∧ (t.chip.safe src).reached = false) ∧
      SameBut t (withChip s { s.chip.setRing pf.val { s.chip.ring pf.val with
        hostLost := false, hbSinceWake := true, lastHb := s.chip.now
        tmo := clampN 10 10000 (bits (s.regs.c (Reg.RING_CTRL pf.val)) 29 16) } with safes := t.chip.safes }))

/-- A doorbell of a queue that is not enabled, or with an index beyond its size, or a head that would pass the tail, is refused (04 R86): the
pointer stays, DB_ERR of the queue is set, and DB_INVALID of source 243 names the queue and the value. -/
def Obligations.DoorbellsRefused : Prop :=
  (∀ (pf : Fin 2) (n : Fin 16) (v : Fin 4294967296) (s : State), hostReach s.chip pf.val = true →
    bit (s.regs.c (Reg.SQ_CFG pf.val n.val)) 0 = false ∨ ringSize (s.regs.c (Reg.SQ_CFG pf.val n.val)) ≤ v.val % 4096 →
    ∃ t, exec (.sqTail pf pf n v) s = .next t ∧
      (t.chip.ring pf.val).sqAt n.val = { (s.chip.ring pf.val).sqAt n.val with dbErr := true } ∧
      (EqReady s pf.val 243 → recordOf s pf.val (evNow s 243 Cls.warning (pay [2, 0, n.val, v.val % 256, v.val % 4096 / 256])) ∈ t.chip.out) ∧ SameBut t s) ∧
  (∀ (pf : Fin 2) (n : Fin 8) (v : Fin 4294967296) (s : State), hostReach s.chip pf.val = true →
    bit (s.regs.c (Reg.CQ_CFG pf.val n.val)) 0 = false ∨ ringSize (s.regs.c (Reg.CQ_CFG pf.val n.val)) ≤ v.val % 4096 ∨
      headPast (s.regs.c (Reg.CQ_CFG pf.val n.val)) ((s.chip.ring pf.val).cqAt n.val).head ((s.chip.ring pf.val).cqAt n.val).tail
        (v.val % 4096) = true →
    ∃ t, exec (.cqHead pf pf n v) s = .next t ∧ ((t.chip.ring pf.val).cqAt n.val).head = ((s.chip.ring pf.val).cqAt n.val).head ∧
      ((t.chip.ring pf.val).cqAt n.val).dbErr = true ∧
      (EqReady s pf.val 243 → recordOf s pf.val (evNow s 243 Cls.warning (pay [2, 1, n.val, v.val % 256, v.val % 4096 / 256])) ∈ t.chip.out) ∧ SameBut t s) ∧
  (∀ (pf : Fin 2) (v : Fin 4294967296) (s : State), hostReach s.chip pf.val = true →
    bit (s.regs.c (Reg.EQ_CFG pf.val)) 0 = false ∨ ringSize (s.regs.c (Reg.EQ_CFG pf.val)) ≤ v.val % 4096 ∨
      headPast (s.regs.c (Reg.EQ_CFG pf.val)) (s.chip.ring pf.val).eq.head (s.chip.ring pf.val).eq.tail (v.val % 4096) = true →
    ∃ t, exec (.eqHead pf pf v) s = .next t ∧ (t.chip.ring pf.val).eq.head = (s.chip.ring pf.val).eq.head ∧
      (t.chip.ring pf.val).eq.dbErr = true ∧
      (EqReady s pf.val 243 → recordOf s pf.val (evNow s 243 Cls.warning (pay [2, 2, 0, v.val % 256, v.val % 4096 / 256])) ∈ t.chip.out) ∧
      SameBut t s)

/-- RING_CTRL takes the word written; EN set is noted for the false-wake return (04 R82, 12 R284). Setting EN of a queue that is disabled, whose
size lies in 4 to 12 and whose ring lies in a window enables it with its indices 0, and a CQ or EQ with phase 1 (04 R83); else EN stays
clear and CFG_ERR is set. An EQ that is enabled holds no events back any more (04 R391), and starts with no collapse counters (log entry
54). Clearing EN of an SQ or EQ disables it and leaves its pointers; clearing EN of an enabled CQ is refused with CFG_ERR while an enabled
SQ names it or a slot of it is taken (04 R83, R93). The end of an open COAL_US window closes it where no entry was posted meanwhile; where
entries were, and the CQ raises interrupts with COAL_US not 0, its vector is raised and the next window opens, stated where the vector may
be sent and is not masked (04 R101). -/
def Obligations.QueueSetUpAndWindows : Prop :=
  (∀ (pf : Fin 2) (v : Fin 4294967296) (s : State), hostReach s.chip pf.val = true →
    ∃ t, exec (.ringEnable pf pf v) s = .next t ∧ SetsReg t s (Reg.RING_CTRL pf.val) (v.val &&& 0x3FFF0001) ∧
      t.chip = s.chip.setRing pf.val { s.chip.ring pf.val with enSinceWake := (s.chip.ring pf.val).enSinceWake || bit v.val 0 }) ∧
  (∀ (pf : Fin 2) (n : Fin 16) (v : Fin 4294967296) (s : State), hostReach s.chip pf.val = true →
    bit (s.regs.c (Reg.SQ_CFG pf.val n.val)) 0 = false → queueFits s.regs pf.val 0 n.val ((v.val ||| 1) &&& 0x7F3F1) = true →
    ∃ t, exec (.queueEnable pf pf 0 n v) s = .next t ∧ SetsReg t s (Reg.SQ_CFG pf.val n.val) ((v.val ||| 1) &&& 0x7F3F1) ∧
      t.chip = s.chip.setRing pf.val ((s.chip.ring pf.val).setSq n.val { (s.chip.ring pf.val).sqAt n.val with
        tail := 0, head := 0, cfgErr := false, fenceWait := false })) ∧
  (∀ (pf : Fin 2) (n : Fin 16) (v : Fin 4294967296) (s : State), hostReach s.chip pf.val = true → n.val < 8 →
    bit (s.regs.c (Reg.CQ_CFG pf.val n.val)) 0 = false → queueFits s.regs pf.val 1 n.val ((v.val ||| 1) &&& 0xFF1FF3) = true →
    ∃ t, exec (.queueEnable pf pf 1 n v) s = .next t ∧ SetsReg t s (Reg.CQ_CFG pf.val n.val) ((v.val ||| 1) &&& 0xFF1FF3) ∧
      t.chip = s.chip.setRing pf.val ((s.chip.ring pf.val).setCq n.val { (s.chip.ring pf.val).cqAt n.val with
        head := 0, tail := 0, phase := true, cfgErr := false, coalOpen := false, coalHit := false })) ∧
  (∀ (pf : Fin 2) (n : Fin 16) (v : Fin 4294967296) (s : State), hostReach s.chip pf.val = true →
    bit (s.regs.c (Reg.EQ_CFG pf.val)) 0 = false → queueFits s.regs pf.val 2 n.val ((v.val ||| 1) &&& 0xF1) = true →
    (s.chip.ring pf.val).held = [] → (s.chip.ring pf.val).heldOver = false →
    ∃ t, exec (.queueEnable pf pf 2 n v) s = .next t ∧ SetsReg t s (Reg.EQ_CFG pf.val) ((v.val ||| 1) &&& 0xF1) ∧
      (t.chip.ring pf.val).eq = { dbErr := (s.chip.ring pf.val).eq.dbErr }) ∧
  (∀ (pf : Fin 2) (n : Fin 16) (v : Fin 4294967296) (s : State), hostReach s.chip pf.val = true →
    bit (s.regs.c (Reg.SQ_CFG pf.val n.val)) 0 = false → queueFits s.regs pf.val 0 n.val ((v.val ||| 1) &&& 0x7F3F1) = false →
    ∃ t, exec (.queueEnable pf pf 0 n v) s = .next t ∧ bit (t.regs.c (Reg.SQ_CFG pf.val n.val)) 0 = false ∧
      ((t.chip.ring pf.val).sqAt n.val).cfgErr = true) ∧
  (∀ (pf : Fin 2) (n : Fin 16) (v : Fin 4294967296) (s : State), hostReach s.chip pf.val = true → n.val < 8 →
    bit (s.regs.c (Reg.CQ_CFG pf.val n.val)) 0 = false → queueFits s.regs pf.val 1 n.val ((v.val ||| 1) &&& 0xFF1FF3) = false →
    ∃ t, exec (.queueEnable pf pf 1 n v) s = .next t ∧ bit (t.regs.c (Reg.CQ_CFG pf.val n.val)) 0 = false ∧
      ((t.chip.ring pf.val).cqAt n.val).cfgErr = true) ∧
  (∀ (pf : Fin 2) (n : Fin 16) (v : Fin 4294967296) (s : State), hostReach s.chip pf.val = true →
    bit (s.regs.c (Reg.EQ_CFG pf.val)) 0 = false → queueFits s.regs pf.val 2 n.val ((v.val ||| 1) &&& 0xF1) = false →
    ∃ t, exec (.queueEnable pf pf 2 n v) s = .next t ∧ bit (t.regs.c (Reg.EQ_CFG pf.val)) 0 = false ∧
      (t.chip.ring pf.val).eq.cfgErr = true) ∧
  (∀ (pf : Fin 2) (n : Fin 16) (v : Fin 4294967296) (s : State), hostReach s.chip pf.val = true →
    bit (s.regs.c (Reg.EQ_CFG pf.val)) 0 = false → queueFits s.regs pf.val 2 n.val ((v.val ||| 1) &&& 0xF1) = true →
    ∃ t, exec (.queueEnable pf pf 2 n v) s = .next t ∧ SetsReg t s (Reg.EQ_CFG pf.val) ((v.val ||| 1) &&& 0xF1) ∧
      (t.chip.ring pf.val).eq.head = 0 ∧ (t.chip.ring pf.val).held = [] ∧ (t.chip.ring pf.val).heldOver = false) ∧
  (∀ (pf : Fin 2) (n : Fin 16) (v : Fin 4294967296) (s : State), hostReach s.chip pf.val = true →
    ∃ t, exec (.queueDisable pf pf 0 n v) s = .next t ∧ bit (t.regs.c (Reg.SQ_CFG pf.val n.val)) 0 = false ∧
      (∀ k, k ≠ Reg.SQ_CFG pf.val n.val → t.regs.c k = s.regs.c k) ∧ t.chip = s.chip) ∧
  (∀ (pf : Fin 2) (n : Fin 16) (v : Fin 4294967296) (s : State), hostReach s.chip pf.val = true → n.val < 8 →
    bit (s.regs.c (Reg.CQ_CFG pf.val n.val)) 0 = true →
    ∃ t, exec (.queueDisable pf pf 1 n v) s = .next t ∧
      bit (t.regs.c (Reg.CQ_CFG pf.val n.val)) 0 = cqBound s.regs s.chip pf.val n.val ∧
      ((t.chip.ring pf.val).cqAt n.val).cfgErr = cqBound s.regs s.chip pf.val n.val ∧
      (∀ k, k ≠ Reg.CQ_CFG pf.val n.val → t.regs.c k = s.regs.c k) ∧ SameChip t.chip s.chip) ∧
  (∀ (pf : Fin 2) (n : Fin 16) (v : Fin 4294967296) (s : State), hostReach s.chip pf.val = true →
    ∃ t, exec (.queueDisable pf pf 2 n v) s = .next t ∧ bit (t.regs.c (Reg.EQ_CFG pf.val)) 0 = false ∧
      (∀ k, k ≠ Reg.EQ_CFG pf.val → t.regs.c k = s.regs.c k) ∧ t.chip = s.chip) ∧
  (∀ (pf : Fin 2) (n : Fin 8) (s : State), s.chip.ctlRuns = true → ((s.chip.ring pf.val).cqAt n.val).coalOpen = true →
    ((s.chip.ring pf.val).cqAt n.val).coalHit = false →
    exec (.cqCoalExpiry pf n) s = .next (withChip s (s.chip.setRing pf.val
      ((s.chip.ring pf.val).setCq n.val { (s.chip.ring pf.val).cqAt n.val with coalOpen := false, coalHit := false })))) ∧
  (∀ (pf : Fin 2) (n : Fin 8) (s : State), s.chip.ctlRuns = true → ((s.chip.ring pf.val).cqAt n.val).coalOpen = true →
    ((s.chip.ring pf.val).cqAt n.val).coalHit = true → bit (s.regs.c (Reg.CQ_CFG pf.val n.val)) 1 = true →
    bits (s.regs.c (Reg.CQ_CFG pf.val n.val)) 23 16 ≠ 0 → (s.chip.ring pf.val).msgOk = true →
    bit (s.regs.c (Reg.MSIX_CTRL pf.val (bits (s.regs.c (Reg.CQ_CFG pf.val n.val)) 12 8))) 0 = false →
    ∃ t, exec (.cqCoalExpiry pf n) s = .next t ∧ t.chip.out = .msix pf.val (bits (s.regs.c (Reg.CQ_CFG pf.val n.val)) 12 8) :: s.chip.out ∧
      ((t.chip.ring pf.val).cqAt n.val).coalOpen = true ∧ ((t.chip.ring pf.val).cqAt n.val).coalHit = false ∧ SameBut t s)

/-- The ring configuration page and the doorbell page of a function are writable only through that function (04 R80): through the other one
every word of them reads as 0 and a write is ignored; PF0's write to a page of PF1 also raises source 242, with cause 3 and the page's
offset (14 Table 14.3). -/
def Obligations.PagesOfTheOtherFunction : Prop :=
  (∀ (n : Fin 16) (m : Fin 8) (v : Fin 4294967296) (k : Fin 3) (s : State), hostReach s.chip 0 = true → (k.val = 1 → n.val < 8) →
    ∀ x ∈ [(Instr.sqTail 0 1 n v, Reg.SQ_TAIL 1 n.val), (.cqHead 0 1 m v, Reg.CQ_HEAD 1 m.val), (.eqHead 0 1 v, Reg.EQ_HEAD 1),
        (.heartbeatDoorbell 0 1 v, Reg.HEARTBEAT 1), (.ringEnable 0 1 v, Reg.RING_CTRL 1),
        (.queueEnable 0 1 k n v, queueCfg 1 k.val n.val), (.queueDisable 0 1 k n v, queueCfg 1 k.val n.val)],
      ∃ t, exec x.1 s = .next t ∧ t.chip.sys.violations = (s.chip.sys.violations + 1) % 65536 ∧
        Told s t 242 Cls.security (3 + x.2 * 65536) ∧
        SameBut t (withChip s { s.chip with sys := { s.chip.sys with violations := (s.chip.sys.violations + 1) % 65536 } })) ∧
  (∀ (n : Fin 16) (m : Fin 8) (v : Fin 4294967296) (k : Fin 3) (s : State),
    ∀ x ∈ [Instr.sqTail 1 0 n v, .cqHead 1 0 m v, .eqHead 1 0 v, .heartbeatDoorbell 1 0 v, .ringEnable 1 0 v, .queueEnable 1 0 k n v,
        .queueDisable 1 0 k n v], exec x s = .next s) ∧
  (∀ (via : Fin 2) (off : Fin 1048576) (v : Fin 4294967296) (s : State), hostReach s.chip via.val = true → off.val % 4 = 0 →
    (via.val = 0 ∧ (off.val / 0x1000 = 2 ∨ off.val / 0x1000 = 5)) ∨ (via.val = 1 ∧ (off.val / 0x1000 = 1 ∨ off.val / 0x1000 = 4)) →
    readWord via.val off.val s = 0 ∧ ∃ t, exec (.registerWrite via off v 15) s = .next t ∧
      (via.val = 1 → SameBut t s) ∧
      (via.val = 0 → t.chip.sys.violations = (s.chip.sys.violations + 1) % 65536 ∧ Told s t 242 Cls.security (3 + off.val * 65536) ∧
        SameBut t (withChip s { s.chip with sys := { s.chip.sys with violations := (s.chip.sys.violations + 1) % 65536 } })))

/-- With the link up a configuration write sets what it names and nothing else, but that vectors which pended may be sent; the function has been
brought up once Bus Master Enable and MSI-X Enable are set and Function Mask is clear (04 R390). Without the link it has no effect. PERST#
assertion, a hot reset and a link-down reset the endpoint, its configuration space and the ring state of both functions and nothing else (03
R61): the registers of ring and doorbell pages are back at their reset values, queues are empty, waiting AT_TIME descriptors are gone,
dispatched ones run on with their completions to be dropped; a declared host loss and held events stay. With PERST# deasserted the endpoint
is ready for link training exactly where CTL is up, in the boot ROM or in recovery (03 R61; 14 R325, R326); with CTL up, no sleep commit
running and WNA not declaring CTL absent nothing else changes, but that the wake counts as a further one. The link comes up while the
endpoint is ready and PERST# deasserted, and only then. -/
def Obligations.ConfigurationAndLink : Prop :=
  (∀ (pf : Fin 2) (bme msixEn fmask d3 : Bool) (cs : CfgSpace) (s : State), s.chip.sys.link = true → (s.chip.ring pf.val).pba = 0 →
    exec (.configSpaceWrite pf bme ⟨msixEn, fmask⟩ d3 cs) s = .next (withChip s (s.chip.setRing pf.val { s.chip.ring pf.val with
      bme := bme, msixEn := msixEn, fmask := fmask, d3 := d3, cs := cs
      hostUp := (s.chip.ring pf.val).hostUp || (bme && msixEn && !fmask) }))) ∧
  (∀ (pf : Fin 2) (bme msixEn fmask d3 : Bool) (cs : CfgSpace) (s : State), s.chip.sys.link = true →
    ∃ t, exec (.configSpaceWrite pf bme ⟨msixEn, fmask⟩ d3 cs) s = .next t ∧
      SameBut t (withChip s (s.chip.setRing pf.val { s.chip.ring pf.val with
        bme := bme, msixEn := msixEn, fmask := fmask, d3 := d3, cs := cs
        hostUp := (s.chip.ring pf.val).hostUp || (bme && msixEn && !fmask) }))) ∧
  (∀ (pf : Fin 2) (bme msixEn fmask d3 : Bool) (cs : CfgSpace) (s : State), s.chip.sys.link = false →
    exec (.configSpaceWrite pf bme ⟨msixEn, fmask⟩ d3 cs) s = .next s) ∧
  (∀ (s : State), ∀ x ∈ [(Instr.perstAssert, true, false), (.hotReset, s.chip.sys.perst, s.chip.sys.ready),
      (.linkDown, s.chip.sys.perst, s.chip.sys.ready)],
    ∃ t, exec x.1 s = .next t ∧
      (∀ k, k < 0x100000 → ((0x01000 ≤ k ∧ k < 0x03000) ∨ (0x04000 ≤ k ∧ k < 0x06000)) → t.regs.c k = (resetWord k).toNat) ∧
      (∀ k, ¬((0x01000 ≤ k ∧ k < 0x03000) ∨ (0x04000 ≤ k ∧ k < 0x06000)) → t.regs.c k = s.regs.c k) ∧
      t.regs.halt = s.regs.halt ∧ t.mram = s.mram ∧ t.pending = s.pending ∧
      t.chip.sys.link = false ∧ t.chip.sys.perst = x.2.1 ∧
      (∀ pf, pf < 2 → (t.chip.ring pf).sqs = [] ∧ (t.chip.ring pf).cqs = [] ∧ (t.chip.ring pf).eq = {} ∧ (t.chip.ring pf).bme = false ∧
        (t.chip.ring pf).msixEn = false ∧ (t.chip.ring pf).hostUp = false ∧ (t.chip.ring pf).d3 = false ∧ (t.chip.ring pf).cs = {} ∧
        (t.chip.ring pf).hostLost = (s.chip.ring pf).hostLost ∧ (t.chip.ring pf).held = (s.chip.ring pf).held) ∧
      t.chip.jobs = (s.chip.jobs.filter fun j => !j.waiting).map (fun j => { j with drop := true }) ∧
      t.chip = { s.chip with ring0 := t.chip.ring0, ring1 := t.chip.ring1, arb := [], jobs := t.chip.jobs
                             sys := { s.chip.sys with link := false, perst := x.2.1, ready := x.2.2 } }) ∧
  (∀ s : State, s.chip.sys.ctl = .up → s.chip.sys.sleepTo = none → s.chip.parked = false → s.chip.sys.wnaAbsent = false →
    ∃ t, exec .perstDeassert s = .next t ∧ t.chip.sys.perst = false ∧ t.chip.sys.ready = true ∧
      t = withChip s { s.chip with sys := { s.chip.sys with
        perst := false, ready := true
        otherWake := s.chip.sys.otherWake || (s.chip.sys.perst && s.chip.sys.wokeUp && !(s.chip.sys.wakeRec.head? == some 255)) } }) ∧
  (∀ s : State, s.chip.sys.ready = true → s.chip.sys.perst = false →
    exec .pcieLinkUp s = .next (withChip s { s.chip with sys := { s.chip.sys with link := true } })) ∧
  (∀ s : State, s.chip.sys.ready = false ∨ s.chip.sys.perst = true → exec .pcieLinkUp s = .next s) ∧
  (∀ s : State, ∃ t, exec .perstDeassert s = .next t ∧ t.chip.sys.perst = false ∧
    t.chip.sys.ready = (s.chip.sys.ctl == .up || s.chip.sys.ctl == .rom || s.chip.sys.ctl == .recovery))

/-- With one descriptor at the head of a fetchable SQ, the ring engine fetches it and moves the head past it: the words of a NOP complete OK, an
opcode outside Table 4.15 or a reserved bit set completes BAD_OPCODE (04 R92, R94), and the words that spell another command, with a block
and unit its opcode takes, run as that command. A descriptor whose FENCE holds it is not fetched, and FENCE_WAIT is set; from an SQ that may
not be fetched from nothing is fetched. No descriptor is fetched while a function's host is lost, its ring is not enabled, its SQ is empty,
no slot of its CQ is free, memory requests are not possible, or the cores are halted (04 R87, R92, R93, R103, R390; 03 R77). -/
def Obligations.DescriptorFetch : Prop :=
  (∀ (e : SqHead) (s : State), s.chip.sys.ctl = .up → fetchable s.regs s.chip e = true → fenceHolds s.chip e.hdr = false →
    e.wordsOk = true → e.opc = 0x00 → e.blk = 0 → e.unit = 0 → e.hdr.at_ = none → e.hdr.ncos = false → NoneHeld s →
    ∃ t, exec (.descriptorFetch [e]) s = .next t ∧
      ((t.chip.ring e.pf.val).sqAt e.sq.val).head =
        (((s.chip.ring e.pf.val).sqAt e.sq.val).head + 1) % ringSize (s.regs.c (Reg.SQ_CFG e.pf.val e.sq.val)) ∧
      entryOf s e.hdr St.ok 0 ∈ t.chip.out ∧ SameBut t (withChip s { s.chip with arb := t.chip.arb })) ∧
  (∀ (e : SqHead) (s : State), s.chip.sys.ctl = .up → fetchable s.regs s.chip e = true → fenceHolds s.chip e.hdr = false →
    e.wordsOk = false → NoneHeld s →
    ∃ t, exec (.descriptorFetch [e]) s = .next t ∧
      ((t.chip.ring e.pf.val).sqAt e.sq.val).head =
        (((s.chip.ring e.pf.val).sqAt e.sq.val).head + 1) % ringSize (s.regs.c (Reg.SQ_CFG e.pf.val e.sq.val)) ∧
      entryOf s e.hdr St.badOpcode 0 ∈ t.chip.out ∧ SameBut t (withChip s { s.chip with arb := t.chip.arb })) ∧
  (∀ (e : SqHead) (s : State), s.chip.ctlRuns = true → fetchable s.regs s.chip e = true → fenceHolds s.chip e.hdr = true →
    exec (.descriptorFetch [e]) s = .next (withChip s (s.chip.setRing e.pf.val
      ((s.chip.ring e.pf.val).setSq e.sq.val { (s.chip.ring e.pf.val).sqAt e.sq.val with fenceWait := true })))) ∧
  (∀ (e : SqHead) (s : State), s.chip.ctlRuns = true → fetchable s.regs s.chip e = false → exec (.descriptorFetch [e]) s = .next s) ∧
  (∀ (e : SqHead) (i : Instr) (arb : UMap Arb) (s : State), s.chip.ctlRuns = true → fetchable s.regs s.chip e = true →
    fenceHolds s.chip e.hdr = false → pickNext s.regs s.chip [e] = some (e, arb) → e.wordsOk = true → rawOp e = some i → e.opc ≠ 0x04 → (descOf s i).opc = e.opc → (descOf s i).blk = e.blk → (descOf s i).unit = e.unit →
    (opBlocks e.opc).contains e.blk = true → e.unit < opUnits e.opc e.blk →
    ∃ t, exec i (withChip s (advanceHead s.regs e { s.chip with arb := arb })) = .next t ∧
      exec (.descriptorFetch [e]) s = .next (releaseHeld t)) ∧
  (∀ (e : SqHead) (s : State), (s.chip.ring e.pf.val).hostLost = true ∨ bit (s.regs.c (Reg.RING_CTRL e.pf.val)) 0 = false ∨
      ((s.chip.ring e.pf.val).sqAt e.sq.val).head = ((s.chip.ring e.pf.val).sqAt e.sq.val).tail ∨
      slotFree s.regs s.chip e.pf.val (sqCq s.regs e.pf.val e.sq.val) = false ∨ s.chip.sys.halted = true ∨
      (s.chip.ring e.pf.val).dmaOk = false →
    exec (.descriptorFetch [e]) s = .next s)

/-- Host loss of a function (04 R103): HOST_LOST is set and the episode counted. For a function that owns neither the ports nor the network,
whose policies have a delay, with the cores not halted: source 237 is raised with cause LOST, none of its descriptors waits for AT_TIME any
more, the SAFE_DELAY count of each of its outputs with policy SAFE starts (01 R22, 04 R104), and nothing else changes. -/
def Obligations.HostLossDeclared : Prop :=
  (∀ (pf : Fin 2) (s : State), s.chip.fwRuns = true → s.chip.sys.halted = false → (s.chip.ring pf.val).supervised = true →
    (s.chip.ring pf.val).hostLost = false → ownerSecure s.regs 0x17 0 ≠ (pf.val == 1) → ownerSecure s.regs 0x1C 0 ≠ (pf.val == 1) →
    (∀ y ∈ sleepYards s.chip, ∀ src ∈ yardOutputs s.regs s.chip y, srcSecure s.regs src = (pf.val == 1) → policySafe s.regs s.chip src = true →
      0 < safeDelay s.regs s.chip src) → NoneHeld s →
    ∃ t, exec (.hostLoss pf) s = .next t ∧ (t.chip.ring pf.val).hostLost = true ∧
      (t.chip.ring pf.val).episodes = (s.chip.ring pf.val).episodes + 1 ∧
      (EqReady s pf.val 237 → recordOf s pf.val (evNow s 237 Cls.fault 1) ∈ t.chip.out) ∧
      (∀ j ∈ t.chip.jobs, j.waiting = true → j.h.pf ≠ pf) ∧
      (∀ y ∈ sleepYards s.chip, ∀ src ∈ yardOutputs s.regs s.chip y, srcSecure s.regs src = (pf.val == 1) → policySafe s.regs s.chip src = true →
        (s.chip.safe src).running = false → (s.chip.safe src).reached = false → (s.chip.safe src).due = false →
        (t.chip.safe src).running = true ∧ (t.chip.safe src).start = s.chip.now) ∧
      SameBut t (withChip s { s.chip.setRing pf.val { s.chip.ring pf.val with
        hostLost := true, episodes := (s.chip.ring pf.val).episodes + 1 } with safes := t.chip.safes })) ∧
  (∀ (pf : Fin 2) (s : State), s.chip.fwRuns = true → (s.chip.sys.halted && bit (s.regs.c Reg.DEBUG_CFG) 1) = false →
    (s.chip.ring pf.val).supervised = true → (s.chip.ring pf.val).hostLost = false → NoneHeld s →
    ∃ t, exec (.hostLoss pf) s = .next t ∧ (t.chip.ring pf.val).hostLost = true ∧
      (t.chip.ring pf.val).episodes = (s.chip.ring pf.val).episodes + 1)

/-- An event reaches the EQ of a function (04 R84, R99): it is written at the tail, and tail, phase and sequence number move on; its source's
POST clear, it is discarded; with only the kept slot free an OVERFLOW record takes that slot, collapsing starts and the event is counted;
while the queue collapses and has no further slot it is counted in its source's counter, which saturates at 255. Events before the EQ is
enabled are held in order of occurrence, up to 1,024 of them in CTL (for both functions together: log entry 54); one beyond is only counted,
behind the OVERFLOW that its time will date (04 R391). -/
def Obligations.EventsReachTheQueue : Prop :=
  (∀ (s : State) (pf src cls pay : Nat), s.chip.ctlRuns = true → neverRaised s.chip src = false → srcFns s.regs src = [pf] →
    EqReady s pf src →
    let c := raise s.regs src cls pay s.chip
    recordOf s pf (evNow s src cls pay) ∈ c.out ∧
    (c.ring pf).eq.tail = (if (s.chip.ring pf).eq.tail + 1 = ringSize (s.regs.c (Reg.EQ_CFG pf)) then 0 else (s.chip.ring pf).eq.tail + 1) ∧
    (c.ring pf).eq.phase = (if (s.chip.ring pf).eq.tail + 1 = ringSize (s.regs.c (Reg.EQ_CFG pf)) then !(s.chip.ring pf).eq.phase
      else (s.chip.ring pf).eq.phase) ∧
    (c.ring pf).eq.seq = ((s.chip.ring pf).eq.seq + 1) % 65536 ∧ SameChip c s.chip) ∧
  (∀ (s : State) (pf src cls pay : Nat), srcFns s.regs src = [pf] → bit (s.regs.c (Reg.EQ_CFG pf)) 0 = true →
    bit (s.regs.c (Reg.EVT_ROUTE pf src)) 8 = false → raise s.regs src cls pay s.chip = s.chip) ∧
  (∀ (s : State) (pf src cls pay : Nat), s.chip.ctlRuns = true → neverRaised s.chip src = false → srcFns s.regs src = [pf] →
    bit (s.regs.c (Reg.EQ_CFG pf)) 0 = true → bit (s.regs.c (Reg.EVT_ROUTE pf src)) 8 = true → (s.chip.ring pf).eq.collapsing = false →
    (s.chip.ring pf).dmaOk = true → (s.chip.ring pf).eq.cnt = [] →
    ringSize (s.regs.c (Reg.EQ_CFG pf)) - 2 ≤ occupied (ringSize (s.regs.c (Reg.EQ_CFG pf))) (s.chip.ring pf).eq.head (s.chip.ring pf).eq.tail →
    let c := raise s.regs src cls pay s.chip
    recordOf s pf (evNow s 243 12 1) ∈ c.out ∧ (c.ring pf).eq.collapsing = true ∧
    (c.ring pf).eq.cnt = [(src, { cnt := 1, cls := cls, pay := pay % 2 ^ 32, t := s.chip.mt.val })] ∧ SameChip c s.chip) ∧
  (∀ (s : State) (pf src cls pay : Nat), s.chip.ctlRuns = true → neverRaised s.chip src = false → srcFns s.regs src = [pf] →
    bit (s.regs.c (Reg.EQ_CFG pf)) 0 = true → bit (s.regs.c (Reg.EVT_ROUTE pf src)) 8 = true → (s.chip.ring pf).eq.collapsing = true →
    ringSize (s.regs.c (Reg.EQ_CFG pf)) - 2 ≤ occupied (ringSize (s.regs.c (Reg.EQ_CFG pf))) (s.chip.ring pf).eq.head (s.chip.ring pf).eq.tail →
    let c := raise s.regs src cls pay s.chip
    c.out = s.chip.out ∧ (UMap.get ({} : Coll) (c.ring pf).eq.cnt src).cnt =
      (if (UMap.get ({} : Coll) (s.chip.ring pf).eq.cnt src).cnt < 255 then (UMap.get ({} : Coll) (s.chip.ring pf).eq.cnt src).cnt + 1
        else (UMap.get ({} : Coll) (s.chip.ring pf).eq.cnt src).cnt) ∧
    SameChip c s.chip) ∧
  (∀ (s : State) (pf src cls pay : Nat), s.chip.ctlRuns = true → neverRaised s.chip src = false → srcFns s.regs src = [pf] →
    bit (s.regs.c (Reg.EQ_CFG pf)) 0 = false → (s.chip.ring pf).heldOver = false →
    s.chip.ring0.held.length + s.chip.ring1.held.length < 1024 →
    let c := raise s.regs src cls pay s.chip
    (c.ring pf).held = (s.chip.ring pf).held ++ [evNow s src cls pay] ∧ c.out = s.chip.out ∧ SameChip c s.chip) ∧
  (∀ (s : State) (pf src cls pay : Nat), s.chip.ctlRuns = true → neverRaised s.chip src = false → srcFns s.regs src = [pf] →
    bit (s.regs.c (Reg.EQ_CFG pf)) 0 = false → (s.chip.ring pf).heldOver = false →
    1024 ≤ s.chip.ring0.held.length + s.chip.ring1.held.length →
    let c := raise s.regs src cls pay s.chip
    (c.ring pf).held = (s.chip.ring pf).held ∧ (c.ring pf).heldOver = true ∧ (c.ring pf).heldOverT = s.chip.mt.val ∧
      c.out = s.chip.out ∧ SameChip c s.chip)

/-- A write of a whole word to a set-up register of the pages at offsets 0x08000 to 0x0FFFF takes each field under its access code: the fields
that `via` may write take the value written, the others keep theirs; of registers only that one changes, and besides only what travels to
the halters, and WNA's copy of DWELL (00 R7, 16 R356). A write that does not cover a whole aligned word has no effect (00 R9). Once the boot
lock is set, no write, through either function, changes an RWL field of any register (00 Table 0.4, 14 R319); RST_CMD, which can reset CTL,
is the subject of its own rows. A write through PF0 changes no register whose unit or block belongs to the secure world (00 R7, R392); where
it would have changed a field of one at offsets 0x08000 to 0x0FFFF it raises source 242 with cause 1 and the register's offset. KEY_PROGRAM
with the right KEY takes the hash in UPD_KEYBUF into a blank slot; KEY_REVOKE revokes a programmed slot that neither signs the running image
nor is the last one programmed and not revoked; both set KEY_ERR otherwise and do nothing else (14 R324). A wrong KEY has no effect (14
Table 14.5). Through PF0 the write is a world violation and nothing else (14 R339). -/
def Obligations.RegisterWritesAndKeySlots : Prop :=
  (∀ (via : Fin 2) (off : Fin 1048576) (v : Fin 4294967296) (w : RegRow) (s : State), hostReach s.chip via.val = true → off.val % 4 = 0 →
    0x08000 ≤ off.val → off.val < 0x10000 → regRow off.val = some w → regAbsent s.chip off.val = false → w.w1c = 0 →
    takeMask s.regs s.chip.sys.lock via.val w (w.index off.val) ≠ 0 →
    (via.val = 0 → Nat.xor v.val (s.regs.c off.val) &&& rwsMask s.regs w (w.index off.val) = 0) →
    ∃ t, exec (.registerWrite via off v 15) s = .next t ∧
      SetsReg t s off.val (mergeWord (takeMask s.regs s.chip.sys.lock via.val w (w.index off.val)) (s.regs.c off.val) v.val % 2 ^ 32) ∧
      SameChip t.chip (if off.val = Reg.SHED_HYS 2 then { s.chip with sys := { s.chip.sys with
        dwellD := bits (mergeWord (takeMask s.regs s.chip.sys.lock via.val w (w.index off.val)) (s.regs.c off.val) v.val) 22 16 } }
        else s.chip)) ∧
  (∀ (via : Fin 2) (off : Fin 1048576) (v : Fin 4294967296) (be : Fin 16) (s : State), be.val ≠ 15 ∨ off.val % 4 ≠ 0 →
    exec (.registerWrite via off v be) s = .next s) ∧
  (∀ (via : Fin 2) (off : Fin 1048576) (v : Fin 4294967296) (be : Fin 16) (s t : State), s.chip.sys.lock = true → off.val ≠ Reg.RST_CMD →
    exec (.registerWrite via off v be) s = .next t →
    ∀ k w, regRow k = some w → t.regs.c k &&& w.rwl = s.regs.c k &&& w.rwl) ∧
  (∀ (off : Fin 1048576) (v : Fin 4294967296) (be : Fin 16) (w : RegRow) (s t : State), regRow off.val = some w →
    rowSecure s.regs w (w.index off.val) = true → exec (.registerWrite 0 off v be) s = .next t →
    t.regs = s.regs ∧ t.mram = s.mram ∧ t.pending = s.pending) ∧
  (∀ (off : Fin 1048576) (v : Fin 4294967296) (w : RegRow) (s : State), hostReach s.chip 0 = true → off.val % 4 = 0 →
    0x08000 ≤ off.val → off.val < 0x10000 → regRow off.val = some w → regAbsent s.chip off.val = false → w.w1c = 0 →
    rowSecure s.regs w (w.index off.val) = true → Nat.xor v.val (s.regs.c off.val) &&& rwsMask s.regs w (w.index off.val) ≠ 0 →
    ∃ t, exec (.registerWrite 0 off v 15) s = .next t ∧ t.chip.sys.violations = (s.chip.sys.violations + 1) % 65536 ∧
      Told s t 242 Cls.security (1 + off.val * 65536) ∧
      SameBut t (withChip s { s.chip with sys := { s.chip.sys with violations := (s.chip.sys.violations + 1) % 65536 } })) ∧
  (∀ (slot : Fin 4) (debug : Bool) (s : State), hostReach s.chip 1 = true → (keyAt s.chip.upd slot.val).prog = false →
    ∃ t, exec (.keyProgram 1 slot 0x5E1F debug) s = .next t ∧
      keyAt t.chip.upd slot.val = { hash := keyBuf s.regs, prog := true, revoked := false, debug := debug } ∧
      (∀ k, k < 4 → k ≠ slot.val → keyAt t.chip.upd k = keyAt s.chip.upd k) ∧
      SameBut t (withChip s { s.chip with upd := { s.chip.upd with keys := t.chip.upd.keys, key0 := t.chip.upd.key0 } })) ∧
  (∀ (slot : Fin 4) (debug : Bool) (s : State), hostReach s.chip 1 = true → (keyAt s.chip.upd slot.val).prog = true →
    exec (.keyProgram 1 slot 0x5E1F debug) s = .next (withChip s { s.chip with upd := { s.chip.upd with keyErr := true } })) ∧
  (∀ (slot other : Fin 4) (s : State), hostReach s.chip 1 = true → (keyAt s.chip.upd slot.val).prog = true →
    (s.chip.fwRuns = true → s.chip.upd.execSlot ≠ slot.val) → other ≠ slot → (keyAt s.chip.upd other.val).prog = true → (keyAt s.chip.upd other.val).revoked = false →
    ∃ t, exec (.keyRevoke 1 slot 0x5E1F) s = .next t ∧
      keyAt t.chip.upd slot.val = { keyAt s.chip.upd slot.val with revoked := true } ∧
      (∀ k, k < 4 → k ≠ slot.val → keyAt t.chip.upd k = keyAt s.chip.upd k) ∧
      SameBut t (withChip s { s.chip with upd := { s.chip.upd with keys := t.chip.upd.keys, key0 := t.chip.upd.key0 } })) ∧
  (∀ (slot : Fin 4) (s : State), hostReach s.chip 1 = true →
    (s.chip.fwRuns = true ∧ s.chip.upd.execSlot = slot.val) ∨ (keyAt s.chip.upd slot.val).prog = false ∨
      (∀ k, k < 4 → k ≠ slot.val → (keyAt s.chip.upd k).prog = false ∨ (keyAt s.chip.upd k).revoked = true) →
    exec (.keyRevoke 1 slot 0x5E1F) s = .next (withChip s { s.chip with upd := { s.chip.upd with keyErr := true } })) ∧
  (∀ (slot : Fin 4) (key : Fin 65536) (debug : Bool) (s : State), hostReach s.chip 0 = true →
    ∀ x ∈ [Instr.keyProgram 0 slot key debug, .keyRevoke 0 slot key],
    ∃ t, exec x s = .next t ∧ t.chip.upd = s.chip.upd ∧ Told s t 242 Cls.security (1 + Reg.UPD_KEYCTL * 65536) ∧
      SameBut t (withChip s { s.chip with sys := { s.chip.sys with violations := (s.chip.sys.violations + 1) % 65536 } })) ∧
  (∀ (slot : Fin 4) (key : Fin 65536) (debug : Bool) (s : State), hostReach s.chip 1 = true → key.val ≠ 0x5E1F →
    exec (.keyProgram 1 slot key debug) s = .next s ∧ exec (.keyRevoke 1 slot key) s = .next s)

/-- VBAT_AON past 3.5 V brings WNA out of power-on: RST_CAUSE reads AON_POR alone, COUNT is 0, MTIME starts at 0 in WNA (03 R67, R62). VBAT_AON
lost, the module is OFF: WNA and CTL are reset, MTIME stops, the halters and MRAM keep what they hold (02 R41, 03 R59). Once the
pre-regulator starts, CTL stands in reset, ready for its release, where the module is OFF or a wake waits (03 R67). The halter of a yard
that the module has comes out of power-on when its feed passes 3.5 V, of YC 14 V (02 R32, 03 R67): CLEARED, CTL absent, its configuration at
the reset values, every stall of the yard in OFF. A feed below 2.5 V, of YC 12 V, is lost, and takes its halter's state with it (02 R31,
R33); an adopted yard to which a running CTL is present has its change of band reported with the voltage measured (02 R58). The other yards
stay as they are. -/
def Obligations.PowerOnAndOff : Prop :=
  (∀ (mv : Nat) (s : State), s.chip.sys.aon = false → 3500 ≤ mv →
    ∃ t, exec (.aonPowerOn mv) s = .next t ∧ t.chip.sys.causes = 1 ∧ t.chip.sys.count = 0 ∧ t.chip.mt.val = 0 ∧ t.chip.mt.src = .wna ∧
      (t.chip.feed 4).mv = mv ∧
      t = withChip s { s.chip with
        sys := { s.chip.sys with aon := true, causes := 1, count := 0, xtal40 := true, wnaRc := false
                                 ctl := if s.chip.sys.prereg then .held else .off }
        mt := t.chip.mt, feeds := t.chip.feeds, acc := t.chip.acc }) ∧
  (∀ (mv : Nat) (s : State), mv < 3500 → exec (.aonPowerOn mv) s = .next s) ∧
  (∀ s : State, s.chip.sys.aon = true →
    ∃ t, exec .aonLoss s = .next t ∧ t.chip.sys.power = .off ∧ t.chip.sys.ctl = .off ∧ t.chip.sys.aon = false ∧ t.chip.sys.causes = 0 ∧
      t.chip.mt = {} ∧ t.chip.timers = [] ∧ t.chip.jobs = [] ∧ (t.chip.feed 4).band = 0 ∧ (∀ k, t.regs.c k = (keyReset k).toNat) ∧
      (∀ i, (t.chip.stall i).st = (s.chip.stall i).st ∧ (t.chip.stall i).req = (s.chip.stall i).req) ∧
      (∀ y, (t.chip.yard y).supplied = (s.chip.yard y).supplied) ∧ t.mram = s.mram ∧ t.pending = s.pending) ∧
  (∀ s : State, s.chip.sys.aon = true → s.chip.sys.ctl = .off → s.chip.sys.power = .off ∨ s.chip.sys.wakeRec ≠ [] →
    exec .preregStart s = .next (withChip s { s.chip with sys := { s.chip.sys with prereg := true, ctl := .held } })) ∧
  (∀ s : State, s.chip.sys.aon = false ∨ s.chip.sys.ctl ≠ .off ∨ (s.chip.sys.power ≠ .off ∧ s.chip.sys.wakeRec = []) →
    exec .preregStart s = .next (withChip s { s.chip with sys := { s.chip.sys with prereg := true } })) ∧
  (∀ (y : Fin 4) (mv : Nat) (s : State), yardPresent s.chip y.val = true → (s.chip.yard y.val).supplied = false →
    (if y.val = 2 then 14000 else 3500) ≤ mv →
    ∃ t, exec (.halterPowerOn y mv) s = .next t ∧ (t.chip.yard y.val).supplied = true ∧ (t.chip.yard y.val).cleared = true ∧
      (t.chip.yard y.val).ctlAbsent = true ∧ (t.chip.yard y.val).wdArmed = false ∧ (t.chip.feed (yardFeed y.val)).mv = mv ∧
      (∀ i, i < 64 → stallYard i = y.val → (t.chip.stall i).st = .off ∧ (t.chip.stall i).phase = 0x20 * (i % 8)) ∧
      (∀ k, keyYard k = some y.val → t.regs.h k = (keyReset k).toNat) ∧ (∀ k, keyYard k ≠ some y.val → t.regs.h k = s.regs.h k) ∧
      t.regs.ctl = s.regs.ctl ∧ (∀ k, k ≠ y.val → t.chip.yard k = s.chip.yard k) ∧
      (∀ i, i < 64 → stallYard i ≠ y.val → t.chip.stall i = s.chip.stall i) ∧
      t.mram = s.mram ∧ t.pending = s.pending ∧ t.chip.sys = s.chip.sys ∧ t.chip.jobs = s.chip.jobs) ∧
  (∀ (y : Fin 4) (mv : Nat) (s : State), (s.chip.yard y.val).supplied = true → mv < (if y.val = 2 then 12000 else 2500) → s.chip.cross = [] →
    ∃ t, exec (.feedLoss ⟨y, mv⟩) s = .next t ∧ (t.chip.yard y.val).supplied = false ∧ (t.chip.yard y.val).cleared = true ∧
      (t.chip.feed (yardFeed y.val)).band = 0 ∧
      (∀ i, i < 64 → stallYard i = y.val → (t.chip.stall i).st = .off ∧ (t.chip.stall i).req = false) ∧
      (y.val = 3 → ∀ n, (t.chip.valve n).phase = .idle ∧ (t.chip.sink n).on = false ∧ (t.chip.dout n).on = false) ∧
      (∀ k, keyYard k ≠ some y.val → t.regs.h k = s.regs.h k) ∧ t.regs.ctl = s.regs.ctl ∧
      (∀ k, k ≠ y.val → t.chip.yard k = s.chip.yard k) ∧ t.chip.sys = s.chip.sys ∧ t.mram = s.mram ∧ t.pending = s.pending ∧
      (s.chip.ctlRuns = true → (s.chip.yard y.val).ctlAbsent = false → (s.chip.yard y.val).unreach = false → (s.chip.yard y.val).adopted = true →
        Told s t (224 + yardFeed y.val) Cls.state
          (pay [1, yardFeed y.val, (s.chip.feed (yardFeed y.val)).band % 16 * 16, mv / 10 % 256, mv / 10 / 256 % 256])))

/-- A measurement of a feed is taken. One of a yard that crosses from above lock-out, or the off band of VBAT48, into another band above it,
outside a dwell, is then in the band of 02 Tables 2.2 and 2.3 (12 V class: low from 3 V, normal from 6 V, high from 18 V; 24 V class: low to
16 V, high from 32 V; VBAT48: 24, 36, 52, 60 V; the lower edge belongs to the band, log entry 46), and its halter reports BAND_CHANGE with
both bands and the voltage (R58); besides the feed only the switch inputs of VBAT_D may take note of it. A feed that falls below 3 V
(VBAT48: 24 V) is in lock-out, or its off band, with a dwell to wait for (02 R31 to R33), and its yard with it. Above 3.5 V (26 V) for no
less than the DWELL in force, the dwell is over: the feed takes the band of its voltage, lock-out is left, and of a 12 V feed in the normal
band only the restores of its outputs queue besides. Below that voltage, before that time, or with no dwell to wait for, nothing changes.
The running pre-regulator enters boost mode below 6.5 V and leaves it above 7.0 V, each with an event of source 229 where CTL runs, and once
each (02 R35, R58). -/
def Obligations.FeedBandsAndLockOut : Prop :=
  (∀ (f : Fin 5) (y mv new : Nat) (s : State), f.val < 4 → feedYard f.val = some y → (s.chip.yard y).supplied = true →
    (s.chip.feed f.val).dwell = false → (s.chip.feed f.val).band ≠ new → (s.chip.feed f.val).band ≠ 1 → NoneWaits s → Safety.Reports y s →
    (f.val < 3 ∧ bit (supplyCfg s.regs y) 0 = false ∧
        ((3000 ≤ mv ∧ mv < 6000 ∧ new = 2) ∨ (6000 ≤ mv ∧ mv < 18000 ∧ new = 3) ∨ (18000 ≤ mv ∧ new = 4))) ∨
      (f.val < 3 ∧ bit (supplyCfg s.regs y) 0 = true ∧
        ((3000 ≤ mv ∧ mv < 16000 ∧ new = 2) ∨ (16000 ≤ mv ∧ mv < 32000 ∧ new = 3) ∨ (32000 ≤ mv ∧ new = 4))) ∨
      (f.val = 3 ∧ ((24000 ≤ mv ∧ mv < 36000 ∧ new = 2) ∨ (36000 ≤ mv ∧ mv < 52000 ∧ new = 3) ∨ (52000 ≤ mv ∧ mv < 60000 ∧ new = 4) ∨
        (60000 ≤ mv ∧ new = 5))) →
    ∃ t, exec (.feedBandChange f mv) s = .next t ∧ (t.chip.feed f.val).band = new ∧ (t.chip.feed f.val).mv = mv ∧
      Waits t y (224 + f.val) Cls.state
        (pay [1, f.val, new + (s.chip.feed f.val).band % 16 * 16, mv / 10 % 256, mv / 10 / 256 % 256]) s.chip.mt.val ∧
      SameBut t (withChip s { s.chip.setFeed f.val { s.chip.feed f.val with mv := mv, band := new, dwell := false } with
        halt := if f.val = 2 then { s.chip.halt with sis := t.chip.halt.sis } else s.chip.halt })) ∧
  (∀ (f : Fin 5) (mv : Nat) (s : State), feedMeasured s.chip f.val = true → NoneHeld s →
    ∃ t, exec (.feedBandChange f mv) s = .next t ∧ (t.chip.feed f.val).mv = mv) ∧
  (∀ (f : Fin 5) (mv : Nat) (s : State), feedMeasured s.chip f.val = false → NoneWaits s → exec (.feedBandChange f mv) s = .next s) ∧
  (∀ (f : Fin 5) (y mv : Nat) (s : State), feedYard f.val = some y → (s.chip.yard y).supplied = true →
    (s.chip.feed f.val).band ≠ 1 → mv < (if f.val = 3 then 24000 else 3000) → NoneWaits s →
    ∃ t, exec (.feedBandChange f mv) s = .next t ∧ (t.chip.feed f.val).band = 1 ∧ (t.chip.feed f.val).dwell = true ∧
      (t.chip.yard y).lockout = true ∧ t.regs = s.regs ∧ t.mram = s.mram ∧ t.pending = s.pending) ∧
  (∀ (f : Fin 5) (y mv ms : Nat) (s : State), f.val < 2 → feedYard f.val = some y → (s.chip.yard y).supplied = true →
    bit (supplyCfg s.regs y) 0 = false → (s.chip.feed f.val).band = 1 → (s.chip.feed f.val).dwell = true → 6000 ≤ mv → mv < 18000 →
    10 * min 100 (bits (s.regs.h (Reg.SHED_HYS f.val)) 22 16) ≤ ms →
    ∃ t, exec (.lockoutDwellEnd f ⟨mv, ms⟩) s = .next t ∧ (t.chip.feed f.val).band = 3 ∧ (t.chip.yard y).lockout = false ∧
      SameBut t (withChip s ((s.chip.setYard y { s.chip.yard y with lockout := false, restoreQ := (t.chip.yard y).restoreQ }).setFeed f.val
        { s.chip.feed f.val with mv := mv, band := 3, dwell := false }))) ∧
  (∀ (f : Fin 5) (mv ms : Nat) (s : State), (s.chip.feed f.val).dwell = false ∨ mv ≤ (if f.val = 3 then 26000 else 3500) ∨
      ms < feedDwell s.regs s.chip f.val →
    exec (.lockoutDwellEnd f ⟨mv, ms⟩) s = .next s) ∧
  (∀ (f : Fin 5) (y mv ms : Nat) (s : State), feedYard f.val = some y → (s.chip.yard y).supplied = true → (s.chip.feed f.val).band = 1 →
    (s.chip.feed f.val).dwell = true → (if f.val = 3 then 26000 else 3500) < mv → feedDwell s.regs s.chip f.val ≤ ms →
    ∃ t, exec (.lockoutDwellEnd f ⟨mv, ms⟩) s = .next t ∧ (t.chip.feed f.val).band = bandOf (bit (supplyCfg s.regs y) 0) f.val mv ∧
      (t.chip.feed f.val).mv = mv ∧ (t.chip.feed f.val).dwell = false ∧ (t.chip.yard y).lockout = false ∧ t.regs = s.regs ∧
      t.mram = s.mram ∧ t.pending = s.pending) ∧
  (∀ (mv : Nat) (s : State), s.chip.sys.prereg = true → s.chip.sys.boost = false → mv < 6500 →
    ∃ t, exec (.boostEnter mv) s = .next t ∧ (s.chip.ctlRuns = true → Told s t 229 Cls.info (pay ([0x10, 0xFE, 0] ++ two (mv / 10)))) ∧
      SameBut t (withChip s { s.chip with sys := { s.chip.sys with boost := true } })) ∧
  (∀ (mv : Nat) (s : State), s.chip.sys.prereg = true → s.chip.sys.boost = true → 7000 < mv →
    ∃ t, exec (.boostExit mv) s = .next t ∧ (s.chip.ctlRuns = true → Told s t 229 Cls.info (pay ([0x11, 0xFE, 0] ++ two (mv / 10)))) ∧
      SameBut t (withChip s { s.chip with sys := { s.chip.sys with boost := false } })) ∧
  (∀ (mv : Nat) (s : State), s.chip.sys.prereg = false ∨ s.chip.sys.boost = true ∨ 6500 ≤ mv → exec (.boostEnter mv) s = .next s) ∧
  (∀ (mv : Nat) (s : State), s.chip.sys.prereg = false ∨ s.chip.sys.boost = false ∨ mv ≤ 7000 → exec (.boostExit mv) s = .next s)

/-- A class 1 to 3 whose feed is below its effective threshold is marked shed, and its halter reports it with the voltage; where no output of
the yard has that class, nothing else changes. At or above the threshold nothing is shed. A class restored, at or above the threshold by HYS
and for no less than DWELL, is unmarked, its outputs that wait for their restore queue for a slot, and its halter reports it (02 R48, R50,
R51, R58). Each millisecond the budget manager takes the current of each feed in use and the dissipation, as 02 R54 composes them; with
every value within its limit the counts of values above it are 0 and nothing is sent (02 R54, R56). With no unit sensed these are the branch
of the pre-regulator and 20 mA for each yard in use, and the clamp energy of the millisecond, 0.4 W for each bridge on, the pre-regulator's
input power, 0.3 W, and 0.25 W for each yard in use. The tenth value of VBAT_A in a row above its limit raises OVER_LIMIT. A reservation
lapses (02 R54). A restore slot opens a turn-on episode of the first stall of the yard's queue that still waits for it, and starts it where
an attempt may start (02 R51). A yard reset through PF1 of a yard whose outputs are off clears it and puts it under adoption as CLEARED;
through PF0 it is a world violation and nothing else (03 R72). -/
def Obligations.BudgetSheddingAndRestores : Prop :=
  (∀ (y k : Fin 4) (mv : Nat) (s : State), (s.chip.yard y.val).supplied = true → k.val ≠ 0 → classShed (s.chip.yard y.val) k.val = false →
    mv < shedBelow s.regs (yardFeed y.val) k.val →
    Safety.Reports y.val s → NoneHeld s → (∀ src ∈ shedUnits s.regs s.chip y.val, shedClass s.regs src ≠ k.val) →
    ∃ t, exec (.shed y k mv) s = .next t ∧ classShed (t.chip.yard y.val) k.val = true ∧
      Waits t y.val 231 Cls.limit (pay ([0x30, yardFeed y.val, k.val] ++ two (mv / 10))) s.chip.mt.val ∧
      SameBut t (withChip s (s.chip.setYard y.val (setShed k.val true (s.chip.yard y.val))))) ∧
  (∀ (y k : Fin 4) (mv ms : Nat) (s : State), (s.chip.yard y.val).supplied = true → classShed (s.chip.yard y.val) k.val = true →
    (s.chip.yard y.val).lockout = false → Safety.Reports y.val s →
    shedBelow s.regs (yardFeed y.val) k.val + 100 * bits (s.regs.h (Reg.SHED_HYS (yardFeed y.val))) 7 0 ≤ mv →
    10 * min 100 (bits (s.regs.h (Reg.SHED_HYS (yardFeed y.val))) 22 16) ≤ ms →
    ∃ t, exec (.restore y k ⟨mv, ms⟩) s = .next t ∧ classShed (t.chip.yard y.val) k.val = false ∧
      (∀ src ∈ shedUnits s.regs s.chip y.val, shedClass s.regs src = k.val → wantsRestore s.chip src = true →
        src ∈ (t.chip.yard y.val).restoreQ) ∧
      Waits t y.val 231 Cls.state (pay ([0x31, yardFeed y.val, k.val] ++ two (mv / 10))) s.chip.mt.val ∧
      SameBut t (withChip s (s.chip.setYard y.val { setShed k.val false (s.chip.yard y.val) with restoreQ := (t.chip.yard y.val).restoreQ }))) ∧
  (∀ (y k : Fin 4) (mv : Nat) (s : State), (s.chip.yard y.val).supplied = true → k.val ≠ 0 → classShed (s.chip.yard y.val) k.val = false →
    mv < shedBelow s.regs (yardFeed y.val) k.val → NoneHeld s →
    ∃ t, exec (.shed y k mv) s = .next t ∧ classShed (t.chip.yard y.val) k.val = true) ∧
  (∀ (y k : Fin 4) (mv : Nat) (s : State), shedBelow s.regs (yardFeed y.val) k.val ≤ mv → NoneHeld s → exec (.shed y k mv) s = .next s) ∧
  (∀ (y k : Fin 4) (mv ms : Nat) (s : State), (s.chip.yard y.val).supplied = true → classShed (s.chip.yard y.val) k.val = true →
    shedBelow s.regs (yardFeed y.val) k.val + 100 * bits (s.regs.h (Reg.SHED_HYS (yardFeed y.val))) 7 0 ≤ mv →
    10 * min 100 (bits (s.regs.h (Reg.SHED_HYS (yardFeed y.val))) 22 16) ≤ ms →
    ∃ t, exec (.restore y k ⟨mv, ms⟩) s = .next t ∧ classShed (t.chip.yard y.val) k.val = false) ∧
  (∀ (inA inB preMw : Nat) (loads : List Load) (hs : List (Fin 4 × Nat)) (s : State), s.chip.fwRuns = true → s.chip.sys.halted = false →
    let c := coilLoads loads s.chip
    (∀ f, f < 4 → feedMa c loads inA inB f ≤ feedLimit s.regs f * 1000 ∧ (s.chip.feed f).overRaised = false) →
    moduleMw c loads hs preMw ≤ dissLimit s.regs * 1000 → s.chip.budget.overRaised = false →
    ∃ t, exec (.budgetBlock inA inB preMw loads hs) s = .next t ∧
      (∀ f, f < 4 → (f = 3 → s.chip.ycOff = false) → (t.chip.feed f).iMa = feedMa c loads inA inB f ∧ (t.chip.feed f).overN = 0) ∧
      (s.chip.ycOff = true → t.chip.feed 3 = s.chip.feed 3) ∧
      t.chip.budget = { s.chip.budget with pMw := moduleMw c loads hs preMw, overN := 0, clampUj := 0 } ∧ t.chip.out = s.chip.out ∧
      t.regs = s.regs ∧ t.mram = s.mram ∧ t.pending = s.pending) ∧
  (∀ (inA inB preMw : Nat) (s : State), s.chip.fwRuns = true → s.chip.sys.halted = false → s.chip.ycOff = false →
    ∃ t, exec (.budgetBlock inA inB preMw [] []) s = .next t ∧ (t.chip.feed 0).iMa = inA + 20 ∧ (t.chip.feed 1).iMa = inB + 20 ∧
      (t.chip.feed 2).iMa = 20 ∧ (t.chip.feed 3).iMa = 20 ∧
      t.chip.budget.pMw =
        s.chip.budget.clampUj + 400 * ((List.range 6).filter fun k => outputOn s.chip (80 + k)).length + preMw + 300 + 1000) ∧
  (∀ (inA inB preMw : Nat) (loads : List Load) (hs : List (Fin 4 × Nat)) (s : State), s.chip.fwRuns = true → s.chip.sys.halted = false →
    9 ≤ (s.chip.feed 0).overN → (s.chip.feed 0).overRaised = false →
    let a := feedMa (coilLoads loads s.chip) loads inA inB 0
    feedLimit s.regs 0 * 1000 < a →
    ∃ t, exec (.budgetBlock inA inB preMw loads hs) s = .next t ∧ (t.chip.feed 0).overRaised = true ∧ (t.chip.feed 0).iMa = a ∧
      Told s t 230 Cls.limit (pay ([0x20, 0, 0] ++ two (a / 100) ++ [feedLimit s.regs 0 % 256]))) ∧
  (∀ s : State, s.chip.sys.halted = false →
    exec .reservationLapse s = .next (withChip s { s.chip with budget := { s.chip.budget with resv := s.chip.budget.resv.tail } })) ∧
  (∀ (y : Fin 4) (src : Nat) (rest : List Nat) (s : State), (s.chip.yard y.val).supplied = true → (s.chip.yard y.val).lockout = false →
    (s.chip.yard y.val).restoreQ = src :: rest → src < 64 → wantsRestore s.chip src = true → shedBlocked s.regs s.chip src = false →
    crossBlocked s.regs s.chip src = false →
    ∃ t, exec (.restoreSlot y) s = .next t ∧ (t.chip.yard y.val).restoreQ = rest ∧ (t.chip.stall src).req = true ∧
      (t.chip.stall src).episode = true ∧ (canStart s.regs s.chip src = false → (t.chip.stall src).st = .wait) ∧
      (canStart s.regs s.chip src = true → (t.chip.stall src).st = .ramp ∨ (t.chip.stall src).st = .inrush) ∧ t.regs = s.regs ∧ t.mram = s.mram ∧ t.pending = s.pending) ∧
  (∀ (y : Fin 4) (s : State), (s.chip.yard y.val).supplied = true → (s.chip.yard y.val).lockout = false →
    (∀ src ∈ (s.chip.yard y.val).restoreQ, wantsRestore s.chip src = false) →
    exec (.restoreSlot y) s = .next (withChip s (s.chip.setYard y.val { s.chip.yard y.val with restoreQ := [] }))) ∧
  (∀ (y : Nat) (yards : Fin 16) (s : State), y < 3 → yards.val = 2 ^ y → hostReach s.chip 1 = true → yardResettable s.chip y = true →
    (s.chip.yard y).resetting = false → s.chip.cross = [] → NoneHeld s → (∀ i, i < 64 → stallYard i = y → (s.chip.stall i).st = .off ∧
      outputOn s.chip i = false) →
    ∃ t, exec (.yardReset 1 yards) s = .next t ∧ (t.chip.yard y).res = 3 ∧ (t.chip.yard y).adopting = true ∧
      (t.chip.yard y).adopted = false ∧ (t.chip.yard y).resetting = false ∧ (t.chip.yard y).cleared = true ∧ (t.chip.yard y).frames = [] ∧
      (∀ k, keyYard k = some y → ∀ e ∈ t.regs.halt, e.1 ≠ k) ∧ (∀ k, keyYard k ≠ some y → t.regs.h k = s.regs.h k) ∧
      (∀ i, i < 64 → stallYard i = y → t.chip.stall i = { phase := 0x20 * (i % 8) })) ∧
  (∀ (yards : Fin 16) (s : State), hostReach s.chip 0 = true →
    ∃ t, exec (.yardReset 0 yards) s = .next t ∧ Told s t 242 Cls.security 4 ∧
      SameBut t (withChip s { s.chip with sys := { s.chip.sys with violations := (s.chip.sys.violations + 1) % 65536 } }))

/-- Every CTL reset sets its cause in RST_CAUSE and counts up to 255 (03 R59, R62); CTL is held, its registers are at their reset values,
descriptors in progress are gone, the boot lock is open; the halters keep their configuration and every output on or off, MTIME goes on in
WNA where it ran, MRAM stays (03 R63). RESET_NOTICE goes out on each guyline, but not at a brown-out (03 R64). A CTL_RESET_CMD is one
through a function that the host reaches. RST_CAUSE (03 R62): it reads as the causes in bits 8 to 0 and COUNT in bits 23 to 16; AON power-on
leaves AON_POR alone and COUNT 0; a write clears the cause bits written as 1 and nothing else; the thermal reset, like the others, sets its
bit beside the bits set before and counts, saturating at 255. -/
def Obligations.CtlResets : Prop :=
  (∀ (s : State), s.chip.powered = true →
    ∀ x ∈ [(Instr.brownOut, 1), (.lockstepMismatch, 2), (.firmwareWatchdog, 3), (.pllLockLoss, 4), (.memoryEccError, 5),
        (.ctlResetCmd 0, 6), (.ctlResetCmd 1, 6), (.debugReset, 7)],
      (∀ pf, x.1 = .ctlResetCmd pf → hostReach s.chip pf.val = true) →
      ∃ t, exec x.1 s = .next t ∧ t.chip.sys.causes = s.chip.sys.causes ||| 2 ^ x.2 ∧
        t.chip.sys.count = (if s.chip.sys.count < 255 then s.chip.sys.count + 1 else s.chip.sys.count) ∧ t.chip.sys.ctl = .held ∧
        t.chip.sys.lock = false ∧ t.chip.jobs = [] ∧ t.chip.timers = [] ∧ t.chip.mt.val = s.chip.mt.val ∧ (s.chip.mt.src ≠ .off → t.chip.mt.src = .wna) ∧
        (∀ k, t.regs.c k = (keyReset k).toNat) ∧ t.regs.halt = s.regs.halt ∧ t.mram = s.mram ∧ t.pending = s.pending ∧
        (∀ i, (t.chip.stall i).st = (s.chip.stall i).st ∧ (t.chip.stall i).req = (s.chip.stall i).req ∧
          (t.chip.stall i).duty = (s.chip.stall i).duty) ∧
        (∀ n, (t.chip.valve n).phase = (s.chip.valve n).phase ∧ (t.chip.dout n).on = (s.chip.dout n).on ∧
          (t.chip.sink n).on = (s.chip.sink n).on) ∧
        (∀ y, (t.chip.yard y).supplied = (s.chip.yard y).supplied ∧ (t.chip.yard y).adopted = false) ∧
        (x.2 ≠ 1 → ∀ y, y < 5 → yardPresent s.chip y = true → Out.guy y .resetNotice 0 ∈ t.chip.out) ∧
        (x.2 = 1 → t.chip.out = s.chip.out)) ∧
  (∀ (via : Fin 2) (s : State), hostReach s.chip via.val = true →
    readWord via.val 0x40 s = s.chip.sys.causes % 2 ^ 9 + s.chip.sys.count % 256 * 2 ^ 16) ∧
  (∀ (via : Fin 2) (v : Fin 4294967296) (s : State), hostReach s.chip via.val = true →
    ∃ t, exec (.registerWrite via 0x40 v 15) s = .next t ∧
      SameBut t (withChip s { s.chip with sys := { s.chip.sys with
        causes := s.chip.sys.causes - (s.chip.sys.causes &&& (v.val &&& 0x1FF)) } })) ∧
  (∀ (mv : Nat) (s : State), s.chip.sys.aon = false → 3500 ≤ mv →
    ∃ t, exec (.aonPowerOn mv) s = .next t ∧ t.chip.sys.causes = 1 ∧ t.chip.sys.count = 0) ∧
  (∀ (k : Int) (s : State), s.chip.powered = true → 145000 ≤ k → 0 < s.chip.sys.hotRun →
    ∃ t, exec (.ctlTempMeasure k) s = .next t ∧ t.chip.sys.causes = s.chip.sys.causes ||| 2 ^ 8 ∧
      t.chip.sys.count = (if s.chip.sys.count < 255 then s.chip.sys.count + 1 else s.chip.sys.count))

/-- With CTL running, a first junction measurement from 135 °C on, below 145 °C, raises CTL_HOT, and a first one below 130 °C after it CTL_COOL;
the second in a row at or above 145 °C takes a THERMAL reset, after which WNA holds CTL; a reading of WNA below 125 °C ends the hold, and
one without a hold changes nothing (03 R66). Every measurement without that reset is kept. The baseplate reading is kept for the models (18
R386). The crystals (03 R75, R67): a failed 40 MHz crystal moves CLK_WNA to the RC and resets a powered CTL with CLKMON; its return ends
that, and changes nothing else where no segment validates a wake; a failed 32.768 kHz crystal moves CLK_LF to the RC, uncalibrated, which is
calibrated in STANDBY and RUN, and a stable crystal takes it back. A failure that CTL cannot report waits (log entry 53). -/
def Obligations.TemperaturesAndCrystals : Prop :=
  (∀ (k : Int) (s : State), s.chip.powered = true → s.chip.ctlRuns = true → 135000 ≤ k → k < 145000 → s.chip.sys.hot = false →
    ∃ t, exec (.ctlTempMeasure k) s = .next t ∧ Told s t 236 Cls.warning (pay [1, tempByte k]) ∧
      SameBut t (withChip s { s.chip with sys := { s.chip.sys with ctlT := k, hotRun := 0, hot := true } })) ∧
  (∀ (k : Int) (s : State), s.chip.powered = true → s.chip.ctlRuns = true → k < 130000 → s.chip.sys.hot = true →
    ∃ t, exec (.ctlTempMeasure k) s = .next t ∧ Told s t 236 Cls.state (pay [2, tempByte k]) ∧
      SameBut t (withChip s { s.chip with sys := { s.chip.sys with ctlT := k, hotRun := 0, hot := false } })) ∧
  (∀ (k : Int) (s : State), s.chip.powered = true → 145000 ≤ k → 0 < s.chip.sys.hotRun →
    ∃ t, exec (.ctlTempMeasure k) s = .next t ∧ t.chip.sys.ctl = .held ∧ t.chip.sys.thermHold = true ∧ t.chip.sys.thermEv = true ∧
      t.chip.sys.causes = s.chip.sys.causes ||| 2 ^ 8 ∧ t.mram = s.mram ∧ t.pending = s.pending) ∧
  (∀ (k : Int) (s : State), s.chip.sys.thermHold = true →
    exec (.wnaThermalCheck k) s = .next (withChip s { s.chip with sys := { s.chip.sys with ctlT := k, thermHold := decide (125000 ≤ k) } })) ∧
  (∀ (k : Int) (s : State), exec (.baseplateTempRead k) s = .next (withChip s { s.chip with sys := { s.chip.sys with tbp := k } })) ∧
  (∀ (k : Int) (s : State), s.chip.powered = true → k < 145000 ∨ s.chip.sys.hotRun = 0 →
    ∃ t, exec (.ctlTempMeasure k) s = .next t ∧ t.chip.sys.ctlT = k ∧
      t.chip.sys.hotRun = (if 145000 ≤ k then s.chip.sys.hotRun + 1 else 0) ∧ t.chip.sys.ctl = s.chip.sys.ctl) ∧
  (∀ (k : Int) (s : State), s.chip.sys.thermHold = false → exec (.wnaThermalCheck k) s = .next s) ∧
  (∀ s : State, s.chip.sys.xtal40 = true → s.chip.powered = true →
    ∃ t, exec .xtal40Fail s = .next t ∧ t.chip.sys.xtal40 = false ∧ t.chip.sys.wnaRc = true ∧ t.chip.sys.ctl = .held ∧
      t.chip.sys.causes = s.chip.sys.causes ||| 2 ^ 4 ∧ (∀ k, t.regs.c k = (keyReset k).toNat) ∧ t.mram = s.mram ∧ t.pending = s.pending) ∧
  (∀ s : State, s.chip.sys.aon = true → (∀ n, n < 18 → (s.chip.seg n).st ≠ .validating) →
    exec .xtal40Return s = .next (withChip s { s.chip with sys := { s.chip.sys with xtal40 := true, wnaRc := false } })) ∧
  (∀ s : State, s.chip.sys.xtal32 = true →
    ∃ t, exec .xtal32kFail s = .next t ∧ SameBut t (withChip s { s.chip with sys := { s.chip.sys with
      xtal32 := false, lfCal := false, clkEv := if s.chip.ctlRuns then s.chip.sys.clkEv else s.chip.sys.clkEv + 1 } })) ∧
  (∀ s : State, s.chip.sys.aon = true →
    exec .xtal32kStable s = .next (withChip s { s.chip with sys := { s.chip.sys with xtal32 := true, lfCal := false } })) ∧
  (∀ s : State, s.chip.awake = true → s.chip.sys.xtal32 = false →
    exec .lfRcCalibration s = .next (withChip s { s.chip with sys := { s.chip.sys with lfCal := true } })) ∧
  (∀ s : State, s.chip.sys.aon = true →
    ∃ t, exec .xtal40Return s = .next t ∧ t.chip.sys = { s.chip.sys with xtal40 := true, wnaRc := false }) ∧
  (∀ s : State, s.chip.sys.xtal40 = true → s.chip.powered = false →
    ∃ t, exec .xtal40Fail s = .next t ∧ SameBut t (withChip s { s.chip with sys := { s.chip.sys with
      xtal40 := false, wnaRc := true, clkEv := if s.chip.ctlRuns then s.chip.sys.clkEv else s.chip.sys.clkEv + 1 } }))

/-- CTL held in reset is released once WNA is out of power-on, the pre-regulator runs and no thermal hold stands, and not before: its registers
start at their reset values, apart from those of a timer channel that WNA kept over a wake (03 R67, 11 R266). From the end of memory BIST: a
loader that does not verify leaves CTL in the boot ROM (14 R325). The loader resumes a swap that a cut interrupted, starts one for a STAGED
image, swaps back after REVERT_DUE or a third start of a trial image (14 R330, R331, R333), and enters recovery where the journal says so.
In IDLE, WRITING, or a TRIAL whose start is not counted, it starts an image that verifies in the execution slot, else swaps back to one that
verifies in the staging slot, else enters recovery with the boot lock set (14 R325, R326); a counted start in TRIAL increments BOOTS first.
A slot that no command has written holds its manufacture's image, whose checks the command's operands answer (log entry 41). Registers, but
for PF1's window in recovery, and the slots stay. Firmware sets the registers up from the settings store, then the boot lock is set, and the
events that waited for a start are raised (03 R67 step 7, 14 R319). Of a store that holds one word, that register takes the word's fields
and no other register changes, where the word is outside the ring and timer pages and no coefficient; with an empty store every register
keeps its value. -/
def Obligations.StartOfCtl : Prop :=
  (∀ s : State, s.chip.sys.ctl = .held → s.chip.sys.aon = true → s.chip.sys.prereg = true → s.chip.sys.thermHold = false →
    ∃ t, exec .ctlRelease s = .next t ∧ t.chip.sys.ctl = .bist ∧ t.chip.upd.reverted = false ∧ t.chip.upd.setReset = false ∧
      (∀ k, timerKept s.chip k = false → t.regs.c k = (keyReset k).toNat) ∧ (∀ k, timerKept s.chip k = true → t.regs.c k = s.regs.c k) ∧
      t.regs.halt = s.regs.halt ∧ t.mram = s.mram ∧ t.pending = s.pending ∧
      SameChip t.chip { s.chip with
        sys := { s.chip.sys with ctl := .bist, nonce := t.chip.sys.nonce }
        upd := { s.chip.upd with reverted := false, revReason := 0, setReset := false, noteB := !s.chip.sys.fromWake } }) ∧
  (∀ s : State, s.chip.sys.ctl ≠ .held ∨ s.chip.sys.aon = false ∨ s.chip.sys.prereg = false ∨ s.chip.sys.thermHold = true →
    exec .ctlRelease s = .next s) ∧
  (∀ (exe stage : Fin 8) (s : State), s.chip.sys.ctl = .bist →
    exec (.bootLoader false exe stage) s = .next (withChip s { s.chip with
      sys := { s.chip.sys with ctl := .rom, romFail := true, ready := !s.chip.sys.perst } })) ∧
  (∀ (exe stage : Fin 8) (s : State), s.chip.sys.ctl = .bist → s.chip.upd.jr.st = 3 →
    exec (.bootLoader true exe stage) s = .next (withChip s { s.chip with
      sys := { s.chip.sys with ctl := .swap }, upd := { s.chip.upd with noteB := false } })) ∧
  (∀ (exe stage : Fin 8) (s : State), s.chip.sys.ctl = .bist → s.chip.upd.jr.st = 2 →
    ∃ t, exec (.bootLoader true exe stage) s = .next t ∧ t.chip.sys.ctl = .swap ∧ t.chip.upd.jr.st = 3 ∧ t.chip.upd.jr.sector = 0 ∧
      t.chip.upd.jr.step = 0 ∧ t.chip.upd.jr.seq = s.chip.upd.jr.seq + 1 ∧ t.regs = s.regs ∧ t.mram = s.mram) ∧
  (∀ (stage : Fin 8) (s : State), s.chip.sys.ctl = .bist → s.chip.upd.jr.st = 0 → s.mram.exec = [] →
    (settingsOf s.chip.upd 0).isSome = true →
    exec (.bootLoader true 0 stage) s = .next (withChip s { s.chip with
      sys := { s.chip.sys with ctl := .firmware, sram := [], parts := [(0, 3), (1, 1), (2, 1), (3, 1), (4, 1), (5, 2), (6, 1)] }
      upd := { s.chip.upd with setFmt := 0, execSlot := 0 } })) ∧
  (∀ (exe : Fin 8) (s : State), s.chip.sys.ctl = .bist → s.chip.upd.jr.st = 0 → s.mram.exec = [] → s.mram.stage = [] → exe.val ≠ 0 →
    ∃ t, exec (.bootLoader true exe 0) s = .next t ∧ t.chip.sys.ctl = .swap ∧ t.chip.upd.jr.st = 6 ∧ t.chip.upd.revReason = 3 ∧
      t.regs = s.regs ∧ t.mram = s.mram) ∧
  (∀ (exe stage : Fin 8) (s : State), s.chip.sys.ctl = .bist → s.chip.upd.jr.st = 0 → s.mram.exec = [] → s.mram.stage = [] →
    exe.val ≠ 0 → stage.val ≠ 0 →
    ∃ t, exec (.bootLoader true exe stage) s = .next t ∧ t.chip.sys.ctl = .recovery ∧ t.chip.sys.lock = true ∧ t.chip.upd.jr.st = 7 ∧
      t.regs.c (Reg.WIN_BASE_LO 16) = 7 ∧ t.mram = s.mram) ∧
  (∀ (exe stage : Fin 8) (s : State), s.chip.sys.ctl = .bist → s.chip.upd.jr.st = 6 →
    exec (.bootLoader true exe stage) s = .next (withChip s { s.chip with sys := { s.chip.sys with ctl := .swap }, upd := { s.chip.upd with
      noteB := false
      revReason := if 600 ≤ s.chip.upd.jr.runS then 2 else if 3 ≤ s.chip.upd.jr.boots then 1 else 3 } })) ∧
  (∀ (exe stage : Fin 8) (s : State), s.chip.sys.ctl = .bist →
    s.chip.upd.jr.st = 5 ∨ (s.chip.upd.jr.st = 4 ∧ s.chip.upd.noteB = true ∧ 3 ≤ s.chip.upd.jr.boots) →
    ∃ t, exec (.bootLoader true exe stage) s = .next t ∧ t.chip.sys.ctl = .swap ∧ t.chip.upd.jr.st = 6 ∧
      t.chip.upd.revReason = (if s.chip.upd.jr.st = 5 then 2 else 1) ∧ t.regs = s.regs ∧ t.mram = s.mram) ∧
  (∀ (exe stage : Fin 8) (s : State), s.chip.sys.ctl = .bist → s.chip.upd.jr.st = 7 →
    ∃ t, exec (.bootLoader true exe stage) s = .next t ∧ t.chip.sys.ctl = .recovery ∧ t.chip.sys.lock = true ∧ t.chip.upd.jr = s.chip.upd.jr ∧
      t.regs.c (Reg.WIN_BASE_LO 16) = 7 ∧ t.mram = s.mram) ∧
  (∀ (exe stage : Fin 8) (s : State), s.chip.sys.ctl = .bist → s.chip.upd.jr.st ≤ 1 ∨ s.chip.upd.jr.st = 4 →
    (s.chip.upd.jr.st = 4 ∧ s.chip.upd.noteB = true → s.chip.upd.jr.boots < 3) →
    ∃ t, exec (.bootLoader true exe stage) s = .next t ∧
      (slotReason s.chip s.mram.exec exe.val = 0 → t.chip.sys.ctl = .firmware ∧ t.chip.upd.setFmt = imgSetFmt s.mram.exec ∧
        t.regs = s.regs ∧ t.chip.upd.jr.boots =
          if s.chip.upd.jr.st = 4 ∧ s.chip.upd.noteB = true then s.chip.upd.jr.boots + 1 else s.chip.upd.jr.boots) ∧
      (slotReason s.chip s.mram.exec exe.val ≠ 0 → slotReason s.chip s.mram.stage stage.val = 0 →
        t.chip.sys.ctl = .swap ∧ t.chip.upd.jr.st = 6 ∧ t.chip.upd.revReason = 3 ∧ t.regs = s.regs) ∧
      (slotReason s.chip s.mram.exec exe.val ≠ 0 → slotReason s.chip s.mram.stage stage.val ≠ 0 →
        t.chip.sys.ctl = .recovery ∧ t.chip.sys.lock = true ∧ t.chip.upd.jr.st = 7) ∧ t.mram = s.mram) ∧
  (∀ s : State, s.chip.sys.ctl = .firmware →
    ∃ t, exec .firmwareStart s = .next t ∧ t.chip.sys.ctl = .start ∧ t.chip.sys.lock = true ∧ t.chip.sys.thermEv = false ∧
      t.chip.upd.pendEv = [] ∧ t.mram = s.mram ∧ t.pending = s.pending) ∧
  (∀ s : State, s.chip.sys.ctl = .firmware → (settingsOf s.chip.upd s.chip.upd.setFmt).getD {} = {} →
    ∃ t, exec .firmwareStart s = .next t ∧ t.regs.ctl = s.regs.ctl ∧ t.chip.halt = s.chip.halt ∧ t.chip.timers = s.chip.timers) ∧
  (∀ (x : Settings) (off v : Nat) (w : RegRow) (s : State), s.chip.sys.ctl = .firmware → settingsOf s.chip.upd s.chip.upd.setFmt = some x →
    x.words = [(off, v)] → regRow off = some w → 0x8000 ≤ off → off < 0x30000 ∨ 0x30400 ≤ off → coefWord off = none →
    regAbsent s.chip off = false →
    ∃ t, exec .firmwareStart s = .next t ∧ t.regs.c off = mergeWord (w.rw ||| w.rwl ||| w.rws) (s.regs.c off) v % 2 ^ 32 ∧
      ∀ k, k ≠ off → t.regs.c k = s.regs.c k)

/-- Adoption reads a yard back (03 R68, R69; 16 Table 16.2), at a start and where a yard is adopted again: a halter found CLEARED gives result
3; of any other, with an output whose readback does not reproduce its signature the result is 4, else with outputs whose signatures differ
from those CTL expects 2, with none 1 (stated of YD where the module does not wake from PARK or WATCH); a halter without supply makes the
yard unreachable with result 5. The readback changes no register, and no output of the other yards or of a module that does not wake. Once a
supplied yard under adoption has been read back, its reapplication ends the adoption: the yard is adopted, its halter no longer CLEARED, no
output is left to reapply and no frame of before is on its way (03 R68, R70). With every present yard adopted or unreachable CTL reaches
STANDBY: keep-alives go out, MTIME is CTL's again, the endpoint is ready unless PERST# is asserted, and the heartbeat supervision of both
functions starts (03 R67, 11 R266, 04 R102). -/
def Obligations.AdoptionAndStandby : Prop :=
  (∀ (y : Fin 4) (corrupt : List (Fin 125)) (s : State),
    (s.chip.sys.ctl = .start ∧ (s.chip.yard y.val).adopted = false) ∨ (s.chip.fwRuns = true ∧ (s.chip.yard y.val).adopting = true) →
    yardPresent s.chip y.val = true → (s.chip.yard y.val).unreach = false → (s.chip.yard y.val).readback = false →
    (s.chip.yard y.val).supplied = true →
    ∃ t, exec (.adoption y corrupt) s = .next t ∧ (t.chip.yard y.val).adopting = true ∧ (t.chip.yard y.val).readback = true ∧
      ((s.chip.yard y.val).cleared = true → (t.chip.yard y.val).res = 3) ∧
      ((s.chip.yard y.val).cleared = false → (∃ src ∈ corrupt, src.val ∈ yardOutputs s.regs s.chip y.val) →
        y.val ≠ 3 ∨ s.chip.parked = false → (t.chip.yard y.val).res = 4) ∧
      ((s.chip.yard y.val).cleared = false → corrupt = [] → y.val ≠ 3 ∨ s.chip.parked = false →
        (t.chip.yard y.val).res = if differing s.regs { s.chip with copy := copyYard y.val s.chip.halt s.chip.copy } y.val = [] then 1 else 2) ∧
      t.regs = s.regs ∧ t.mram = s.mram ∧ t.pending = s.pending ∧ (y.val ≠ 3 ∨ s.chip.parked = false → t.chip.halt = s.chip.halt) ∧
      t.chip.sys = s.chip.sys) ∧
  (∀ (y : Fin 4) (corrupt : List (Fin 125)) (s : State),
    (s.chip.sys.ctl = .start ∧ (s.chip.yard y.val).adopted = false) ∨ (s.chip.fwRuns = true ∧ (s.chip.yard y.val).adopting = true) →
    yardPresent s.chip y.val = true → (s.chip.yard y.val).unreach = false → (s.chip.yard y.val).readback = false →
    (s.chip.yard y.val).supplied = false →
    ∃ t, exec (.adoption y corrupt) s = .next t ∧ (t.chip.yard y.val).res = 5 ∧ (t.chip.yard y.val).unreach = true ∧
      Told s t (232 + y.val) Cls.fault 2 ∧
      SameBut t (withChip s (s.chip.setYard y.val { s.chip.yard y.val with res := 5, unreach := true, adopting := false }))) ∧
  (∀ (y : Fin 4) (s : State), s.chip.fwRuns = true → (s.chip.yard y.val).adopting = true → (s.chip.yard y.val).readback = true →
    (s.chip.yard y.val).supplied = true → NoneHeld s →
    ∃ t, exec (.adoptionEnd y) s = .next t ∧ (t.chip.yard y.val).adopted = true ∧ (t.chip.yard y.val).adopting = false ∧
      (t.chip.yard y.val).cleared = false ∧ (t.chip.yard y.val).redo = [] ∧ (t.chip.yard y.val).frames = [] ∧
      t.mram = s.mram ∧ t.pending = s.pending) ∧
  (∀ s : State, s.chip.sys.ctl = .start → (∀ y, y < 4 → yardPresent s.chip y = true → (s.chip.yard y).adopted = true ∨ (s.chip.yard y).unreach = true) →
    ∃ t, exec .standbyReached s = .next t ∧ t.chip.sys.ctl = .up ∧ t.chip.sys.power = .standby ∧ t.chip.sys.ready = (!s.chip.sys.perst) ∧
      t.chip.mt.src = .ctl ∧ t.chip.mt.val = s.chip.mt.val ∧
      (∀ pf, pf < 2 → (t.chip.ring pf).supervised = true ∧ (t.chip.ring pf).lastHb = s.chip.now ∧
        (t.chip.ring pf).tmo = clampN 10 10000 (bits (s.regs.c (Reg.RING_CTRL pf)) 29 16)) ∧
      (∀ y, y < 4 → yardCommandable s.chip y = true → Out.guy y .keepAlive 0 ∈ t.chip.out) ∧ Out.guy 4 .keepAlive 0 ∈ t.chip.out ∧
      t.chip.halt = s.chip.halt ∧ t.regs = s.regs ∧ t.mram = s.mram ∧ t.pending = s.pending) ∧
  (∀ s : State, s.chip.sys.ctl ≠ .start → exec .standbyReached s = .next s)

/-- While firmware runs, a debug halt of the non-secure cores needs NS_EN, one through secure debug its unlock (03 R76); any other is refused
with a world violation (14 R322). Halted, MTIME runs from CLK_LF, access seconds are frozen and no stall changes its state; the release ends
the halt (03 R77), and with no descriptor in progress, nothing that waits to be sent and no sleep commit it gives MTIME back to CTL, sends
nothing and changes no register and no output. While CTL runs, a signature that verifies against a programmed, unrevoked key slot with the
DEBUG permission unlocks secure debug; a bad one starts the refusal, during which no attempt is judged; each attempt counts as a world
violation (14 R323, R322). The refusal ends 10 s after the bad signature, no earlier. -/
def Obligations.DebugHaltAndUnlock : Prop :=
  (∀ (secure : Bool) (s : State), s.chip.fwRuns = true → s.chip.sys.halted = false →
    (if secure then s.chip.sys.unlocked else bit (s.regs.c Reg.DEBUG_CFG) 0) = true →
    ∃ t, exec (.debugHalt secure) s = .next t ∧ t.chip.sys.halted = true ∧ t.chip.mt.src = .lf ∧ t.chip.mt.val = s.chip.mt.val ∧
      t.chip.acc.frozenAt = some s.chip.now ∧ t.regs = s.regs ∧ t.mram = s.mram ∧ t.pending = s.pending ∧
      (∀ i, (t.chip.stall i).st = (s.chip.stall i).st)) ∧
  (∀ (secure : Bool) (s : State), s.chip.fwRuns = true → s.chip.sys.halted = false →
    (if secure then s.chip.sys.unlocked else bit (s.regs.c Reg.DEBUG_CFG) 0) = false →
    ∃ t, exec (.debugHalt secure) s = .next t ∧
      SameBut t (withChip s { s.chip with sys := { s.chip.sys with violations := (s.chip.sys.violations + 1) % 65536 } })) ∧
  (∀ s : State, s.chip.sys.halted = true → s.chip.jobs = [] → s.chip.acc.queue = [] → s.chip.ports = [] →
    s.chip.sys.sleepTo = none →
    ∃ t, exec .debugRelease s = .next t ∧ t.chip.sys.halted = false ∧ t.chip.mt.src = .ctl ∧ t.chip.acc.frozenAt = none ∧
      t.chip.out = s.chip.out ∧ t.chip.halt = s.chip.halt ∧ t.regs = s.regs ∧ t.mram = s.mram ∧ t.pending = s.pending) ∧
  (∀ s : State, s.chip.sys.halted = false → exec .debugRelease s = .next s) ∧
  (∀ s : State, s.chip.sys.halted = true →
    ∃ t, exec .debugRelease s = .next t ∧ t.chip.sys.halted = false ∧ t.chip.acc.frozenAt = none) ∧
  (∀ (sigR sigS : Nat) (s : State), s.chip.ctlRuns = true → s.chip.sys.refuse = false →
    ∃ t, exec (.secureDebugUnlock sigR sigS) s = .next t ∧
      t.chip.sys.unlocked = (s.chip.sys.unlocked || (unlockSlot s.chip sigR sigS).isSome) ∧
      t.chip.sys.refuse = (unlockSlot s.chip sigR sigS).isNone ∧
      SameBut t (withChip s { s.chip with sys := { s.chip.sys with
        unlocked := t.chip.sys.unlocked, refuse := t.chip.sys.refuse, nonce := t.chip.sys.nonce
        refuseT := if (unlockSlot s.chip sigR sigS).isNone then s.chip.now else s.chip.sys.refuseT
        violations := (s.chip.sys.violations + 1) % 65536 } })) ∧
  (∀ (sigR sigS : Nat) (s : State), s.chip.ctlRuns = true → s.chip.sys.refuse = true →
    ∃ t, exec (.secureDebugUnlock sigR sigS) s = .next t ∧
      SameBut t (withChip s { s.chip with sys := { s.chip.sys with violations := (s.chip.sys.violations + 1) % 65536 } })) ∧
  (∀ s : State, s.chip.sys.refuseT + 10000000000 ≤ s.chip.now →
    exec .unlockRefusalEnd s = .next (withChip s { s.chip with sys := { s.chip.sys with refuse := false } })) ∧
  (∀ s : State, s.chip.now < s.chip.sys.refuseT + 10000000000 → exec .unlockRefusalEnd s = .next s)

/-- A command frame that a supplied yard receives is acknowledged, and executed once its turn has come (01 R17): a configuration write whose
turn it is, with no later frame received, puts its word in force in the halter and nowhere else (01 R21); one whose turn has not come is
kept. A duplicate is acknowledged and executed no more. A frame that was never sent, and any at a yard without supply, has no effect. An
acknowledgement of an executed command takes its frame off those that are sent again, and the descriptor whose outcome is known and which
waited for this acknowledgement alone completes with it (01 R17, R18); where no descriptor waited for it nothing else changes. To a yard
that CTL may command, a frame not acknowledged is sent again; when the fourth transmission has gone unanswered, LINK_DEGRADED is raised (01
R18). None is sent to a yard that is unreachable or under adoption (01 R20). A supplied yard sends a status mirror at each interval while
CTL has power, with its state and with the events and results that no mirror has yet taken (01 R19). One that arrives from an adopted yard
with nothing else to settle: its event is posted, its result completes its descriptor, and CTL's copy of the yard is the mirror's. The first
from an unreachable yard makes it reachable, with cause 3, and under adoption again (01 R20, Table 1.8); one before CTL has read the yard
back is not taken, and what it carried travels again (03 R68). However it is taken, it is taken once. -/
def Obligations.GuylineFrames : Prop :=
  (∀ (y : Fin 4) (f : Frame) (l : List Frame) (s : State), (s.chip.yard y.val).supplied = true → (s.chip.yard y.val).frames = f :: l →
    f.seq = (s.chip.yard y.val).nextExec → 0 < f.tx → f.done = false → f.ack = false → f.who = none →
    (∀ g ∈ l, g.seq ≠ f.seq ∧ g.rx = false ∧ g.done = false) → NoneHeld s →
    ∃ t, exec (.guylineCommandRx y f.seq) s = .next t ∧ Out.guy y.val .ack f.seq ∈ t.chip.out ∧
      (t.chip.yard y.val).frames = { f with rx := true, done := true } :: l ∧ (t.chip.yard y.val).nextExec = f.seq + 1 ∧
      (f.off ≠ 0 → t.regs.h (haltKey y.val f.off) = f.val % 2 ^ 32) ∧
      (∀ k, (f.off = 0 ∨ k ≠ haltKey y.val f.off) → t.regs.h k = s.regs.h k) ∧ t.regs.ctl = s.regs.ctl ∧
      t.mram = s.mram ∧ t.pending = s.pending) ∧
  (∀ (y : Fin 4) (f : Frame) (s : State), (s.chip.yard y.val).supplied = true → (s.chip.yard y.val).frames = [f] →
    f.seq < (s.chip.yard y.val).nextExec → 0 < f.tx → f.done = true → f.ack = false → NoneHeld s →
    ∃ t, exec (.guylineCommandRx y f.seq) s = .next t ∧ t.chip.out = .guy y.val .ack f.seq :: s.chip.out ∧ SameBut t s) ∧
  (∀ (y : Fin 4) (f g : Frame) (s : State), (s.chip.yard y.val).supplied = true → frameOf (s.chip.yard y.val) f.seq = some f → 0 < f.tx →
    frameOf (s.chip.yard y.val) (s.chip.yard y.val).nextExec = some g → g.seq ≠ f.seq → g.rx = false → g.done = false → NoneHeld s →
    exec (.guylineCommandRx y f.seq) s = .next (withChip s { s.chip.setYard y.val { s.chip.yard y.val with
      frames := (s.chip.yard y.val).frames.map fun x => if x.seq == f.seq then { x with rx := true } else x } with
      out := .guy y.val .ack f.seq :: s.chip.out })) ∧
  (∀ (y : Fin 4) (seq : Nat) (s : State), (s.chip.yard y.val).supplied = false ∨
      (frameOf (s.chip.yard y.val) seq = none ∧ (s.chip.yard y.val).nextSeq ≤ seq) → NoneHeld s →
    exec (.guylineCommandRx y seq) s = .next s) ∧
  (∀ (y : Fin 4) (f : Frame) (l : List Frame) (j : Job) (st res time : Nat) (s : State), (s.chip.yard y.val).frames = f :: l →
    f.done = true → (∀ g ∈ l, g.seq ≠ f.seq ∧ 0 < g.tx ∧ (g.ack && g.done) = false) →
    s.chip.jobs = [j] → j.unack = [(y.val, f.seq)] → j.outc = some (st, res, time) → j.drop = false → j.turn = none →
    (j.h.ncos && st == St.ok) = false → (s.chip.ring j.h.pf.val).dmaOk = true → st < 0x10 ∨ 0x16 < st ∨ resultKept j.op = true ∨ res = 0 →
    ∃ t, exec (.guylineAckRx y f.seq) s = .next t ∧ (t.chip.yard y.val).frames = l ∧ t.chip.jobs = [] ∧
      Out.completion j.h.pf.val j.cq ((s.chip.ring j.h.pf.val).cqAt j.cq).tail
        (entryWords j.h st time res ((s.chip.ring j.h.pf.val).cqAt j.cq).phase) ∈ t.chip.out ∧ SameBut t s) ∧
  (∀ (y : Fin 4) (f : Frame) (l : List Frame) (s : State), (s.chip.yard y.val).frames = f :: l → (∀ g ∈ l, g.seq ≠ f.seq) →
    f.tx = 1 ∨ f.tx = 2 ∨ f.tx = 3 → f.ack = false → yardCommandable s.chip y.val = true → s.chip.fwRuns = true →
    exec (.guylineRetransmit y f.seq) s = .next (withChip s { s.chip.setYard y.val { s.chip.yard y.val with
      frames := { f with tx := f.tx + 1 } :: l } with out := .guy y.val .command f.seq :: s.chip.out })) ∧
  (∀ (y : Fin 4) (f : Frame) (s : State), frameOf (s.chip.yard y.val) f.seq = some f → f.tx = 4 → f.ack = false →
    yardCommandable s.chip y.val = true → s.chip.fwRuns = true →
    ∃ t, exec (.guylineRetransmit y f.seq) s = .next t ∧ Told s t (232 + y.val) Cls.warning (pay ([1, 4] ++ two (f.seq % 65536))) ∧
      Out.guy y.val .command f.seq ∈ t.chip.out ∧ SameBut t s) ∧
  (∀ (y : Fin 4) (seq : Nat) (s : State), yardCommandable s.chip y.val = false → exec (.guylineRetransmit y seq) s = .next s) ∧
  (∀ (y : Fin 4) (f : Frame) (l : List Frame) (s : State), (s.chip.yard y.val).frames = f :: l → f.rx = true ∨ f.done = true →
    (∀ g ∈ l, g.seq ≠ f.seq ∧ 0 < g.tx ∧ (g.ack && g.done) = false) → (∀ j ∈ s.chip.jobs, (y.val, f.seq) ∉ j.unack) →
    exec (.guylineAckRx y f.seq) s = .next (withChip s (s.chip.setYard y.val { s.chip.yard y.val with
      frames := if f.done then l else { f with ack := true } :: l }))) ∧
  (∀ (y : Fin 4) (s : State), (s.chip.yard y.val).supplied = true → s.chip.sys.ctl ≠ .off →
    ∃ t, exec (.mirrorInterval y) s = .next t ∧ (t.chip.yard y.val).mirrorUp = true ∧
      (t.chip.yard y.val).evTx = (s.chip.yard y.val).evTx ++ (s.chip.yard y.val).evq ∧ (t.chip.yard y.val).evq = [] ∧
      (t.chip.yard y.val).resTx = (s.chip.yard y.val).resTx ++ (s.chip.yard y.val).results ∧ (t.chip.yard y.val).results = [] ∧
      UMap.get {} t.chip.img y.val = s.chip.halt ∧ t.chip.out = .guy y.val .mirror 0 :: s.chip.out ∧ t.chip.halt = s.chip.halt ∧
      (∀ k, k ≠ y.val → t.chip.yard k = s.chip.yard k) ∧ t.regs = s.regs ∧ t.chip.jobs = s.chip.jobs) ∧
  (∀ (y : Fin 4) (ev : Ev) (s : State), (s.chip.yard y.val).mirrorUp = true → s.chip.fwRuns = true → yardPresent s.chip y.val = true →
    (s.chip.yard y.val).adopted = true → (s.chip.yard y.val).unreach = false → (s.chip.yard y.val).cleared = false →
    (s.chip.yard y.val).resetting = false → (s.chip.yard y.val).defer = [] → (s.chip.yard y.val).evTx = [ev] →
    (s.chip.yard y.val).resTx = [] → neverRaised s.chip ev.src = false → NoneHeld s →
    ∃ t, exec (.statusMirrorRx y) s = .next t ∧ (∀ pf ∈ srcFns s.regs ev.src, EqReady s pf ev.src → recordOf s pf ev ∈ t.chip.out) ∧
      (t.chip.yard y.val).mirrorUp = false ∧ (t.chip.yard y.val).evTx = [] ∧
      t.chip.copy = copyYard y.val (UMap.get {} s.chip.img y.val) s.chip.copy ∧
      SameBut t (withChip s { s.chip.setYard y.val { s.chip.yard y.val with mirrorUp := false, evTx := [], resTx := [] } with
        copy := t.chip.copy })) ∧
  (∀ (y : Fin 4) (x : YRes) (j : Job) (s : State), (s.chip.yard y.val).mirrorUp = true → s.chip.fwRuns = true →
    yardPresent s.chip y.val = true → (s.chip.yard y.val).adopted = true → (s.chip.yard y.val).unreach = false →
    (s.chip.yard y.val).cleared = false → (s.chip.yard y.val).resetting = false → (s.chip.yard y.val).defer = [] →
    (s.chip.yard y.val).evTx = [] → (s.chip.yard y.val).resTx = [x] → x.step = none → x.job = j.id → OnlyJob s j → j.held = false →
    j.unack = [] → j.turn = none → x.st < 0x10 ∨ 0x16 < x.st ∨ resultKept j.op = true ∨ x.res = 0 →
    ∃ t, exec (.statusMirrorRx y) s = .next t ∧ Done s t j x.st x.res x.t) ∧
  (∀ (y : Fin 4) (s : State), (s.chip.yard y.val).mirrorUp = true → s.chip.fwRuns = true → yardPresent s.chip y.val = true →
    (s.chip.yard y.val).unreach = true → (s.chip.yard y.val).evTx = [] → (s.chip.yard y.val).resTx = [] → NoneHeld s →
    ∃ t, exec (.statusMirrorRx y) s = .next t ∧ (t.chip.yard y.val).unreach = false ∧ (t.chip.yard y.val).adopting = true ∧
      Told s t (232 + y.val) Cls.link 3) ∧
  (∀ (y : Fin 4) (s : State), (s.chip.yard y.val).mirrorUp = true → s.chip.fwRuns = true → yardPresent s.chip y.val = true →
    (s.chip.yard y.val).unreach = false → (s.chip.yard y.val).adopted = false → (s.chip.yard y.val).readback = false → NoneHeld s →
    exec (.statusMirrorRx y) s = .next (withChip s (s.chip.setYard y.val { s.chip.yard y.val with
      mirrorUp := false, evq := (s.chip.yard y.val).evTx ++ (s.chip.yard y.val).evq, evTx := []
      results := (s.chip.yard y.val).resTx ++ (s.chip.yard y.val).results, resTx := [] }))) ∧
  (∀ (y : Fin 4) (s : State), (s.chip.yard y.val).mirrorUp = true → s.chip.fwRuns = true → yardPresent s.chip y.val = true → NoneHeld s →
    ∃ t, exec (.statusMirrorRx y) s = .next t ∧ (t.chip.yard y.val).mirrorUp = false) ∧
  (∀ (y : Fin 4) (s : State), (s.chip.yard y.val).mirrorUp = false ∨ s.chip.fwRuns = false ∨ yardPresent s.chip y.val = false →
    NoneHeld s → exec (.statusMirrorRx y) s = .next s)

/-- While firmware runs keep-alives go to WNA and to the yards that CTL may command, adopted and reachable ones, and to no other yard (01 R16).
One received ends a declared absence of CTL: a supplied yard's watchdog is armed and the SAFE_DELAY counts of its outputs stop where no host
loss stands and no SAFE action is due (01 R22); WNA reports a band of VBAT_AON that changed meanwhile (01 R25, 02 R58). A yard without
supply does not receive it. At RESET_NOTICE, and at the end of its armed watchdog, a supplied halter to which CTL was present declares it
absent (01 R22, 03 R64). Of the yards of the stalls, whose policies SAFE have a delay above 0, the SAFE_DELAY counts of the outputs with
policy SAFE start and nothing else changes but that the rows run on their own. A watchdog that is not armed ends nothing. WNA in operation
declares CTL absent alike, by its watchdog except in PARK and WATCH (01 R25). A present yard, adopted or under adoption, from which no valid
mirror arrives is declared unreachable with cause 2 of its source (01 R20). Of the yards of the stalls, with no test or cross-check in
progress, no descriptor dispatched to its units is left, one that was the only one in progress having completed BUSY, and nothing else
changes. A SAFE_DELAY count that ends leaves its output, whose policy is SAFE, in its safe state: the count no longer runs and the safe
state is reached (01 R22, 04 R104); a stall in a running cross-check takes it at the cross-check's end (06 Table 6.20). A boost stage that
runs reports it and runs until its sinks are off (09 R230); a valve channel that is idle stays idle; a stall that is off stays off, and one
that is on alone in its gang, with a safe state of off, turns off, each with its SAFE action reported (06 R157). A count that does not run
ends nothing. -/
def Obligations.AbsenceAndSafeStates : Prop :=
  (∀ (y : Fin 5) (s : State), s.chip.fwRuns = true → y.val = 4 ∨ yardCommandable s.chip y.val = true →
    exec (.keepAliveTx y) s = .next (withChip s { s.chip with out := .guy y.val .keepAlive 0 :: s.chip.out })) ∧
  (∀ (y : Fin 5) (s : State), y.val ≠ 4 → yardCommandable s.chip y.val = false → exec (.keepAliveTx y) s = .next s) ∧
  (∀ s : State, ∃ t, exec (.keepAliveRx 4) s = .next t ∧ SameBut t (withChip s { s.chip with sys := { s.chip.sys with
    wnaAbsent := false, wnaWoke := false, aonMissed := s.chip.sys.aonMissed && !s.chip.ctlRuns } })) ∧
  (∀ (y : Fin 5) (s : State), y.val < 4 → (s.chip.yard y.val).supplied = true →
    ∃ t, exec (.keepAliveRx y) s = .next t ∧ (t.chip.yard y.val).ctlAbsent = false ∧ (t.chip.yard y.val).wdArmed = true ∧
      (∀ src ∈ yardOutputs s.regs s.chip y.val, (s.chip.ring (b2n (srcSecure s.regs src))).hostLost = false → (s.chip.safe src).due = false →
        srcYard src = some y.val → (t.chip.safe src).running = false ∧ (t.chip.safe src).reached = false) ∧
      t = withChip s { s.chip.setYard y.val { s.chip.yard y.val with ctlAbsent := false, wdArmed := true } with safes := t.chip.safes }) ∧
  (∀ (y : Fin 5) (s : State), y.val < 4 → (s.chip.yard y.val).supplied = false → exec (.keepAliveRx y) s = .next s) ∧
  (∀ (y : Fin 5) (s : State), y.val < 3 → (s.chip.yard y.val).supplied = true → (s.chip.yard y.val).ctlAbsent = false → NoneHeld s →
    (∀ src ∈ yardOutputs s.regs s.chip y.val, policySafe s.regs s.chip src = true → 0 < safeDelay s.regs s.chip src) →
    ∀ x ∈ [(Instr.resetNotice y, true), (.halterWatchdog y, (s.chip.yard y.val).wdArmed)], x.2 = true →
    ∃ t, exec x.1 s = .next t ∧ (t.chip.yard y.val).ctlAbsent = true ∧
      (∀ src ∈ yardOutputs s.regs s.chip y.val, policySafe s.regs s.chip src = true → (s.chip.safe src).running = false →
        (s.chip.safe src).reached = false → (s.chip.safe src).due = false →
        (t.chip.safe src).running = true ∧ (t.chip.safe src).start = s.chip.now) ∧
      SameBut t (withChip s { s.chip.setYard y.val { s.chip.yard y.val with ctlAbsent := true } with
        safes := t.chip.safes, halt := { s.chip.halt with rows := t.chip.halt.rows } })) ∧
  (∀ (y : Fin 5) (s : State), y.val < 4 → (s.chip.yard y.val).wdArmed = false → NoneHeld s → exec (.halterWatchdog y) s = .next s) ∧
  (∀ s : State, s.chip.sys.aon = true → s.chip.parked = false → NoneHeld s →
    ∀ x ∈ [Instr.resetNotice 4, .halterWatchdog 4],
      exec x s = .next (withChip s { s.chip with sys := { s.chip.sys with wnaAbsent := true } })) ∧
  (∀ (y : Fin 5) (s : State), y.val < 4 → (s.chip.yard y.val).supplied = true → (s.chip.yard y.val).ctlAbsent = false →
    ∃ t, exec (.resetNotice y) s = .next t ∧ (t.chip.yard y.val).ctlAbsent = true) ∧
  (∀ s : State, s.chip.sys.aon = true →
    exec (.resetNotice 4) s = .next (withChip s { s.chip with sys := { s.chip.sys with wnaAbsent := true } })) ∧
  (∀ (y : Fin 5) (s : State), y.val < 4 → (s.chip.yard y.val).supplied = true → (s.chip.yard y.val).ctlAbsent = false →
    (s.chip.yard y.val).wdArmed = true → NoneHeld s →
    ∃ t, exec (.halterWatchdog y) s = .next t ∧ (t.chip.yard y.val).ctlAbsent = true) ∧
  (∀ (y : Fin 4) (s : State), s.chip.fwRuns = true → yardPresent s.chip y.val = true → (s.chip.yard y.val).unreach = false →
    (s.chip.yard y.val).adopted = true → NoneWaits s → (∀ j ∈ s.chip.jobs, j.turn = none) → s.chip.sys.sleepTo = none →
    s.chip.age.tests = [] → y.val ≠ 3 →
    ∃ t, exec (.unreachable y) s = .next t ∧ (t.chip.yard y.val).unreach = true ∧ Told s t (232 + y.val) Cls.fault 2 ∧
      (∀ j ∈ t.chip.jobs, j.waiting = true ∨ unitYard j.blk j.unit ≠ some y.val) ∧
      SameBut t (withChip s (s.chip.setYard y.val { s.chip.yard y.val with unreach := true, adopting := false, readback := false }))) ∧
  (∀ (y : Fin 4) (j : Job) (s : State), s.chip.fwRuns = true → yardPresent s.chip y.val = true → (s.chip.yard y.val).unreach = false →
    (s.chip.yard y.val).adopted = true → NoneWaits s → s.chip.sys.sleepTo = none → s.chip.age.tests = [] → y.val ≠ 3 → OnlyJob s j →
    unitYard j.blk j.unit = some y.val → j.waiting = false → j.turn = none →
    ∃ t, exec (.unreachable y) s = .next t ∧ Done s t j St.busy 0 s.chip.mt.val) ∧
  (∀ (y : Fin 4) (s : State), s.chip.fwRuns = true → yardPresent s.chip y.val = true → (s.chip.yard y.val).unreach = false →
    (s.chip.yard y.val).adopted = true ∨ (s.chip.yard y.val).adopting = true → s.chip.sys.sleepTo = none → NoneHeld s →
    ∃ t, exec (.unreachable y) s = .next t ∧ (t.chip.yard y.val).unreach = true) ∧
  (∀ (src : Fin 125) (s : State), src.val = 90 ∨ src.val = 91 → (s.chip.safe src.val).running = true → policySafe s.regs s.chip src.val = true →
    unitTesting s.chip (srcBlock src.val) (srcUnit src.val) = false → NoneHeld s →
    ∃ t, exec (.safeDelayExpiry src) s = .next t ∧
      ((s.chip.boost (src.val - 90)).running = true → Safety.Reports 3 s →
        Waits t 3 src.val Cls.state (boostPay (src.val - 90) 0x22 s.chip) s.chip.mt.val) ∧
      SameBut t (withChip s (s.chip.setSafe src.val { s.chip.safe src.val with running := false, reached := true, due := false }))) ∧
  (∀ (src : Fin 125) (s : State), 64 ≤ src.val → src.val < 80 → (s.chip.safe src.val).running = true → policySafe s.regs s.chip src.val = true →
    (s.chip.valve (src.val - 64)).phase = .idle → (s.chip.valve (src.val - 64)).testing = false → s.chip.seqs = [] → NoneHeld s →
    exec (.safeDelayExpiry src) s = .next (withChip s (s.chip.setSafe src.val { s.chip.safe src.val with
      running := false, reached := true, due := false }))) ∧
  (∀ (src : Fin 125) (s : State), src.val < 64 → (s.chip.safe src.val).running = true → policySafe s.regs s.chip src.val = true →
    bit (s.regs.h (Reg.STALL_POLICY src.val)) 14 = false → (s.chip.stall src.val).st = .off → (s.chip.stall src.val).crossTest = false →
    (s.chip.stall src.val).testing = false → (s.chip.stall src.val).offJobs = [] → (s.chip.stall src.val).diagJobs = [] →
    (s.chip.stall src.val).job = none → (s.chip.stall src.val).jobsP = [] → Safety.Reports (stallYard src.val) s → NoneHeld s →
    ∃ t, exec (.safeDelayExpiry src) s = .next t ∧ t.chip.stall src.val = { s.chip.stall src.val with cycling := false, clampP := false } ∧
      (t.chip.safe src.val).running = false ∧ (t.chip.safe src.val).reached = true ∧
      Waits t (stallYard src.val) src.val Cls.state (stallPay s.regs src.val 0x22 t.chip) s.chip.mt.val ∧
      SameBut t (withChip s ((s.chip.setSafe src.val { s.chip.safe src.val with running := false, reached := true, due := false }).setStall src.val
        { s.chip.stall src.val with cycling := false, clampP := false }))) ∧
  (∀ (src : Fin 125) (s : State), (s.chip.safe src.val).running = false → NoneHeld s → exec (.safeDelayExpiry src) s = .next s) ∧
  (∀ (src : Fin 125) (s : State), (s.chip.safe src.val).running = true → policySafe s.regs s.chip src.val = true →
    (src.val < 64 → (s.chip.stall src.val).crossTest = false) → NoneHeld s →
    ∃ t, exec (.safeDelayExpiry src) s = .next t ∧ (t.chip.safe src.val).running = false ∧ (t.chip.safe src.val).reached = true) ∧
  (∀ (src : Fin 125) (s : State), src.val < 64 → (s.chip.safe src.val).running = true → policySafe s.regs s.chip src.val = true →
    (s.chip.stall src.val).crossTest = true → NoneHeld s →
    exec (.safeDelayExpiry src) s = .next (withChip s (s.chip.setSafe src.val { s.chip.safe src.val with running := false, due := true }))) ∧
  (∀ (src : Fin 125) (s : State), src.val < 64 → (s.chip.safe src.val).running = true → policySafe s.regs s.chip src.val = true →
    bit (s.regs.h (Reg.STALL_POLICY src.val)) 14 = false → (s.chip.stall src.val).st = .on → gang s.regs s.chip src.val = [src.val] →
    (s.chip.stall src.val).crossTest = false → (s.chip.stall src.val).testing = false → NoneHeld s →
    ∃ t, exec (.safeDelayExpiry src) s = .next t ∧ (t.chip.stall src.val).st = .off ∧ (t.chip.stall src.val).req = false)

/-- An armed source that fires in PARK or WATCH, other than a segment's, is recorded by WNA with its event, and WAKE# is asserted (02 R44). The
first one gives the state that was left and the source of the wake, and powers CTL where the pre-regulator runs. A UHF signal within 10 ms
of a search frame in WATCH is such a wake (13 R310). While WNA has declared CTL absent outside PARK and WATCH the first source to fire is
recorded and asserts WAKE# too (01 R25). A wake, other than a segment's, that meets a sleep commit aborts it: PARK_ABORT to every adopted,
reachable yard, POWER_STATE completes BUSY, MTIME is CTL's again, and the power state stays (12 R285). -/
def Obligations.WakesOfTheModule : Prop :=
  (∀ (src : Fin 256) (p : Fin 281474976710656) (s : State), s.chip.parked = true → s.chip.sys.armed = true → src.val < 173 →
    s.chip.sys.sleepTo = none → s.chip.sys.wakeRec = [] → s.chip.sys.wakePin = false → s.chip.sys.ctl = .off → s.chip.sys.prereg = true →
    ∀ x ∈ [Instr.wake src p, .lateWake src p],
    ∃ t, exec x s = .next t ∧ t.chip.sys.wakeRec = [src.val] ∧
      t.chip.sys.wakeEv = s.chip.sys.wakeEv ++ [evNow s src.val Cls.wake p.val] ∧
      t.chip.sys.wakePin = true ∧ t.chip.sys.ctl = .held ∧ t.chip.sys.left = s.chip.sys.power ∧ t.chip.net.wakeSrc = src.val ∧
      t.chip.out = .wakePin true :: s.chip.out ∧
      t = withChip s { s.chip with sys := t.chip.sys, net := { s.chip.net with
        wakeSrc := src.val, wakeValid := true, wakeFalse := false, returned := false }, out := t.chip.out }) ∧
  (∀ (t0 : Nat) (s : State), s.chip.acc.lfSearchT = some t0 → s.chip.sys.power = .watch → s.chip.mt.val ≤ t0 + 10000000 →
    s.chip.sys.armed = true → s.chip.sys.sleepTo = none → s.chip.sys.wakeRec = [] → s.chip.sys.wakePin = false → s.chip.sys.ctl = .off →
    s.chip.sys.prereg = true →
    ∃ t, exec .tokenWake s = .next t ∧ t.chip.sys.wakeRec = [238] ∧ t.chip.sys.wakePin = true ∧ t.chip.sys.ctl = .held ∧
      t.chip.out = .wakePin true :: s.chip.out) ∧
  (∀ (src : Fin 256) (p : Fin 281474976710656) (s : State), s.chip.parked = true → s.chip.sys.armed = true →
    src.val < 173 ∨ 191 ≤ src.val → s.chip.sys.sleepTo = none →
    ∀ x ∈ [Instr.wake src p, .lateWake src p],
    ∃ t, exec x s = .next t ∧ t.chip.sys.wakeRec = s.chip.sys.wakeRec ++ [src.val] ∧ t.chip.sys.wakePin = true) ∧
  (∀ (src : Fin 256) (p : Fin 281474976710656) (s : State), s.chip.parked = false → s.chip.sys.wnaAbsent = true → s.chip.sys.wnaWoke = false →
    src.val < 173 → s.chip.sys.sleepTo = none →
    ∃ t, exec (.wake src p) s = .next t ∧ t.chip.sys.wakeRec = s.chip.sys.wakeRec ++ [src.val] ∧
      t.chip.sys.wakeEv = s.chip.sys.wakeEv ++ [evNow s src.val Cls.wake p.val] ∧ t.chip.sys.wakePin = true ∧ t.chip.sys.wnaWoke = true) ∧
  (∀ (src : Fin 256) (p : Fin 281474976710656) (target : Power) (s : State) (j : Job), s.chip.sys.armed = true → src.val < 173 →
    s.chip.parked = false → s.chip.sys.sleepTo = some target → s.chip.sys.sleepJob = some j.id → s.chip.jobs = [j] → j.drop = false →
    (s.chip.ring j.h.pf.val).dmaOk = true → s.chip.sys.halted = false → s.chip.sys.wnaAbsent = false →
    ∃ t, exec (.lateWake src p) s = .next t ∧ t.chip.sys.sleepTo = none ∧ t.chip.sys.armed = false ∧ t.chip.sys.power = s.chip.sys.power ∧
      t.chip.mt.src = .ctl ∧ (∀ y, y < 4 → (s.chip.yard y).adopted = true → (s.chip.yard y).unreach = false → Out.guy y .parkAbort 0 ∈ t.chip.out) ∧
      Out.completion j.h.pf.val j.cq ((s.chip.ring j.h.pf.val).cqAt j.cq).tail
        (entryWords j.h St.busy s.chip.mt.val 0 ((s.chip.ring j.h.pf.val).cqAt j.cq).phase) ∈ t.chip.out)

/-- STALL_SET (05 R113, R117, R135), where no earlier command of the yard is on its way. An admitted turn-on of a stall of shed class 0 in OFF
opens an episode with the slot's curve. With every restart condition (06 R144) it starts its first attempt, in RAMP without a curve or with
SLEW_FIRST and in INRUSH otherwise, with its reservation granted (02 R54), and the descriptor stays pending; with one not met it waits, and
the descriptor completes OK with OUTCOME 3. Of a stall that is statically on, a further turn-on completes OK with OUTCOME 1 at once. A
turn-off of an output that is on lets it fall, and the descriptor completes with the fall; one of a stall in WAIT or SHED takes it to OFF
and completes OK, and one of a stall that is off completes OK. No other stall changes. STALL_PWM on a stall that is active (05 R130, R131):
the duty, raised or lowered by the TMIN rule, waits for the row's next wrap, and the descriptor with it; of a stall of shed class 0 in OFF
that may start it opens an episode whose output rises with the next pulse; duties 0 and 0x10000 act as STALL_SET, stated of a stall in OFF.
STALL_PROFILE SELECT (05 R117, R137) sets the slot field of STALL_CFG, in force at once for a stall that is off and deferred for one that is
not. STALL_PROFILE LOAD_USER (05 R136) writes the curve into every halter that CTL may command. All where no earlier command of the yard is
on its way. -/
def Obligations.StallSwitchesAndPwm : Prop :=
  (∀ (h : Hdr) (u : Fin 64) (slewFirst : Bool) (s : State), shedClass s.regs u.val = 0 → (s.chip.stall u.val).st = .off →
    AdmittedYard (stallDesc s 0x10 u.val) h (stallYard u.val) (checks56 s.regs s.chip 0x10 u.val ++ turnOnChecks s.regs s.chip u.val) s →
    canStart s.regs s.chip u.val = true →
    ∃ t, exec (.stallSet h u true slewFirst) s = .next t ∧
      (t.chip.stall u.val).st = (if (slotCurve s.chip (stallYard u.val) (slotOf s.regs u.val)).isEmpty || slewFirst then .ramp else .inrush) ∧
      (t.chip.stall u.val).req = true ∧ (t.chip.stall u.val).out = true ∧ (t.chip.stall u.val).fb = false ∧
      (t.chip.stall u.val).curve = slotCurve s.chip (stallYard u.val) (slotOf s.regs u.val) ∧ (t.chip.stall u.val).tOn = s.chip.now ∧
      (t.chip.stall u.val).job = some s.chip.nextJob ∧ (t.chip.stall u.val).duty = 0 ∧
      SameBut t (withChip s { s.chip.setStall u.val (t.chip.stall u.val) with budget := { s.chip.budget with
        resv := s.chip.budget.resv ++ [{ id := s.chip.budget.nextId, feed := srcFeed u.val, dI := (stallDemand s.regs s.chip u.val).1
                                         dP := (stallDemand s.regs s.chip u.val).2 }]
        nextId := s.chip.budget.nextId + 1 } })) ∧
  (∀ (h : Hdr) (u : Fin 64) (slewFirst : Bool) (s : State), (s.chip.stall u.val).active = true → (s.chip.stall u.val).out = true →
    AdmittedYard (stallDesc s 0x10 u.val) h (stallYard u.val)
      (checks56 s.regs s.chip 0x10 u.val ++ [(u.val / 24 == 2 && s.chip.ycOff, St.supplyLow)]) s →
    ∃ t, exec (.stallSet h u false slewFirst) s = .next t ∧ (t.chip.stall u.val).st = .off ∧ (t.chip.stall u.val).req = false ∧
      (t.chip.stall u.val).out = false ∧ (t.chip.stall u.val).falling = true ∧
      (t.chip.stall u.val).offJobs = (s.chip.stall u.val).offJobs ++ [(s.chip.nextJob, false)] ∧
      SameBut t (withChip s (s.chip.setStall u.val (t.chip.stall u.val)))) ∧
  (∀ (h : Hdr) (u : Fin 64) (slewFirst : Bool) (s : State), (s.chip.stall u.val).st = .off → (s.chip.stall u.val).falling = false →
    AdmittedYard (stallDesc s 0x10 u.val) h (stallYard u.val)
      (checks56 s.regs s.chip 0x10 u.val ++ [(u.val / 24 == 2 && s.chip.ycOff, St.supplyLow)]) s →
    ∃ t, exec (.stallSet h u false slewFirst) s = .next t ∧
      resultOf s St.ok (setResult s.regs s.chip u.val 0 false) ∈ (t.chip.yard (stallYard u.val)).results ∧
      SameBut t (withChip s (s.chip.setStall u.val { s.chip.stall u.val with cycling := false }))) ∧
  (∀ (h : Hdr) (u : Fin 64) (slewFirst : Bool) (s : State), (s.chip.stall u.val).st = .off →
    AdmittedYard (stallDesc s 0x10 u.val) h (stallYard u.val) (checks56 s.regs s.chip 0x10 u.val ++ turnOnChecks s.regs s.chip u.val) s →
    canStart s.regs s.chip u.val = false →
    ∃ t, exec (.stallSet h u true slewFirst) s = .next t ∧ (t.chip.stall u.val).st = .wait ∧ (t.chip.stall u.val).req = true ∧
      (∃ x ∈ (t.chip.yard (stallYard u.val)).results, x.job = s.chip.nextJob ∧ x.res % 4 = 3) ∧
      ∀ i, i ≠ u.val → t.chip.stall i = s.chip.stall i) ∧
  (∀ (h : Hdr) (u : Fin 64) (slewFirst : Bool) (s : State), staticInForce (s.chip.stall u.val) = true →
    AdmittedYard (stallDesc s 0x10 u.val) h (stallYard u.val)
      (checks56 s.regs s.chip 0x10 u.val ++ [(authFails s.regs s.chip u.val, St.authFail)]) s →
    ∃ t, exec (.stallSet h u true slewFirst) s = .next t ∧
      (∃ x ∈ (t.chip.yard (stallYard u.val)).results, x.job = s.chip.nextJob ∧ x.res % 4 = 1) ∧
      SameBut t (withChip s (s.chip.setStall u.val { s.chip.stall u.val with cycling := false }))) ∧
  (∀ (h : Hdr) (u : Fin 64) (slewFirst : Bool) (s : State), (s.chip.stall u.val).st = .wait ∨ (s.chip.stall u.val).st = .shed →
    (s.chip.stall u.val).falling = false →
    AdmittedYard (stallDesc s 0x10 u.val) h (stallYard u.val)
      (checks56 s.regs s.chip 0x10 u.val ++ [(u.val / 24 == 2 && s.chip.ycOff, St.supplyLow)]) s →
    ∃ t, exec (.stallSet h u false slewFirst) s = .next t ∧ (t.chip.stall u.val).st = .off ∧ (t.chip.stall u.val).req = false ∧
      (∃ x ∈ (t.chip.yard (stallYard u.val)).results, x.job = s.chip.nextJob ∧ x.st = St.ok ∧ x.res % 4 = 0) ∧
      SameBut t (withChip s (s.chip.setStall u.val (t.chip.stall u.val)))) ∧
  (∀ (h : Hdr) (u : Fin 64) (duty : Fin 131072) (s : State), 0 < duty.val → duty.val < 0x10000 → (s.chip.stall u.val).active = true →
    AdmittedYard (descStallPwm u duty s) h (stallYard u.val)
      (checks56 s.regs s.chip 0x10 u.val ++ checkSupply s.regs s.chip u.val ++ [(authFails s.regs s.chip u.val, St.authFail)]) s →
    ∃ t, exec (.stallPwm h u duty) s = .next t ∧
      SameBut t (withChip s (s.chip.setStall u.val { s.chip.stall u.val with
        cycling := false, dutyNew := some (dutyApplied s.chip u.val duty.val), clampP := decide (dutyApplied s.chip u.val duty.val ≠ duty.val)
        jobsP := (s.chip.stall u.val).jobsP ++ [s.chip.nextJob] }))) ∧
  (∀ (h : Hdr) (u : Fin 64) (slot : Fin 16) (s : State), (∀ w, w < 8 → rowPending s.regs s.chip w = false) →
    AdmittedYard (descStallProfileSelect u slot s) h (stallYard u.val)
      (checks56 s.regs s.chip 0x10 u.val ++ [(u.val / 24 == 2 && s.chip.ycOff, St.supplyLow)]) s →
    ∃ t, exec (.stallProfileSelect h u slot) s = .next t ∧
      resultOf s St.ok (b2n (!(s.chip.stall u.val).isOff)) ∈ (t.chip.yard (stallYard u.val)).results ∧
      t.regs.c (Reg.STALL_CFG u.val) = setBits (s.regs.c (Reg.STALL_CFG u.val)) 13 10 slot.val ∧
      t.regs.h (Reg.STALL_CFG u.val) = setBits (s.regs.h (Reg.STALL_CFG u.val)) 13 10 slot.val ∧
      (∀ k, k ≠ Reg.STALL_CFG u.val → t.regs.c k = s.regs.c k ∧ t.regs.h k = s.regs.h k) ∧
      (t.chip.stall u.val).slotNew = (if (s.chip.stall u.val).isOff then none else some slot.val) ∧
      (∀ i, i ≠ u.val → t.chip.stall i = s.chip.stall i) ∧ t.mram = s.mram ∧ t.pending = s.pending) ∧
  (∀ (h : Hdr) (u : Fin 64) (user : Bool) (addr : Nat) (pts : List (Nat × Nat)) (s : State),
    Admitted (descStallProfileLoadUser h u user addr pts s) h s → (∀ y, y < 4 → (s.chip.yard y).frames = []) →
    firstFail (checks56 s.regs s.chip 0x10 u.val ++ [(u.val / 24 == 2 && s.chip.ycOff, St.supplyLow)]) = none →
    (∃ y : Fin 4, yardCommandable s.chip y.val = true) →
    ∃ t, exec (.stallProfileLoadUser h u user addr pts) s = .next t ∧
      (∀ y, y < 4 → yardCommandable s.chip y = true → UMap.get flatCurve t.chip.halt.curves (2 * y + b2n user) = pts) ∧
      (∀ y, y < 4 → UMap.get flatCurve t.chip.curves (2 * y + b2n user) = pts) ∧
      (∃ j ∈ t.chip.jobs, j.id = s.chip.nextJob ∧ j.outc = some (St.ok, 0, s.chip.mt.val)) ∧
      (∀ i, (t.chip.stall i).st = (s.chip.stall i).st) ∧ t.regs = s.regs ∧ t.mram = s.mram ∧ t.pending = s.pending) ∧
  (∀ (h : Hdr) (u : Fin 64) (duty : Fin 131072) (s : State), 0 < duty.val → duty.val < 0x10000 → shedClass s.regs u.val = 0 →
    (s.chip.stall u.val).st = .off → canStart s.regs s.chip u.val = true →
    AdmittedYard (descStallPwm u duty s) h (stallYard u.val) (checks56 s.regs s.chip 0x10 u.val ++ turnOnChecks s.regs s.chip u.val) s →
    ∃ t, exec (.stallPwm h u duty) s = .next t ∧
      (t.chip.stall u.val).st = (if (slotCurve s.chip (stallYard u.val) (slotOf s.regs u.val)).isEmpty then .ramp else .inrush) ∧
      (t.chip.stall u.val).req = true ∧ (t.chip.stall u.val).out = false ∧ (t.chip.stall u.val).pulseDue = true ∧
      (t.chip.stall u.val).dutyNew = some (dutyApplied s.chip u.val duty.val) ∧ s.chip.nextJob ∈ (t.chip.stall u.val).jobsP ∧
      (∀ i, i ≠ u.val → t.chip.stall i = s.chip.stall i) ∧ t.regs = s.regs ∧ t.mram = s.mram ∧ t.pending = s.pending) ∧
  (∀ (h : Hdr) (u : Fin 64) (s : State), (s.chip.stall u.val).st = .off → (s.chip.stall u.val).falling = false →
    AdmittedYard (descStallPwm u 0 s) h (stallYard u.val)
      (checks56 s.regs s.chip 0x10 u.val ++ [(u.val / 24 == 2 && s.chip.ycOff, St.supplyLow)]) s →
    ∃ t, exec (.stallPwm h u 0) s = .next t ∧
      resultOf s St.ok (pwmResult s.chip u.val 0 0 false) ∈ (t.chip.yard (stallYard u.val)).results ∧
      SameBut t (withChip s (s.chip.setStall u.val { s.chip.stall u.val with cycling := false }))) ∧
  (∀ (h : Hdr) (u : Fin 64) (s : State), shedClass s.regs u.val = 0 → (s.chip.stall u.val).st = .off → canStart s.regs s.chip u.val = true →
    AdmittedYard (descStallPwm u 0x10000 s) h (stallYard u.val) (checks56 s.regs s.chip 0x10 u.val ++ turnOnChecks s.regs s.chip u.val) s →
    ∃ t, exec (.stallPwm h u 0x10000) s = .next t ∧ (t.chip.stall u.val).active = true ∧ (t.chip.stall u.val).out = true ∧
      (t.chip.stall u.val).duty = 0x10000 ∧ (t.chip.stall u.val).dutyNew = none ∧ (t.chip.stall u.val).job = some s.chip.nextJob ∧
      (t.chip.stall u.val).jobPwm = true)

/-- STALL_CLEAR (06 R145): ATT and TH become 0; a latched stall goes to OFF with its latch causes and its pause cleared, and a halter that can
report reports it; with DIAG the diagnosis flags clear, with CROSS the entries of the cross table on both sides (R153). STALL_DIAG (06 R159)
returns the stall's state, and its record where it has an address; OFFDIAG_NOW on a stall that is off waits for one measurement, where one
is permitted, and else has no effect. All where no earlier command of the yard is on its way. -/
def Obligations.StallClearAndDiag : Prop :=
  (∀ (h : Hdr) (u : Fin 64) (diag : Bool) (s : State), (s.chip.stall u.val).st = .latched →
    AdmittedYard (stallDesc s 0x13 u.val) h (stallYard u.val)
      (checks56 s.regs s.chip 0x10 u.val ++ [(u.val / 24 == 2 && s.chip.ycOff, St.supplyLow)]) s →
    ∃ t, exec (.stallClear h u diag false) s = .next t ∧
      (Safety.Reports (stallYard u.val) s →
        Waits t (stallYard u.val) u.val Cls.state (stallPay s.regs u.val 0x0A t.chip) s.chip.mt.val) ∧
      (∃ j ∈ t.chip.jobs, j.id = s.chip.nextJob ∧ j.outc = some (St.ok, 6 + (s.chip.stall u.val).latches * 16 +
        (s.chip.stall u.val).att * 256 + (s.chip.stall u.val).th * 4096, s.chip.mt.val)) ∧
      SameBut t (withChip s (s.chip.setStall u.val { s.chip.stall u.val with
        att := 0, th := 0, st := .off, fb := false, latchRetry := false, latchTh := false, latchWire := false, pauseEnd := s.chip.now
        episode := false, openLoad := !diag && (s.chip.stall u.val).openLoad, shortVbat := !diag && (s.chip.stall u.val).shortVbat
        onLow := !diag && (s.chip.stall u.val).onLow, dgCnt := if diag then 0 else (s.chip.stall u.val).dgCnt
        dgRep := if diag then none else (s.chip.stall u.val).dgRep }))) ∧
  (∀ (h : Hdr) (u : Fin 64) (diag : Bool) (s : State), (s.chip.stall u.val).st ≠ .latched →
    AdmittedYard (stallDesc s 0x13 u.val) h (stallYard u.val)
      (checks56 s.regs s.chip 0x10 u.val ++ [(u.val / 24 == 2 && s.chip.ycOff, St.supplyLow)]) s →
    ∃ t, exec (.stallClear h u diag false) s = .next t ∧
      SameBut t (withChip s (s.chip.setStall u.val { s.chip.stall u.val with
        att := 0, th := 0, openLoad := !diag && (s.chip.stall u.val).openLoad, shortVbat := !diag && (s.chip.stall u.val).shortVbat
        onLow := !diag && (s.chip.stall u.val).onLow, dgCnt := if diag then 0 else (s.chip.stall u.val).dgCnt
        dgRep := if diag then none else (s.chip.stall u.val).dgRep }))) ∧
  (∀ (h : Hdr) (u : Fin 64) (addr : Nat) (s : State), (s.chip.ring h.fn).dmaOk = true →
    AdmittedYard (descStallDiag u addr s) h (stallYard u.val)
      (checks56 s.regs s.chip 0x10 u.val ++ [(u.val / 24 == 2 && s.chip.ycOff, St.supplyLow)]) s →
    ∃ t, exec (.stallDiag h u false addr) s = .next t ∧
      resultOf s St.ok (diagResult s.regs s.chip u.val) ∈ (t.chip.yard (stallYard u.val)).results ∧
      (addr ≠ 0 → Out.dma h.fn addr (diagRecord s.regs s.chip u.val) ∈ t.chip.out) ∧ SameBut t s) ∧
  (∀ (h : Hdr) (u : Fin 64) (addr : Nat) (s : State), (s.chip.stall u.val).active = false → diagBand s.chip u.val = true →
    (s.chip.stall u.val).crossTest = false →
    AdmittedYard (descStallDiag u addr s) h (stallYard u.val)
      (checks56 s.regs s.chip 0x10 u.val ++ [(u.val / 24 == 2 && s.chip.ycOff, St.supplyLow)]) s →
    ∃ t, exec (.stallDiag h u true addr) s = .next t ∧
      SameBut t (withChip s (s.chip.setStall u.val { s.chip.stall u.val with
        diagJobs := (s.chip.stall u.val).diagJobs ++ [(s.chip.nextJob, addr)] }))) ∧
  (∀ (h : Hdr) (u : Fin 64) (diag : Bool) (s : State),
    AdmittedYard (stallDesc s 0x13 u.val) h (stallYard u.val)
      (checks56 s.regs s.chip 0x10 u.val ++ [(u.val / 24 == 2 && s.chip.ycOff, St.supplyLow)]) s →
    ∃ t, exec (.stallClear h u diag true) s = .next t ∧ (t.chip.stall u.val).att = 0 ∧ (t.chip.stall u.val).th = 0 ∧
      (t.chip.stall u.val).cross = 0 ∧ (∀ j, j < 64 → (t.chip.stall j).cross.testBit u.val = false) ∧
      t.regs = s.regs ∧ t.mram = s.mram ∧ t.pending = s.pending) ∧
  (∀ (h : Hdr) (u : Fin 64) (addr : Nat) (s : State), (s.chip.stall u.val).active = true ∨ diagBand s.chip u.val = false ∨
      (s.chip.stall u.val).crossTest = true →
    AdmittedYard (descStallDiag u addr s) h (stallYard u.val)
      (checks56 s.regs s.chip 0x10 u.val ++ [(u.val / 24 == 2 && s.chip.ycOff, St.supplyLow)]) s →
    ∃ t, exec (.stallDiag h u true addr) s = .next t ∧
      resultOf s St.ok (diagResult s.regs s.chip u.val) ∈ (t.chip.yard (stallYard u.val)).results ∧ SameBut t s)

/-- Diagnosis of a stall (06 R149 to R151, Table 6.5), where the halter can report. The third off-state measurement in a row that agrees is the
verdict, and an open load or a short to the supply of a stall without a flag is flagged and reported, and a NORMAL clears a flag and reports
it; the first one counts only. Low current of an output that is on, in the feed's normal band, is flagged and reported, and its end too.
STALL_CROSSCHECK (06 R152): with none before it, every stall of the mask off or latched, every feed in its normal band and a stall to pulse,
it starts and marks the stalls of the mask as under it, and no other stall changes; behind a running one it waits. A pulse that is not the
last takes the next stall and notes the leaders of the mask whose outputs rose with it, those of the same gang apart, and no stall changes. -/
def Obligations.StallDiagnosisAndCrossCheck : Prop :=
  (∀ (u : Fin 64) (up dn : Int) (k : Nat) (s : State), (s.chip.stall u.val).active = false → diagBand s.chip u.val = true →
    (s.chip.stall u.val).crossTest = false → (s.chip.stall u.val).testing = false → (s.chip.stall u.val).diagJobs = [] →
    bit (s.regs.h (Reg.STALL_DIAG_CFG u.val)) 0 = true → s.chip.awake = true → Safety.Reports (stallYard u.val) s →
    k = verdict up dn (s.chip.feed (srcFeed u.val)).mv → (s.chip.stall u.val).dgKind = k → (s.chip.stall u.val).dgCnt = 2 →
    (k ≠ 0 ∧ (s.chip.stall u.val).openLoad = false ∧ (s.chip.stall u.val).shortVbat = false ∧ (s.chip.stall u.val).onLow = false) ∨
      (k = 0 ∧ (s.chip.stall u.val).openLoad = true) → NoneHeld s →
    ∃ t, exec (.offstateDiag u up dn) s = .next t ∧
      Waits t (stallYard u.val) u.val Cls.diag (stallPay s.regs u.val (if k = 0 then 0x13 else if k = 1 then 0x10 else 0x11) t.chip) s.chip.mt.val ∧
      SameBut t (withChip s (s.chip.setStall u.val { s.chip.stall u.val with
        dgCnt := 3, openLoad := decide (k = 1), shortVbat := decide (k = 2), onLow := false, dgRep := some k }))) ∧
  (∀ (u : Fin 64) (up dn : Int) (s : State), (s.chip.stall u.val).active = false → diagBand s.chip u.val = true →
    (s.chip.stall u.val).crossTest = false → (s.chip.stall u.val).testing = false → (s.chip.stall u.val).diagJobs = [] →
    bit (s.regs.h (Reg.STALL_DIAG_CFG u.val)) 0 = true → s.chip.awake = true → (s.chip.stall u.val).dgCnt = 0 → NoneHeld s →
    exec (.offstateDiag u up dn) s = .next (withChip s (s.chip.setStall u.val { s.chip.stall u.val with
      dgKind := verdict up dn (s.chip.feed (srcFeed u.val)).mv, dgCnt := 1 }))) ∧
  (∀ (u : Fin 64) (low : Bool) (s : State), (s.chip.stall u.val).st = .on → bits (s.regs.h (Reg.STALL_DIAG_CFG u.val)) 15 8 ≠ 0 →
    (s.chip.feed (srcFeed u.val)).band = 3 → (s.chip.stall u.val).onLow = !low → Safety.Reports (stallYard u.val) s → NoneHeld s →
    ∃ t, exec (.onLowCurrent u low) s = .next t ∧
      Waits t (stallYard u.val) u.val (if low then Cls.warning else Cls.diag) (stallPay s.regs u.val (if low then 0x12 else 0x13) t.chip)
        s.chip.mt.val ∧
      SameBut t (withChip s (s.chip.setStall u.val { s.chip.stall u.val with onLow := low }))) ∧
  (∀ (h : Hdr) (u : Fin 64) (mask addr : Nat) (s : State), Admitted (descStallCrosscheck h u mask addr s) h s →
    firstFail (checks56 s.regs s.chip 0x10 u.val ++
      [((maskYards mask).any fun y => !(y == 2 && s.chip.ycOff) && ((s.chip.yard y).unreach || (s.chip.yard y).adopting ||
          (s.chip.yard y).resetting), St.busy),
       (u.val / 24 == 2 && s.chip.ycOff, St.supplyLow)]) = none →
    s.chip.cross = [] → firstFail (crossStepOne s.regs s.chip mask) = none →
    (maskStalls s.regs s.chip mask).any (fun i => pulsable s.regs s.chip i) = true →
    ∃ t, exec (.stallCrosscheck h u mask addr) s = .next t ∧
      t.chip.cross = [{ job := s.chip.nextJob, mask := mask, started := true
                        todo := (maskStalls s.regs s.chip mask).filter fun i => pulsable s.regs s.chip i
                        missed := (maskStalls s.regs s.chip mask).length -
                          ((maskStalls s.regs s.chip mask).filter fun i => pulsable s.regs s.chip i).length }] ∧
      (∀ i ∈ maskStalls s.regs s.chip mask, t.chip.stall i = { s.chip.stall i with crossTest := true }) ∧
      (∀ i, i ∉ maskStalls s.regs s.chip mask → t.chip.stall i = s.chip.stall i) ∧
      SameBut t (withChip s { s.chip with cross := t.chip.cross, halt := { s.chip.halt with stalls := t.chip.halt.stalls } })) ∧
  (∀ (hits : List (Fin 64)) (tripped : Bool) (x : Cross) (i j : Nat) (todo : List Nat) (rest : List Cross) (s : State),
    s.chip.cross = x :: rest → x.started = true → x.todo = i :: j :: todo → s.chip.sys.halted = false →
    (∀ k, k < 64 → (s.chip.safe k).due = false) → NoneHeld s →
    exec (.crossPulse hits tripped) s = .next (withChip s { s.chip with cross := { x with
      todo := j :: todo, pulsed := x.pulsed ||| 2 ^ i, missed := x.missed + b2n tripped
      found := x.found ++ (((hits.map fun k => k.val).filter fun k => x.mask.testBit k && k != i && leader s.regs s.chip k == k &&
        leader s.regs s.chip k != leader s.regs s.chip i).map fun k => (i, k)) } :: rest })) ∧
  (∀ (h : Hdr) (u : Fin 64) (mask addr : Nat) (x : Cross) (rest : List Cross) (s : State), Admitted (descStallCrosscheck h u mask addr s) h s →
    firstFail (checks56 s.regs s.chip 0x10 u.val ++
      [((maskYards mask).any fun y => !(y == 2 && s.chip.ycOff) && ((s.chip.yard y).unreach || (s.chip.yard y).adopting ||
          (s.chip.yard y).resetting), St.busy),
       (u.val / 24 == 2 && s.chip.ycOff, St.supplyLow)]) = none →
    s.chip.cross = x :: rest → x.started = true → x.todo ≠ [] →
    ∃ t, exec (.stallCrosscheck h u mask addr) s = .next t ∧ t.chip.cross = s.chip.cross ++ [{ job := s.chip.nextJob, mask := mask }] ∧
      SameBut t (withChip s { s.chip with cross := t.chip.cross }))

/-- Trips (05 R119, R125; 06 R141 to R143, R147): a current of a member above the L(t) of its stall or gang while that is in INRUSH or ON, a
current above its short-circuit threshold, two hot samples of a member, a reverse voltage or an overlong ramp of a stall or gang that is
active takes the output off and counts the attempt. Below RETRY_N and TH_M it waits for its next attempt; at one of them it latches and
stays off. A short with the output below 10 % of the feed is SHORT_GND. A short while the output falls after a turn-off only makes it fall
fast. The wire model (05 R121, R122): the rise follows its equation each millisecond (the step is the model's, log entry 8); with the model
enabled an active stall trips at TLIM less MARGIN and keeps its rise until it has halved. With the model disabled, and below the limit, only
the model moves. -/
def Obligations.StallTripsAndWireModel : Prop :=
  (∀ (u : Fin 64) (ma : Nat) (s : State), (s.chip.stall (leader s.regs s.chip u.val)).st = .inrush ∨ (s.chip.stall (leader s.regs s.chip u.val)).st = .on →
    (s.chip.stall (leader s.regs s.chip u.val)).limNow < ma → NoneHeld s →
    ∃ t, exec (.tripOc u ma) s = .next t ∧
      Tripped (withChip s (s.chip.setStall u.val { s.chip.stall u.val with iMa := ma })) t (leader s.regs s.chip u.val) .oc) ∧
  (∀ (u : Fin 64) (ma mv : Nat) (s : State), (s.chip.stall (leader s.regs s.chip u.val)).active = true →
    scThreshold (s.chip.stall (leader s.regs s.chip u.val)) (leader s.regs s.chip u.val) < ma → NoneHeld s →
    ∃ t, exec (.tripSc u ma mv) s = .next t ∧
      Tripped (withChip s (s.chip.setStall u.val { s.chip.stall u.val with iMa := ma })) t (leader s.regs s.chip u.val)
        (if (10 * mv : Int) < (s.chip.feed (srcFeed (leader s.regs s.chip u.val))).mv then .shortGnd else .sc)) ∧
  (∀ (u : Fin 64) (s : State), (s.chip.stall (leader s.regs s.chip u.val)).active = true → tripHot s.regs s.chip u.val = true → NoneHeld s →
    ∃ t, exec (.tripThermal u) s = .next t ∧ Tripped s t (leader s.regs s.chip u.val) .thermal) ∧
  (∀ (u : Fin 64) (s : State), (s.chip.stall (leader s.regs s.chip u.val)).active = true → NoneHeld s →
    ∃ t, exec (.shortVbatOn u) s = .next t ∧ Tripped s t (leader s.regs s.chip u.val) .reverse) ∧
  (∀ (u : Fin 64) (s : State), (s.chip.stall u.val).st = .ramp → NoneHeld s →
    ∃ t, exec (.rampTimeout u) s = .next t ∧ Tripped s t u.val .ramp) ∧
  (∀ (u : Fin 64) (ma mv : Nat) (s : State), (s.chip.stall (leader s.regs s.chip u.val)).active = false → (s.chip.stall (leader s.regs s.chip u.val)).falling = true →
    scThreshold (s.chip.stall (leader s.regs s.chip u.val)) (leader s.regs s.chip u.val) < ma → NoneHeld s →
    exec (.tripSc u ma mv) s = .next (withChip s (s.chip.setStall (leader s.regs s.chip u.val) { s.chip.stall (leader s.regs s.chip u.val) with fast := true }))) ∧
  (∀ (u : Fin 64) (i2 : Nat) (s : State), bit (s.regs.h (Reg.STALL_WIRE u.val)) 31 = false ∨
      wireAmb s.regs s.chip u.val + wireStep s.regs s.chip u.val i2 < (wireLimit s.regs u.val : Rat) → NoneHeld s →
    exec (.wireModelUpdate u i2) s = .next (withChip s (s.chip.setStall u.val { s.chip.stall u.val with
      rise := wireStep s.regs s.chip u.val i2
      wireWait := match (s.chip.stall u.val).wireWait with
        | some x => if wireStep s.regs s.chip u.val i2 ≤ x / 2 then none else some x
        | none => none }))) ∧
  (∀ (u : Fin 64) (i2 : Nat) (s : State), bit (s.regs.h (Reg.STALL_WIRE u.val)) 31 = true → (s.chip.stall u.val).active = true →
    (wireLimit s.regs u.val : Rat) ≤ wireAmb s.regs s.chip u.val + wireStep s.regs s.chip u.val i2 → NoneHeld s →
    ∃ t, exec (.wireModelUpdate u i2) s = .next t ∧ (t.chip.stall u.val).rise = wireStep s.regs s.chip u.val i2 ∧
      (t.chip.stall u.val).wireWait = some (wireStep s.regs s.chip u.val i2) ∧ Tripped s t u.val .wire)

/-- A stall's life between commands. Samples are taken over, and L(t) follows (05 R114, R133); RAMP and INRUSH end in ON (05 R114, R119), a ramp
in PWM held on until the row's wrap (R120); WAIT ends in the next attempt once every restart condition holds (06 R144), which a halter that
can report reports; a clean run zeroes ATT and TH (06 R146); a row's wrap puts pending duties and phases in force (05 R129, R130) and ends
the hold of a ramp; a pulse drives an output in PWM, and its start completes what waits for the duty in force (05 R135). -/
def Obligations.StallRuns : Prop :=
  (∀ (u : Fin 64) (ma mv tj ref : Int) (s : State), leader s.regs s.chip u.val = u.val → NoneHeld s →
    ∃ t, exec (.stallSenseSample u ma mv tj ref) s = .next t ∧ (t.chip.stall u.val).iMa = ma ∧ (t.chip.stall u.val).vMv = mv ∧
      (t.chip.stall u.val).tj = tj ∧
      (t.chip.stall u.val).tHot = (if 1000 * (tsdE s.regs s.chip u.val : Int) ≤ tj then min 2 ((s.chip.stall u.val).tHot + 1) else 0) ∧
      (t.chip.stall u.val).tDyn = (if 80000 ≤ tj - ref then min 2 ((s.chip.stall u.val).tDyn + 1) else 0) ∧
      (t.chip.stall u.val).limNow = limitAt s.regs (s.chip.stall u.val) u.val
        (if (s.chip.stall u.val).pulseDue then 0 else s.chip.now - (s.chip.stall u.val).tOn) ∧
      (t.chip.stall u.val).st = (s.chip.stall u.val).st ∧
      SameBut t (withChip s ((s.chip.setRow (stallRow u.val) { s.chip.row (stallRow u.val) with ref := ref }).setStall u.val
        (t.chip.stall u.val)))) ∧
  (∀ (u : Fin 64) (s : State), (s.chip.stall u.val).st = .ramp → NoneHeld s →
    exec (.rampEnd u) s = .next (withChip s (s.chip.setStall u.val { s.chip.stall u.val with
      st := .on, limNow := ilimE s.regs (s.chip.stall u.val) u.val
      rampHold := decide (0 < (s.chip.stall u.val).dutyDue) && decide ((s.chip.stall u.val).dutyDue < 0x10000) }))) ∧
  (∀ (u : Fin 64) (s : State), (s.chip.stall u.val).st = .inrush → (s.chip.stall u.val).pulseDue = false → NoneHeld s →
    exec (.inrushEnd u) s = .next (withChip s (s.chip.setStall u.val { s.chip.stall u.val with
      st := .on, limNow := ilimE s.regs (s.chip.stall u.val) u.val, wasOn := true }))) ∧
  (∀ (u : Fin 64) (s : State), (s.chip.stall u.val).st = .wait → canStart s.regs s.chip u.val = true → NoneHeld s →
    ∃ t, exec (.restart u) s = .next t ∧
      (t.chip.stall u.val).st = (if (s.chip.stall u.val).fb || (s.chip.stall u.val).curve.isEmpty ||
        ((s.chip.stall u.val).first && (s.chip.stall u.val).slewFirst) then .ramp else .inrush) ∧
      (t.chip.stall u.val).tOn = s.chip.now ∧ (t.chip.stall u.val).att = (s.chip.stall u.val).att ∧
      (Safety.Reports (stallYard u.val) s →
        Waits t (stallYard u.val) u.val Cls.state (stallPay s.regs u.val 9 t.chip) s.chip.mt.val) ∧
      SameBut t (withChip s (s.chip.setStall u.val (t.chip.stall u.val)))) ∧
  (∀ (u : Fin 64) (s : State), (s.chip.stall u.val).st = .on → bits (s.regs.h (Reg.STALL_PROT u.val)) 23 16 ≠ 0 → NoneHeld s →
    exec (.cleanRun u) s = .next (withChip s (s.chip.setStall u.val { s.chip.stall u.val with att := 0, th := 0 }))) ∧
  (∀ (w : Fin 8) (s : State), NoneHeld s →
    ∃ t, exec (.rowPeriodWrap w) s = .next t ∧ (t.chip.row w.val).start = s.chip.now ∧
      (∀ i, stallRow i = w.val →
        (t.chip.stall i).duty = (s.chip.stall i).dutyNew.getD (s.chip.stall i).duty ∧ (t.chip.stall i).dutyNew = none ∧
        (t.chip.stall i).phase = (s.chip.stall i).phaseNew.getD (s.chip.stall i).phase ∧ (t.chip.stall i).phaseNew = none ∧
        (t.chip.stall i).st = (s.chip.stall i).st) ∧
      (∀ i, stallRow i = w.val → (s.chip.stall i).st = .on → (s.chip.stall i).rampHold = true →
        (t.chip.stall i).out = false ∧ (t.chip.stall i).rampHold = false) ∧
      (∀ i, stallRow i ≠ w.val → t.chip.stall i = s.chip.stall i) ∧
      SameBut t (withChip s { s.chip with halt := { s.chip.halt with stalls := t.chip.halt.stalls, rows := t.chip.halt.rows } })) ∧
  (∀ (u : Fin 64) (s : State), (s.chip.stall u.val).active = true → 0 < (s.chip.stall u.val).duty → (s.chip.stall u.val).duty < 0x10000 →
    (s.chip.stall u.val).dutyNew = none → NoneHeld s →
    ∃ t, exec (.pwmPulse u true) s = .next t ∧
      (∀ id ∈ (s.chip.stall u.val).jobsP,
        { job := id, st := okStatus s.regs s.chip u.val, res := pwmResult s.chip u.val (s.chip.stall u.val).duty 1 false, t := s.chip.mt.val } ∈
          (t.chip.yard (stallYard u.val)).results) ∧
      SameBut t (withChip s (s.chip.setStall u.val { s.chip.stall u.val with
        out := true, falling := false, pulseDue := false
        tOn := if (s.chip.stall u.val).pulseDue then s.chip.now else (s.chip.stall u.val).tOn
        limNow := if (s.chip.stall u.val).pulseDue then limitAt s.regs (s.chip.stall u.val) u.val 0 else (s.chip.stall u.val).limNow
        jobsP := [], clampP := false }))) ∧
  (∀ (u : Fin 64) (s : State), (s.chip.stall u.val).st = .inrush ∨ (s.chip.stall u.val).st = .on → 0 < (s.chip.stall u.val).duty →
    (s.chip.stall u.val).duty < 0x10000 → (s.chip.stall u.val).rampHold = false → NoneHeld s →
    exec (.pwmPulse u false) s = .next (withChip s (s.chip.setStall u.val { s.chip.stall u.val with
      out := false, falling := (s.chip.stall u.val).out || (s.chip.stall u.val).falling })))

/-- The valve commands, where no earlier command of YD is on its way (07 R164, R165, R170 to R172, R176, R178). An admitted fire of a channel
that is idle or in an indefinite hold, whose peak fits into the group's budget, enters PEAK with its peak and hold targets, and the group
high side is on unless the group is latched or the over-voltage cut is in force; the low side is fully on with the rail. One that does not
fit waits in the group's queue, which a halter that can report reports as PEAK_DEFER_START. A RELEASE of an idle channel completes OK at
once; in PEAK, TRANS and HOLD it sends the channel to END, and a deferred fire is withdrawn. VALVE_CLEAR clears the channel latch, with
GROUP the group's and with DIAG the flags, and returns the status before. An admitted VALVE_SEQ that names no channel of a running one is
held in CTL with its steps (07 R179). A step of the only running sequence whose instant has come and whose checks pass is fired as a fire of
its own, stated where its peak fits into an empty queue and no earlier command of YD is on its way; a RELEASE step of an idle channel is
recorded OK at once. One whose checks fail is recorded with their status, stated where another step is still open. -/
def Obligations.ValveCommandsAndSequences : Prop :=
  (∀ (h : Hdr) (u : Fin 16) (hold : Fin 65536) (ipk : Fin 2048) (ihold : Fin 1024) (peak : Nat) (s : State),
    AdmittedYard (fireDesc s u.val ipk.val ihold.val) h 3 (fireChecks s.regs s.chip u.val hold.val ipk.val) s →
    (s.chip.vg (u.val / 4)).queue = [] →
    peak = (if ipk.val = 0 then cfgPeak s.regs u.val else ipk.val) → peakSum s.chip (u.val / 4) + peak ≤ peakBudget s.regs (u.val / 4) →
    ∃ t, exec (.valveFire h u hold ipk ihold) s = .next t ∧ (t.chip.valve u.val).phase = .peak ∧ (t.chip.valve u.val).ipk = peak ∧
      (t.chip.valve u.val).ihold = min peak (if ihold.val = 0 then cfgHold s.regs u.val else ihold.val) ∧
      (t.chip.valve u.val).holdMs = hold.val ∧ (t.chip.valve u.val).tAdm = s.chip.now ∧
      (t.chip.valve u.val).who = some (s.chip.nextJob, none) ∧
      (t.chip.vg (u.val / 4)).hsOn = (!(s.chip.vg (u.val / 4)).latch && !s.chip.halt.ovCut) ∧
      (t.chip.valve u.val).ls = (t.chip.vg (u.val / 4)).hsOn ∧ (t.chip.vg (u.val / 4)).queue = [] ∧
      OnlyValve (withChip s { s.chip with budget := { s.chip.budget with
        resv := s.chip.budget.resv ++ [{ id := s.chip.budget.nextId, feed := 2, dI := (fireDemand s.regs s.chip u.val ipk.val).1
                                         dP := (fireDemand s.regs s.chip u.val ipk.val).2 }]
        nextId := s.chip.budget.nextId + 1 } }) t u.val) ∧
  (∀ (h : Hdr) (u : Fin 16) (hold : Fin 65536) (ipk : Fin 2048) (ihold : Fin 1024) (s : State),
    AdmittedYard (fireDesc s u.val ipk.val ihold.val) h 3 (fireChecks s.regs s.chip u.val hold.val ipk.val) s →
    (s.chip.valve u.val).phase = .idle → (s.chip.vg (u.val / 4)).queue = [] → 0 < peakSum s.chip (u.val / 4) →
    peakBudget s.regs (u.val / 4) < peakSum s.chip (u.val / 4) + (if ipk.val = 0 then cfgPeak s.regs u.val else ipk.val) →
    0 < peakWait s.regs (u.val / 4) →
    ∃ t, exec (.valveFire h u hold ipk ihold) s = .next t ∧ (t.chip.valve u.val).phase = .defer ∧
      (t.chip.vg (u.val / 4)).queue = [u.val] ∧ (t.chip.valve u.val).tReq = s.chip.now ∧
      (Safety.Reports 3 s → Waits t 3 (64 + u.val) Cls.info (valvePay u.val 1 t.chip) s.chip.mt.val) ∧
      (∀ n, n ≠ u.val → lowOf (s.chip.valve n) (t.chip.valve n) = s.chip.valve n) ∧ t.regs = s.regs ∧ t.mram = s.mram ∧ t.pending = s.pending) ∧
  (∀ (h : Hdr) (u : Fin 16) (hold : Fin 65536) (ipk : Fin 2048) (ihold : Fin 1024) (s : State),
    AdmittedYard (fireDesc s u.val ipk.val ihold.val) h 3 (checks56 s.regs s.chip 0x13 u.val) s →
    ((s.chip.valve u.val).phase = .idle →
      ∃ t, exec (.valveRelease h u hold ipk ihold) s = .next t ∧ resultOf s St.ok 0 ∈ (t.chip.yard 3).results ∧ SameBut t s) ∧
    ((s.chip.valve u.val).phase = .peak ∨ (s.chip.valve u.val).phase = .trans ∨ (s.chip.valve u.val).phase = .hold →
        u.val ∉ (s.chip.vg (u.val / 4)).queue →
      ∃ t, exec (.valveRelease h u hold ipk ihold) s = .next t ∧
        t.chip.valve u.val = lowOf (t.chip.valve u.val) { s.chip.valve u.val with
          phase := .end_, released := true, endSt := (s.chip.valve u.val).okSt, fastEnd := endDecay (s.chip.valve u.val)
          relWho := (s.chip.valve u.val).relWho ++ [(s.chip.nextJob, none)] } ∧ (t.chip.valve u.val).ls = false) ∧
    ((s.chip.valve u.val).phase = .defer →
      ∃ t, exec (.valveRelease h u hold ipk ihold) s = .next t ∧ (t.chip.valve u.val).phase = .idle ∧ (t.chip.valve u.val).who = none ∧
        { job := s.chip.nextJob, st := St.ok, t := s.chip.mt.val } ∈ (t.chip.yard 3).results)) ∧
  (∀ (h : Hdr) (u : Fin 16) (diag group : Bool) (s : State),
    AdmittedYard (descValveClear u) h 3 (checks56 s.regs s.chip 0x13 u.val ++
      [(group && (groupChannels (u.val / 4)).any fun m => (s.chip.valve m).active, St.busy)]) s →
    ∃ t, exec (.valveClear h u diag group) s = .next t ∧
      resultOf s St.ok (valveStatus s.regs s.chip u.val % 256) ∈ (t.chip.yard 3).results ∧
      (t.chip.valve u.val).latched = false ∧ (t.chip.valve u.val).latchCause = 0 ∧
      (t.chip.valve u.val).openLoad = (!diag && (s.chip.valve u.val).openLoad) ∧
      (t.chip.valve u.val).shortGnd = (!diag && (s.chip.valve u.val).shortGnd) ∧
      (t.chip.valve u.val).shortVbat = (!diag && (s.chip.valve u.val).shortVbat) ∧
      (t.chip.valve u.val).phase = (s.chip.valve u.val).phase ∧
      (t.chip.vg (u.val / 4)).latch = (!group && (s.chip.vg (u.val / 4)).latch) ∧
      (∀ n, n ≠ u.val → t.chip.valve n = s.chip.valve n) ∧
      SameBut t (withChip s { s.chip with halt := { s.chip.halt with valves := t.chip.halt.valves, vgs := t.chip.halt.vgs } })) ∧
  (∀ (h : Hdr) (u : Fin 16) (hold : Fin 65536) (ihold : Fin 1024) (s : State),
    AdmittedYard (fireDesc s u.val 0 ihold.val) h 3 (fireChecks s.regs s.chip u.val hold.val 0) s →
    (s.chip.vg (u.val / 4)).queue = [] → peakBudget s.regs (u.val / 4) < cfgPeak s.regs u.val → peakSum s.chip (u.val / 4) = 0 →
    ∃ t, exec (.valveFire h u hold 0 ihold) s = .next t ∧ (t.chip.valve u.val).phase = .peak ∧
      (t.chip.valve u.val).ipk = peakBudget s.regs (u.val / 4) ∧ (t.chip.valve u.val).clamped = true) ∧
  (∀ (h : Hdr) (u : Fin 16) (trig : Option (Fin 32)) (addr : Nat) (steps : List SeqStep) (s : State),
    Admitted (descValveSeq u trig addr steps) h s →
    firstFail (checks56 s.regs s.chip 0x13 u.val ++
      [(s.chip.seqs.any fun q => q.steps.any fun k => steps.any fun x => x.ch.val == k.ch, St.busy)]) = none →
    ∃ t, exec (.valveSeq h u trig addr steps) s = .next t ∧
      SameBut t (withChip s { s.chip with seqs := s.chip.seqs ++ [{
        job := s.chip.nextJob, steps := steps.map fun x => { ch := x.ch.val, rel := x.rel, hold := x.hold.val, delay := x.delay.val }
        trig := trig.map fun k => k.val, t0 := s.chip.mt.val }] })) ∧
  (∀ (k : Fin 64) (x : VSeq) (y : VStep) (s : State), s.chip.fwRuns = true → s.chip.seqs = [x] → x.steps[k.val]? = some y →
    y.fired = false → y.st = none → y.rel = false → stepDue s.chip x k.val y = true →
    firstFail (fireChecks s.regs s.chip y.ch y.hold 0) = none → (s.chip.yard 3).frames = [] →
    (s.chip.vg (y.ch / 4)).queue = [] → peakSum s.chip (y.ch / 4) + cfgPeak s.regs y.ch ≤ peakBudget s.regs (y.ch / 4) →
    ∃ t, exec (.valveSeqStep 0 k) s = .next t ∧ (t.chip.valve y.ch).phase = .peak ∧ (t.chip.valve y.ch).holdMs = y.hold ∧
      (t.chip.valve y.ch).ipk = cfgPeak s.regs y.ch ∧ (t.chip.valve y.ch).who = some (x.job, some k.val) ∧
      t.chip.seqs = [{ x with steps := x.steps.modify k.val fun y => { y with fired := true } }] ∧
      Out.guy 3 .command (s.chip.yard 3).nextSeq ∈ t.chip.out ∧
      (∀ n, n ≠ y.ch → lowOf (s.chip.valve n) (t.chip.valve n) = s.chip.valve n) ∧ t.regs = s.regs ∧ t.mram = s.mram ∧ t.pending = s.pending) ∧
  (∀ (k : Fin 64) (x : VSeq) (y : VStep) (s : State), s.chip.fwRuns = true → s.chip.seqs = [x] → x.steps[k.val]? = some y →
    y.fired = false → y.st = none → y.rel = true → stepDue s.chip x k.val y = true →
    firstFail (checks56 s.regs s.chip 0x13 y.ch) = none → (s.chip.yard 3).frames = [] → (s.chip.valve y.ch).phase = .idle →
    ∃ t, exec (.valveSeqStep 0 k) s = .next t ∧
      { job := x.job, st := St.ok, res := 1, step := some k.val, t := s.chip.mt.val } ∈ (t.chip.yard 3).results ∧
      SameBut t (withChip s { s.chip with seqs := [{ x with steps := x.steps.modify k.val fun y => { y with fired := true } }] })) ∧
  (∀ (k j : Fin 64) (x : VSeq) (y z : VStep) (st : Nat) (s : State), s.chip.fwRuns = true → s.chip.seqs = [x] → x.steps[k.val]? = some y →
    y.fired = false → y.st = none → y.rel = false → stepDue s.chip x k.val y = true →
    firstFail (fireChecks s.regs s.chip y.ch y.hold 0) = some st → x.steps[j.val]? = some z → j ≠ k → z.st = none →
    exec (.valveSeqStep 0 k) s = .next (withChip s { s.chip with seqs := [{ x with steps := x.steps.modify k.val fun y => { y with
      st := some st, done := false } }] }))

/-- The phases of a fire (07 R165, R168, R171): PEAK_REACHED notes T_RISE, PEAK_END enters TRANS, HOLD_REACHED enters HOLD, or END without a
hold time, HOLD_END enters END, and in END the channel becomes inactive and its fire completes with the status it ended with; without I_PEAK
in time PEAK goes to HOLD with a warning; a request deferred for PEAK_WAIT leaves the queue and completes PEAK_DEFER. The low side is off in
TRANS and END (Table 7.2). What else the other channels of the group do is stated for an empty queue. -/
def Obligations.ValvePhases : Prop :=
  (∀ (u : Fin 16) (s : State), (s.chip.valve u.val).phase = .peak → (s.chip.valve u.val).reached = false → NoneHeld s →
    ∃ t, exec (.peakReached u) s = .next t ∧
      t.chip.valve u.val = lowOf (t.chip.valve u.val) { s.chip.valve u.val with
        reached := true, tRise := min 0xFFE ((s.chip.now - (s.chip.valve u.val).tAdm) / 10000), iMa := 10 * (s.chip.valve u.val).ipk } ∧
      OnlyValve s t u.val) ∧
  (∀ (u : Fin 16) (s : State), (s.chip.valve u.val).phase = .peak → (s.chip.valve u.val).reached = true → NoneHeld s →
    ∃ t, exec (.peakEnd u) s = .next t ∧
      t.chip.valve u.val = lowOf (t.chip.valve u.val) { s.chip.valve u.val with phase := .trans } ∧ (t.chip.valve u.val).ls = false ∧
      ((s.chip.vg (u.val / 4)).queue = [] → OnlyValve s t u.val)) ∧
  (∀ (u : Fin 16) (s : State), (s.chip.valve u.val).phase = .peak → (s.chip.valve u.val).reached = false →
    0 < (s.chip.valve u.val).holdMs → (s.chip.valve u.val).holdMs < 65535 → NoneHeld s →
    ∃ t, exec (.peakTimeout u) s = .next t ∧
      (Safety.Reports 3 s → Waits t 3 (64 + u.val) Cls.warning (valvePay u.val 3 s.chip) s.chip.mt.val) ∧
      t.chip.valve u.val = lowOf (t.chip.valve u.val) { s.chip.valve u.val with phase := .hold, pkTmo := true, tRise := 0xFFF } ∧
      ((s.chip.vg (u.val / 4)).queue = [] → OnlyValve s t u.val)) ∧
  (∀ (u : Fin 16) (s : State), (s.chip.valve u.val).phase = .trans → NoneHeld s →
    (0 < (s.chip.valve u.val).holdMs → (s.chip.valve u.val).holdMs < 65535 →
      ∃ t, exec (.holdReached u) s = .next t ∧ t.chip.valve u.val = lowOf (t.chip.valve u.val) { s.chip.valve u.val with
          phase := .hold, iMa := 10 * (s.chip.valve u.val).ihold } ∧
        ((s.chip.vg (u.val / 4)).queue = [] → OnlyValve s t u.val)) ∧
    ((s.chip.valve u.val).holdMs = 0 →
      ∃ t, exec (.holdReached u) s = .next t ∧ t.chip.valve u.val = lowOf (t.chip.valve u.val) { s.chip.valve u.val with
          phase := .end_, endSt := (s.chip.valve u.val).okSt, fastEnd := endDecay (s.chip.valve u.val)
          iMa := 10 * (s.chip.valve u.val).ihold } ∧ (t.chip.valve u.val).ls = false ∧ OnlyValve s t u.val)) ∧
  (∀ (u : Fin 16) (s : State), (s.chip.valve u.val).phase = .hold → (s.chip.valve u.val).holdMs ≠ 65535 → NoneHeld s →
    ∃ t, exec (.holdEnd u) s = .next t ∧ t.chip.valve u.val = lowOf (t.chip.valve u.val) { s.chip.valve u.val with
        phase := .end_, endSt := (s.chip.valve u.val).okSt, fastEnd := endDecay (s.chip.valve u.val) } ∧
      (t.chip.valve u.val).ls = false ∧ OnlyValve s t u.val) ∧
  (∀ (u : Fin 16) (clampUj id : Nat) (step : Option Nat) (s : State), (s.chip.valve u.val).phase = .end_ →
    (s.chip.valve u.val).who = some (id, step) → (s.chip.valve u.val).reached = true → (s.chip.valve u.val).pkTmo = false → NoneHeld s →
    ∃ t, exec (.valveEndDone u clampUj) s = .next t ∧ (t.chip.valve u.val).phase = .idle ∧ (t.chip.valve u.val).who = none ∧
      { job := id, st := (s.chip.valve u.val).endSt
        res := if step.isSome then b2n (s.chip.valve u.val).adm else (s.chip.valve u.val).tRise +
          flagBits [(12, false), (13, (s.chip.valve u.val).released), (14, false)] + min 8191 (s.chip.valve u.val).waited * 65536
        step := step, t := s.chip.mt.val } ∈ (t.chip.yard 3).results ∧
      (t.chip.valve u.val).wear = (s.chip.valve u.val).wear + wearUnits clampUj 25000 ∧
      (t.chip.vg (u.val / 4)).hsOn = (!(s.chip.vg (u.val / 4)).latch && !s.chip.halt.ovCut &&
        (groupChannels (u.val / 4)).any fun n => n != u.val && (s.chip.valve n).active) ∧
      OnlyValve (withChip s { s.chip with budget := t.chip.budget }) t u.val) ∧
  (∀ (u : Fin 16) (id : Nat) (step : Option Nat) (s : State), (s.chip.valve u.val).phase = .defer →
    (s.chip.valve u.val).who = some (id, step) → NoneHeld s →
    ∃ t, exec (.peakDeferTimeout u) s = .next t ∧ (t.chip.valve u.val).phase = .idle ∧
      (∃ x ∈ (t.chip.yard 3).results, x.job = id ∧ x.step = step ∧ x.st = St.peakDefer ∧
        (step = none → x.res / 65536 = min 8191 ((s.chip.now - (s.chip.valve u.val).tReq) / 1000))) ∧
      (Safety.Reports 3 s → Waits t 3 (64 + u.val) Cls.warning (valvePay u.val 2 t.chip) s.chip.mt.val) ∧
      ((s.chip.vg (u.val / 4)).queue = [u.val] → (t.chip.vg (u.val / 4)).queue = [] ∧ OnlyValve s t u.val))

/-- Protection of the valves (07 R169, R173 to R175): the duty window moves by one bin; a channel at the duty cap of its fire ends it with
DUTY_LIMIT; an on-state fault latches the channel and ends its fire LATCHED, with slow decay after a thermal one; a group fault latches the
group, opens its high side and ends its active channels with slow decay, their fires LATCHED (log entry 56); the over-voltage cut opens
every high side until its release; three off-state measurements that agree report their verdict, stated of an open load. -/
def Obligations.ValveProtection : Prop :=
  (∀ (u : Fin 16) (s : State), NoneHeld s →
    exec (.dutyBinAdvance u) s = .next (withChip s (s.chip.setValve u.val { s.chip.valve u.val with
      bins := (0 :: ((s.chip.valve u.val).bins.headD 0 +
        (if (s.chip.valve u.val).active then s.chip.now - (s.chip.valve u.val).actT else 0)) :: (s.chip.valve u.val).bins.tail).take 100
      actT := s.chip.now }))) ∧
  (∀ (u : Fin 16) (s : State), (s.chip.valve u.val).active = true → (s.chip.valve u.val).endSt ≠ St.duty →
    dutyPct (s.chip.valve u.val).dutyCfg < 100 →
    dutyPct (s.chip.valve u.val).dutyCfg * dutyWin (s.chip.valve u.val).dutyCfg ≤ 100 * dutyUsed s.chip (s.chip.valve u.val) → NoneHeld s →
    ∃ t, exec (.dutyCut u) s = .next t ∧ (t.chip.valve u.val).phase = .end_ ∧ (t.chip.valve u.val).endSt = St.duty ∧
      (Safety.Reports 3 s → Waits t 3 (64 + u.val) Cls.limit (valvePay u.val 9 t.chip) s.chip.mt.val) ∧
      ((s.chip.valve u.val).phase ≠ .end_ → (t.chip.valve u.val).fastEnd = endDecay (s.chip.valve u.val)) ∧
      ((s.chip.vg (u.val / 4)).queue = [] → OnlyValve s t u.val)) ∧
  (∀ (u : Fin 16) (kind : Fin 3) (s : State), (s.chip.valve u.val).phase = .peak ∨ (s.chip.valve u.val).phase = .trans ∨
      (s.chip.valve u.val).phase = .hold → NoneHeld s →
    ∃ t, exec (.valveFault u kind) s = .next t ∧
      (Safety.Reports 3 s → Waits t 3 (64 + u.val) Cls.latched (valvePay u.val (valveFaultCause kind.val) t.chip) s.chip.mt.val) ∧
      t.chip.valve u.val = lowOf (t.chip.valve u.val) { s.chip.valve u.val with
        phase := .end_, endSt := St.latched, fastEnd := decide (kind.val ≠ 2), latched := true, latchCause := valveFaultCause kind.val
        shortVbat := (s.chip.valve u.val).shortVbat || kind.val == 1 } ∧ (t.chip.valve u.val).ls = false ∧
      ((s.chip.vg (u.val / 4)).queue = [] → OnlyValve s t u.val)) ∧
  (∀ (g : Fin 4) (excess : Bool) (s : State), (∀ n ∈ (s.chip.vg g.val).queue, n ∈ groupChannels g.val) → NoneHeld s →
    ∃ t, exec (.groupFault g excess) s = .next t ∧ (t.chip.vg g.val).latch = true ∧ (t.chip.vg g.val).hsOn = false ∧
      (∀ n ∈ groupChannels g.val, (s.chip.valve n).active = true → (t.chip.valve n).phase = .end_ ∧ (t.chip.valve n).fastEnd = false ∧
        ((s.chip.valve n).phase ≠ .end_ → (t.chip.valve n).endSt = St.latched)) ∧
      (Safety.Reports 3 s → ∀ n ∈ groupChannels g.val, (s.chip.valve n).active = true →
        Waits t 3 (64 + n) Cls.latched (valvePay n (if excess then 6 else 7) t.chip) s.chip.mt.val) ∧
      (∀ n, n ∉ groupChannels g.val → t.chip.valve n = s.chip.valve n) ∧
      ((s.chip.vg g.val).queue = [] →
        SameBut t (withChip s { s.chip with halt := { s.chip.halt with valves := t.chip.halt.valves, vgs := t.chip.halt.vgs } }))) ∧
  (∀ s : State, bit (supplyCfg s.regs 3) 0 = true → s.chip.halt.ovCut = false → NoneHeld s →
    ∃ t, exec .ovCut s = .next t ∧ t.chip.halt.ovCut = true ∧ (∀ g, g < 4 → (t.chip.vg g).hsOn = false) ∧
      (∀ n, n < 16 → (t.chip.valve n).ls = false) ∧
      (Safety.Reports 3 s → ∀ n, n < 16 → (s.chip.valve n).active = true →
        Waits t 3 (64 + n) Cls.warning (valvePay n 0x20 t.chip) s.chip.mt.val) ∧
      SameBut t (withChip s { s.chip with halt := { s.chip.halt with ovCut := true, valves := t.chip.halt.valves, vgs := t.chip.halt.vgs } })) ∧
  (∀ s : State, NoneHeld s →
    ∃ t, exec .ovCutRelease s = .next t ∧ t.chip.halt.ovCut = false ∧
      (∀ g, g < 4 → (t.chip.vg g).hsOn = (!(s.chip.vg g).latch && (groupChannels g).any fun n => (s.chip.valve n).active)) ∧
      (∀ n, (t.chip.valve n).phase = (s.chip.valve n).phase) ∧
      t = withChip s { s.chip with halt := { s.chip.halt with ovCut := false, valves := t.chip.halt.valves, vgs := t.chip.halt.vgs } }) ∧
  (∀ (u : Fin 16) (mv : Nat) (s : State), bit (s.regs.h (Reg.VALVE_DIAG_CFG u.val)) 0 = true → (s.chip.valve u.val).phase = .idle →
    s.chip.awake = true → (s.chip.feed 2).band = 3 ∨ (s.chip.feed 2).band = 4 → s.chip.halt.ovCut = false →
    (s.chip.valve u.val).testing = false → 2500 ≤ mv → mv ≤ 5000 → (s.chip.valve u.val).dgKind = 1 → (s.chip.valve u.val).dgCnt = 2 →
    (s.chip.valve u.val).openLoad = false → (s.chip.valve u.val).shortGnd = false → (s.chip.valve u.val).shortVbat = false →
    Safety.Reports 3 s → NoneHeld s →
    ∃ t, exec (.valveOffstateDiag u mv) s = .next t ∧ Waits t 3 (64 + u.val) Cls.diag (valvePay u.val 0x10 t.chip) s.chip.mt.val ∧
      SameBut t (withChip s (s.chip.setValve u.val { s.chip.valve u.val with dgCnt := 3, openLoad := true }))) ∧
  (∀ (u : Fin 16) (mv k : Nat) (s : State), bit (s.regs.h (Reg.VALVE_DIAG_CFG u.val)) 0 = true → (s.chip.valve u.val).phase = .idle →
    s.chip.awake = true → (s.chip.feed 2).band = 3 ∨ (s.chip.feed 2).band = 4 → s.chip.halt.ovCut = false →
    (s.chip.valve u.val).testing = false → drainVerdict (s.chip.vg (u.val / 4)).hsOn mv = some k → (s.chip.valve u.val).dgCnt = 0 → NoneHeld s →
    exec (.valveOffstateDiag u mv) s = .next (withChip s (s.chip.setValve u.val { s.chip.valve u.val with dgKind := k, dgCnt := 1 })))

/-- MOVE on a loop at rest (08 R191, R192, R202, R205): the loop takes its registers over, starts its profile at its position and moves with the
descriptor pending; VMAX, TOL and SETTLE of 0 stand for their defaults; the reservation is granted. On a loop that moves or regulates it
re-plans, the profile going on, and an earlier MOVE is no longer in progress. HOLD of a loop that moves or regulates freezes the duty and
returns it, HOLD with RESUME of a held one goes on bumplessly, and of another loop completes and changes nothing (R194). No other loop
changes. STOP (08 R202, Table 8.7): of a loop that is idle or in FAULT it completes OK at once; with mode BRAKE a running loop brakes, its
duty 0, and the descriptor waits for IDLE; with mode COAST it is idle at once; with mode RAMP it decelerates. STOP with CLEAR takes a loop
in FAULT to IDLE with its latch cleared (R184), and is a STOP of another one, stated of an idle loop. COEF_WRITE (R193) queues its pairs
while the loop runs, and else applies each clamped to its range. -/
def Obligations.LoopMovesAndStops : Prop :=
  (∀ (h : Hdr) (u : Fin 10) (mode endAct : Fin 4) (ref : Bool) (target : Int) (vmax : Fin 16777216) (tol settle : Fin 65536) (s : State),
    Admitted (descMove u mode endAct target) h s → (s.chip.loop u.val).st = .idle → (s.chip.loop u.val).job = none →
    firstFail (moveChecks u.val mode.val target (latchLoop u.val s).regs s.chip) = none →
    ∃ t, exec (.move h u mode endAct ref target vmax tol settle) s = .next t ∧ (t.chip.loop u.val).st = .moving ∧
      (t.chip.loop u.val).mode = mode.val ∧ (t.chip.loop u.val).endAct = endAct.val ∧ (t.chip.loop u.val).ref = ref ∧
      (t.chip.loop u.val).target = target ∧
      (t.chip.loop u.val).vmax = (if vmax.val = 0 then profV (latchLoop u.val s).regs u.val else vmax.val) ∧
      (t.chip.loop u.val).tol = (if tol.val = 0 then 2 else tol.val) ∧
      (t.chip.loop u.val).settle = (if settle.val = 0 then 10 else settle.val) ∧
      (t.chip.loop u.val).p = (s.chip.loop u.val).pos * 65536 ∧ (t.chip.loop u.val).v = (s.chip.loop u.val).speedNow s.chip.now * 65536 ∧ (t.chip.loop u.val).a = 0 ∧ (t.chip.loop u.val).sat = 0 ∧
      (t.chip.loop u.val).job = some s.chip.nextJob ∧
      SameBut t (withChip (latchLoop u.val s) { s.chip.setLoop u.val (t.chip.loop u.val) with budget := { s.chip.budget with
        resv := s.chip.budget.resv ++ [{ id := s.chip.budget.nextId, feed := 2, dI := (moveDemand (latchLoop u.val s).regs s.chip u.val).1
                                         dP := (moveDemand (latchLoop u.val s).regs s.chip u.val).2 }]
        nextId := s.chip.budget.nextId + 1 } })) ∧
  (∀ (h : Hdr) (u : Fin 10) (s : State), Admitted (loopDesc 0x41 u.val) h s → Answers h s → firstFail (checks56 s.regs s.chip 0x14 u.val) = none →
    (s.chip.loop u.val).st = .moving ∨ (s.chip.loop u.val).st = .regulating →
    ∃ t, exec (.hold h u) s = .next t ∧ entryOf s h St.ok (ofSigned 32 (s.chip.loop u.val).duty) ∈ t.chip.out ∧
      SameBut t (withChip s (s.chip.setLoop u.val { s.chip.loop u.val with st := .held, prev := (s.chip.loop u.val).st }))) ∧
  (∀ (h : Hdr) (u : Fin 10) (s : State), Admitted (loopDesc 0x41 u.val) h s → Answers h s → firstFail (checks56 s.regs s.chip 0x14 u.val) = none →
    (s.chip.loop u.val).st = .held →
    ∃ t, exec (.holdResume h u) s = .next t ∧ entryOf s h St.ok (ofSigned 32 (s.chip.loop u.val).duty) ∈ t.chip.out ∧
      SameBut t (withChip s (s.chip.setLoop u.val { s.chip.loop u.val with st := (s.chip.loop u.val).prev, bumpless := true }))) ∧
  (∀ (h : Hdr) (u : Fin 10) (s : State), Admitted (loopDesc 0x41 u.val) h s → firstFail (checks56 s.regs s.chip 0x14 u.val) = none →
    (s.chip.loop u.val).st ≠ .held → ∃ t, exec (.holdResume h u) s = .next t ∧ SameBut t s) ∧
  (∀ (h : Hdr) (u : Fin 10) (mode endAct : Fin 4) (ref : Bool) (target : Int) (vmax : Fin 16777216) (tol settle : Fin 65536) (s : State),
    Admitted (descMove u mode endAct target) h s → (s.chip.loop u.val).st = .moving ∨ (s.chip.loop u.val).st = .regulating →
    firstFail (moveChecks u.val mode.val target s.regs s.chip) = none →
    ∃ t, exec (.move h u mode endAct ref target vmax tol settle) s = .next t ∧ (t.chip.loop u.val).st = .moving ∧ (t.chip.loop u.val).mode = mode.val ∧
      (t.chip.loop u.val).target = target ∧ (t.chip.loop u.val).p = (s.chip.loop u.val).p ∧ (t.chip.loop u.val).v = (s.chip.loop u.val).v ∧ (t.chip.loop u.val).a = (s.chip.loop u.val).a ∧ (t.chip.loop u.val).job = some s.chip.nextJob ∧
      (∀ id, (s.chip.loop u.val).job = some id → id ≠ s.chip.nextJob → ∀ j ∈ t.chip.jobs, j.id = id → j.turn.isSome = true) ∧
      (∀ n, n ≠ u.val → t.chip.loop n = s.chip.loop n) ∧ t.regs = s.regs ∧ t.mram = s.mram ∧ t.pending = s.pending) ∧
  (∀ (h : Hdr) (u : Fin 10) (mode : Fin 4) (s : State), Admitted (descStop u mode) h s → Answers h s →
    firstFail (checks56 (latchIdle u.val s).regs s.chip 0x14 u.val) = none → (s.chip.loop u.val).st = .idle ∨ (s.chip.loop u.val).st = .fault →
    ∃ t, exec (.stop h u mode) s = .next t ∧ entryOf s h St.ok (stopResult (s.chip.loop u.val)) ∈ t.chip.out ∧
      SameBut t (latchIdle u.val s)) ∧
  (∀ (h : Hdr) (u : Fin 10) (s : State), Admitted (descStop u 1) h s → firstFail (checks56 s.regs s.chip 0x14 u.val) = none →
    (s.chip.loop u.val).running = true → (s.chip.loop u.val).coefQ = [] →
    ∃ t, exec (.stop h u 1) s = .next t ∧ (t.chip.loop u.val).st = .braking ∧ (t.chip.loop u.val).dutyOut = 0 ∧
      (t.chip.loop u.val).pos = (s.chip.loop u.val).pos ∧
      (t.chip.loop u.val).stopJobs = (s.chip.loop u.val).stopJobs ++ [(s.chip.nextJob, stopResult (s.chip.loop u.val))] ∧
      SameBut t (withChip s (s.chip.setLoop u.val (t.chip.loop u.val)))) ∧
  (∀ (h : Hdr) (u : Fin 10) (mode : Fin 4) (s : State), (s.chip.loop u.val).st = .fault →
    AdmittedYard (descStopClear u mode) h 3 (checks56 s.regs s.chip 0x14 u.val) s →
    ∃ t, exec (.stopClear h u mode) s = .next t ∧
      (∃ j ∈ t.chip.jobs, j.id = s.chip.nextJob ∧ j.outc = some (St.ok, stopResult (s.chip.loop u.val), s.chip.mt.val)) ∧
      SameBut t (withChip s (s.chip.setLoop u.val { s.chip.loop u.val with
        st := .idle, latch := false, fault := 0, toFault := false, runOn := 0 }))) ∧
  (∀ (h : Hdr) (u : Fin 10) (addr : Nat) (pairs : List (Fin 8 × Fin 4294967296)) (s : State), Admitted (descCoefWrite u addr pairs) h s →
    firstFail (checks56 s.regs s.chip 0x14 u.val) = none → (s.chip.loop u.val).running = true →
    (s.chip.loop u.val).coefQ.length + pairs.length ≤ 32 →
    ∃ t, exec (.coefWrite h u addr pairs) s = .next t ∧
      SameBut t (withChip s (s.chip.setLoop u.val { s.chip.loop u.val with
        coefQ := (s.chip.loop u.val).coefQ ++ pairs.map fun p => (p.1.val, p.2.val, s.chip.nextJob) }))) ∧
  (∀ (h : Hdr) (u : Fin 10) (addr : Nat) (i : Fin 8) (v : Fin 4294967296) (s : State), Admitted (descCoefWrite u addr [(i, v)]) h s →
    Answers h s → firstFail (checks56 s.regs s.chip 0x14 u.val) = none → (s.chip.loop u.val).running = false →
    ∃ t, exec (.coefWrite h u addr [(i, v)]) s = .next t ∧ coefOf (t.chip.loop u.val) i.val = coefClamp i.val (toSigned 32 v.val) ∧
      (∀ k, k ≠ i.val → coefOf (t.chip.loop u.val) k = coefOf (s.chip.loop u.val) k) ∧
      entryOf s h (if coefClamp i.val (toSigned 32 v.val) = toSigned 32 v.val then St.ok else St.okClamped) 0 ∈ t.chip.out ∧
      SameBut t (withChip s (s.chip.setLoop u.val { s.chip.loop u.val with coefs := (t.chip.loop u.val).coefs }))) ∧
  (∀ (h : Hdr) (u : Fin 10) (s : State), Admitted (descStop u 2) h s → firstFail (checks56 s.regs s.chip 0x14 u.val) = none →
    (s.chip.loop u.val).running = true →
    ∃ t, exec (.stop h u 2) s = .next t ∧ (t.chip.loop u.val).st = .idle ∧ (t.chip.loop u.val).dutyOut = 0 ∧ (t.chip.loop u.val).job = none ∧ (t.chip.loop u.val).stopJobs = [] ∧
      (t.chip.loop u.val).pos = (s.chip.loop u.val).pos) ∧
  (∀ (h : Hdr) (u : Fin 10) (s : State), Admitted (descStop u 0) h s → firstFail (checks56 s.regs s.chip 0x14 u.val) = none →
    (s.chip.loop u.val).running = true →
    ∃ t, exec (.stop h u 0) s = .next t ∧ (t.chip.loop u.val).stopping = true ∧ (t.chip.loop u.val).running = true ∧ vStar s.regs u.val (t.chip.loop u.val) = 0 ∧
      (t.chip.loop u.val).stopJobs = (s.chip.loop u.val).stopJobs ++ [(s.chip.nextJob, stopResult (s.chip.loop u.val))] ∧
      SameBut t (withChip s (s.chip.setLoop u.val (t.chip.loop u.val)))) ∧
  (∀ (h : Hdr) (u : Fin 10) (mode : Fin 4) (s : State), Admitted (descStopClear u mode) h s → Answers h s →
    firstFail (checks56 (latchLoop u.val s).regs s.chip 0x14 u.val) = none → (s.chip.loop u.val).st = .idle →
    ∃ t, exec (.stopClear h u mode) s = .next t ∧ entryOf s h St.ok (stopResult (s.chip.loop u.val)) ∈ t.chip.out ∧
      SameBut t (latchLoop u.val s))

/-- LEARN (08 R200, R205): RUN drives a loop at rest in the opening direction at half of PROF_VMAX; LOAD puts a table in use and keeps it in the
settings store; READ writes the table in use to the host. On an IDLE loop each takes its registers over. -/
def Obligations.LoopLearns : Prop :=
  (∀ (h : Hdr) (u : Fin 10) (addr : Nat) (s : State), Admitted (descLearnRun u addr) h s → (s.chip.loop u.val).st = .idle →
    (s.chip.loop u.val).job = none → (s.chip.loop u.val).toFault = false →
    firstFail (checks56 (latchLoop u.val s).regs s.chip 0x14 u.val ++ checkSupply (latchLoop u.val s).regs s.chip (80 + u.val)) = none →
    ∃ t, exec (.learnRun h u addr) s = .next t ∧ (t.chip.loop u.val).st = .learning ∧ (t.chip.loop u.val).learnPh = 1 ∧
      (t.chip.loop u.val).mode = 1 ∧
      (t.chip.loop u.val).target = -(closeSign (latchLoop u.val s).regs u.val) * (profV (latchLoop u.val s).regs u.val / 2 : Nat) ∧
      (t.chip.loop u.val).job = some s.chip.nextJob ∧ (t.chip.loop u.val).pos = (s.chip.loop u.val).pos ∧
      SameBut t (withChip (latchLoop u.val s) (s.chip.setLoop u.val (t.chip.loop u.val)))) ∧
  (∀ (h : Hdr) (u : Fin 10) (addr : Nat) (ref vlearn : List Nat) (s : State), Admitted (descLearnLoad u addr ref vlearn) h s → Answers h s →
    firstFail (learnBusy u.val (latchIdle u.val s).regs s.chip) = none →
    ∃ t, exec (.learnLoad h u addr ref vlearn) s = .next t ∧ entryOf s h St.ok 0 ∈ t.chip.out ∧
      UMap.get ([], [], []) t.chip.upd.latest.tabs u.val = (ref, vlearn, ref) ∧
      SameBut t (withChip (latchIdle u.val s) { s.chip.setLoop u.val { s.chip.loop u.val with
          tabRef := ref, tabV := vlearn, tabLearn := ref, tabValid := true } with
        upd := t.chip.upd, age := t.chip.age })) ∧
  (∀ (h : Hdr) (u : Fin 10) (addr : Nat) (s : State), Admitted (descLearnRead u addr) h s → Answers h s → (s.chip.ring h.fn).dmaOk = true →
    firstFail (learnBusy u.val (latchIdle u.val s).regs s.chip) = none →
    ∃ t, exec (.learnRead h u addr) s = .next t ∧ entryOf s h St.ok 0 ∈ t.chip.out ∧
      Out.dma h.fn addr (tableBytes (s.chip.loop u.val)) ∈ t.chip.out ∧ SameBut t (latchIdle u.val s))

/-- Samples (08 R186 to R190, R203). The sample at the front of the engine's queue is computed: its values are taken over, and its duty, TARGET
in DUTY mode, that of the control law in the others and the frozen one in HELD, is sent; stated with no coefficient queued, in DUTY mode
with the plausibility check and anti-pinch off also with the frame. The bridge then applies the duty of a loop that still runs, and a delay
above 32 us is counted. A sample missed is counted, and the first of a run reported; the first limited sample raises CURRENT_LIMIT. The
winding model moves each millisecond (R195; log entry 8). Brakes, trips and positions (08 R184, R185, R195 to R200). The 200 ms brake ends
in IDLE, or in FAULT after a plausibility fault; the 20 ms pinch brake is followed by a move of PINCH_REV counts in the opening direction,
or by IDLE where the work of the loop has ended meanwhile. A trip by a protection that the bridge has latches the loop in FAULT, its work
completing LATCHED. An end stop brakes the loop and sets the position of a reference MOVE; in a LEARN RUN it gives the opening end, then
ends the run with the table stored. Ripples and fills count positions. -/
def Obligations.LoopSamplesAndBrakes : Prop :=
  (∀ (u : Fin 10) (i vt vb : Int) (ilim : Bool) (edge : Int) (s : State), s.chip.fwRuns = true → (s.chip.loop u.val).st = .moving →
    (s.chip.loop u.val).mode = 2 → (s.chip.loop u.val).stopping = false → (s.chip.loop u.val).reversing = false → engineNext s.chip u.val = true → (s.chip.loop u.val).coefQ = [] →
    bits (lv s.regs (Reg.PLAUS_CFG u.val)) 15 0 = 0 → bit (lv s.regs (Reg.PINCH_CFG u.val)) 0 = false →
    ∃ t, exec (.loopCompute u i vt vb ilim edge) s = .next t ∧ (t.chip.loop u.val).duty = (s.chip.loop u.val).target ∧
      (t.chip.loop u.val).sent = true ∧ (t.chip.loop u.val).seq = ((s.chip.loop u.val).seq + 1) % 2 ^ 32 ∧
      (t.chip.loop u.val).iMa = i ∧ (t.chip.loop u.val).vtMv = vt ∧ (t.chip.loop u.val).vbMv = vb ∧
      (t.chip.loop u.val).tPrev = (s.chip.loop u.val).sampT ∧ (t.chip.loop u.val).ilimAct = ilim ∧ (t.chip.loop u.val).st = .moving ∧ (t.chip.loop u.val).dutyJob = (s.chip.loop u.val).job ∧
      SameBut t (withChip s (s.chip.setLoop u.val (t.chip.loop u.val)))) ∧
  (∀ (u : Fin 10) (s : State), (s.chip.loop u.val).sent = true → (s.chip.loop u.val).dutyJob = none → bit (lv s.regs (Reg.TLM_CFG u.val)) 0 = false → NoneHeld s →
    exec (.dutyApply u) s = .next (withChip s (s.chip.setLoop u.val { s.chip.loop u.val with
      dutyOut := if (s.chip.loop u.val).running then (s.chip.loop u.val).duty else (s.chip.loop u.val).dutyOut, sent := false, sample := false
      late := if 3200 < s.chip.mt.val - (s.chip.loop u.val).sampT then ((s.chip.loop u.val).late + 1) % 65536 else (s.chip.loop u.val).late }))) ∧
  (∀ (u : Fin 10) (s : State), s.chip.ctlRuns = true → (s.chip.loop u.val).running = true → (s.chip.loop u.val).missRun = false → sampleLate s.regs s.chip u.val = true →
    posSrc s.regs u.val = 0 → NoneHeld s →
    ∃ t, exec (.missedSample u false) s = .next t ∧ Told s t (80 + u.val) Cls.warning (loopPay (s.chip.loop u.val) 0x0B) ∧
      SameBut t (withChip s (s.chip.setLoop u.val { s.chip.loop u.val with
        missed := ((s.chip.loop u.val).missed + 1) % 65536, missRun := true, missK := (s.chip.loop u.val).missK + 1 }))) ∧
  (∀ (u : Fin 10) (s : State), s.chip.ctlRuns = true → (s.chip.loop u.val).ilimAct = true → (s.chip.loop u.val).limRaised = false → NoneHeld s →
    ∃ t, exec (.currentLimit u) s = .next t ∧ Told s t (80 + u.val) Cls.limit (loopPay (s.chip.loop u.val) 0x0C) ∧
      SameBut t (withChip s (s.chip.setLoop u.val { s.chip.loop u.val with limRaised := true }))) ∧
  (∀ (u : Fin 10) (i emf : Int) (s : State), posSrc s.regs u.val ≠ 3 → NoneHeld s →
    exec (.windingUpdate u i emf) s = .next (withChip s (s.chip.setLoop u.val { s.chip.loop u.val with
      tw := windingStep s.regs s.chip u.val i }))) ∧
  (∀ (u : Fin 10) (i vt vb : Int) (ilim : Bool) (edge : Int) (s : State), s.chip.fwRuns = true → engineNext s.chip u.val = true →
    (s.chip.loop u.val).coefQ = [] → NoneHeld s →
    ∃ t, exec (.loopCompute u i vt vb ilim edge) s = .next t ∧ (t.chip.loop u.val).seq = ((s.chip.loop u.val).seq + 1) % 2 ^ 32 ∧
      (t.chip.loop u.val).iMa = i ∧ (t.chip.loop u.val).vtMv = vt ∧ (t.chip.loop u.val).vbMv = vb ∧ (t.chip.loop u.val).tPrev = (s.chip.loop u.val).sampT ∧ (t.chip.loop u.val).sent = true ∧
      (t.chip.loop u.val).duty = (if (s.chip.loop u.val).st = .held then (s.chip.loop u.val).duty else if (s.chip.loop u.val).mode = 2 then (s.chip.loop u.val).target
        else (controlLaw s.regs u.val (max 1 ((s.chip.loop u.val).sampT - (s.chip.loop u.val).tPrev)) (milliQ vb).1 ilim (s.chip.loop u.val)).1.duty) ∧
      ∀ n, n ≠ u.val → t.chip.loop n = s.chip.loop n) ∧
  (∀ (u : Fin 10) (s : State), (s.chip.loop u.val).sent = true → NoneHeld s →
    ∃ t, exec (.dutyApply u) s = .next t ∧ (t.chip.loop u.val).sent = false ∧ (t.chip.loop u.val).sample = false ∧
      (t.chip.loop u.val).dutyOut = (if (s.chip.loop u.val).running then (s.chip.loop u.val).duty else (s.chip.loop u.val).dutyOut) ∧ ∀ n, n ≠ u.val → t.chip.loop n = s.chip.loop n) ∧
  (∀ (u : Fin 10) (dropped : Bool) (s : State), (s.chip.loop u.val).running = true →
    (if dropped then (s.chip.loop u.val).sample else sampleLate s.regs s.chip u.val) = true → NoneHeld s →
    ∃ t, exec (.missedSample u dropped) s = .next t ∧ (t.chip.loop u.val).missed = ((s.chip.loop u.val).missed + 1) % 65536 ∧ (t.chip.loop u.val).missRun = true) ∧
  (∀ (u : Fin 10) (i emf : Int) (s : State), NoneHeld s →
    ∃ t, exec (.windingUpdate u i emf) s = .next t ∧ (t.chip.loop u.val).tw = windingStep s.regs s.chip u.val i ∧
      ∀ n, n ≠ u.val → t.chip.loop n = s.chip.loop n) ∧
  (∀ (u : Fin 10) (s : State), (s.chip.loop u.val).st = .braking → (s.chip.loop u.val).brakeShort = false → NoneHeld s →
    ((s.chip.loop u.val).toFault = false → (s.chip.loop u.val).stopJobs = [] → (s.chip.loop u.val).job = none → (s.chip.loop u.val).coefQ = [] →
      ∃ t, exec (.brakeEnd u) s = .next t ∧ (t.chip.loop u.val).st = .idle ∧ (t.chip.loop u.val).dutyOut = 0 ∧
        (t.chip.loop u.val).pos = (s.chip.loop u.val).pos ∧ t = withChip s (s.chip.setLoop u.val (t.chip.loop u.val))) ∧
    ((s.chip.loop u.val).toFault = false → ∃ t, exec (.brakeEnd u) s = .next t ∧ (t.chip.loop u.val).st = .idle ∧ (t.chip.loop u.val).dutyOut = 0 ∧ (t.chip.loop u.val).stopJobs = []) ∧
    ((s.chip.loop u.val).toFault = true → (s.chip.loop u.val).stopJobs = [] →
      exec (.brakeEnd u) s = .next (withChip s (s.chip.setLoop u.val { s.chip.loop u.val with
        st := .fault, latch := true, toFault := false, runOn := 0 }))) ∧
    ((s.chip.loop u.val).toFault = true → ∃ t, exec (.brakeEnd u) s = .next t ∧ (t.chip.loop u.val).st = .fault ∧ (t.chip.loop u.val).latch = true ∧ (t.chip.loop u.val).stopJobs = [])) ∧
  (∀ (u : Fin 10) (s : State), (s.chip.loop u.val).st = .braking → (s.chip.loop u.val).brakeShort = true → NoneHeld s →
    ((s.chip.loop u.val).pinched = true →
      ∃ t, exec (.pinchReverse u) s = .next t ∧ (t.chip.loop u.val).st = .moving ∧ (t.chip.loop u.val).reversing = true ∧
        (t.chip.loop u.val).mode = 0 ∧ (t.chip.loop u.val).target = (s.chip.loop u.val).pos -
          closeSign s.regs u.val * (bits (lv s.regs (Reg.PINCH_CFG u.val)) 31 16 : Nat) ∧
        (t.chip.loop u.val).job = (s.chip.loop u.val).job ∧ t = withChip s (s.chip.setLoop u.val (t.chip.loop u.val))) ∧
    ((s.chip.loop u.val).pinched = false → ∃ t, exec (.pinchReverse u) s = .next t ∧ (t.chip.loop u.val).st = .idle ∧ (t.chip.loop u.val).pos = (s.chip.loop u.val).pos)) ∧
  (∀ (u : Fin 10) (kind : Fin 4) (s : State), (s.chip.loop u.val).st ≠ .fault → bridgeHas u.val kind.val = true → NoneHeld s →
    ∃ t, exec (.bridgeTrip u kind) s = .next t ∧ (t.chip.loop u.val).st = .fault ∧ (t.chip.loop u.val).latch = true ∧
      (t.chip.loop u.val).fault = kind.val + 5 ∧ (t.chip.loop u.val).dutyOut = 0 ∧ (t.chip.loop u.val).job = none ∧
      (∀ id, (s.chip.loop u.val).job = some id →
        { job := id, st := St.latched, res := workResult (s.chip.loop u.val) false false false, t := s.chip.mt.val } ∈ (t.chip.yard 3).results) ∧
      (Safety.Reports 3 s → Waits t 3 (80 + u.val) Cls.latched (loopPay (t.chip.loop u.val) (kind.val + 5)) s.chip.mt.val) ∧
      ((s.chip.loop u.val).coefQ = [] → SameBut t (withChip s (s.chip.setLoop u.val (t.chip.loop u.val))))) ∧
  (∀ (u : Fin 10) (up : Bool) (s : State), s.chip.ctlRuns = true → (s.chip.loop u.val).running = true → (s.chip.loop u.val).st ≠ .learning → (s.chip.loop u.val).job = none →
    (s.chip.loop u.val).coefQ = [] → bits (lv s.regs (Reg.LOOP_LIM u.val)) 31 16 ≠ 0 → NoneHeld s →
    ∃ t, exec (.endStop u up) s = .next t ∧ (t.chip.loop u.val).st = .braking ∧ (t.chip.loop u.val).dutyOut = 0 ∧
      (t.chip.loop u.val).pos = (if (s.chip.loop u.val).ref then (if up then posMax s.regs u.val else posMin s.regs u.val)
        else (s.chip.loop u.val).pos) ∧
      Told s t (80 + u.val) Cls.state (loopPay (t.chip.loop u.val) 2) ∧
      SameBut t (withChip s (s.chip.setLoop u.val (t.chip.loop u.val)))) ∧
  (∀ (u : Fin 10) (k : Int) (s : State), posSrc s.regs u.val = 3 → NoneHeld s →
    k = (if bit (lv s.regs (Reg.LOOP_CFG u.val)) 2 then -sgn (s.chip.loop u.val).dutyOut else sgn (s.chip.loop u.val).dutyOut) →
    (∃ t, exec (.ripple u) s = .next t ∧ (t.chip.loop u.val).pos = toSigned 32 (ofSigned 32 ((s.chip.loop u.val).pos + k)) ∧ (t.chip.loop u.val).cnt = (s.chip.loop u.val).cnt + k ∧
      (t.chip.loop u.val).fills = 0 ∧ (t.chip.loop u.val).st = (s.chip.loop u.val).st ∧ t = withChip s (s.chip.setLoop u.val (t.chip.loop u.val))) ∧
    (50 * 65536 < 1000 * (s.chip.loop u.val).wEst.natAbs → (s.chip.loop u.val).fills + 1 ≤ bits (lv s.regs (Reg.RIPPLE_CFG u.val)) 15 8 →
      exec (.rippleFill u) s = .next (withChip s (s.chip.setLoop u.val { s.chip.loop u.val with
        pos := toSigned 32 (ofSigned 32 ((s.chip.loop u.val).pos + k)), fills := (s.chip.loop u.val).fills + 1 }))) ∧
    (50 * 65536 < 1000 * (s.chip.loop u.val).wEst.natAbs → bits (lv s.regs (Reg.RIPPLE_CFG u.val)) 15 8 < (s.chip.loop u.val).fills →
      ∃ t, exec (.rippleFill u) s = .next t ∧ (t.chip.loop u.val).posUnc = true ∧ (t.chip.loop u.val).pos = toSigned 32 (ofSigned 32 ((s.chip.loop u.val).pos + k)))) ∧
  (∀ (u : Fin 10) (up : Bool) (s : State), (s.chip.loop u.val).running = true → (s.chip.loop u.val).st ≠ .learning → bits (lv s.regs (Reg.LOOP_LIM u.val)) 31 16 ≠ 0 →
    NoneHeld s → ∃ t, exec (.endStop u up) s = .next t ∧ (t.chip.loop u.val).st = .braking ∧ (t.chip.loop u.val).dutyOut = 0 ∧ (t.chip.loop u.val).job = none) ∧
  (∀ (u : Fin 10) (up : Bool) (s : State), (s.chip.loop u.val).st = .learning → (s.chip.loop u.val).stopping = false →
    bits (lv s.regs (Reg.LOOP_LIM u.val)) 31 16 ≠ 0 → NoneHeld s →
    ((s.chip.loop u.val).learnPh = 1 →
      ∃ t, exec (.endStop u up) s = .next t ∧ (t.chip.loop u.val).learnPh = 2 ∧
        (t.chip.loop u.val).pos = (if closeSign s.regs u.val = 1 then posMin s.regs u.val else posMax s.regs u.val) ∧
        (t.chip.loop u.val).target = closeSign s.regs u.val * (profV s.regs u.val : Nat) ∧ (t.chip.loop u.val).st = .learning) ∧
    ((s.chip.loop u.val).learnPh = 2 →
      ∃ t, exec (.endStop u up) s = .next t ∧ (t.chip.loop u.val).st = .braking ∧ (t.chip.loop u.val).tabValid = true ∧ (t.chip.loop u.val).tabRef.length = 256 ∧
        (t.chip.loop u.val).tabV.length = 256 ∧ (t.chip.loop u.val).job = none))

/-- SINK_SET to a sink (09 R213, R215, R231), where no earlier command of YD is on its way, leaves its setting for the next period start with
the descriptor pending, and reserves a rise of the current (02 R54); to a boost stage it clears BOOST_SHORT where CLEAR asks (R212). With
CAL it starts the calibration with its two pulses and takes the stage to VMAX (R217); their forward voltages give RS and VF0, kept in the
settings store, stated where ICAL_HI is above 50 mA. A period start puts every sink's setting in force and completes what waited. Sinks and
their temperatures (09 R210, R214, R216, R217): an open string of a sink that is on, its stage not input-limited, and a junction at 170 °C
turn the sink off, below 150 °C it is free again, and an LED short of a sink that is on leaves it as it is, each reported by a halter that
can report. An NTC out of range derates its sinks to the floor, one within it gives them its temperature, and a forward voltage gives LS5
and LS11 theirs, f_T moving by at most one step; stated where the formulas have a value. -/
def Obligations.SinkCommandsAndProtection : Prop :=
  (∀ (h : Hdr) (u : Fin 32) (iSet : Fin 1024) (dim : Fin 65536) (clear : Bool) (s : State), u.val < 12 →
    AdmittedYard (descSinkSet u iSet dim) h 3 (sinkChecks u.val iSet.val dim.val clear false s.regs s.chip) s →
    ∃ t, exec (.sinkSet h u iSet dim clear) s = .next t ∧
      SameBut t (withChip s { s.chip.setSink u.val { s.chip.sink u.val with
          new := some (iSet.val, dim.val), jobs := (s.chip.sink u.val).jobs ++ [s.chip.nextJob]
          openS := (s.chip.sink u.val).openS && !clear, shed := (s.chip.sink u.val).shed && decide (iSet.val ≠ 0) && decide (dim.val ≠ 0) } with
        budget := if dim.val ≠ 0 ∧ (s.chip.sink u.val).codeDue < iSet.val then { s.chip.budget with
            resv := s.chip.budget.resv ++ [{ id := s.chip.budget.nextId, feed := 2, dI := (sinkDemand s.regs s.chip u.val iSet.val).1
                                             dP := (sinkDemand s.regs s.chip u.val iSet.val).2 }]
            nextId := s.chip.budget.nextId + 1 } else s.chip.budget })) ∧
  (∀ (h : Hdr) (u : Fin 32) (clear : Bool) (s : State), u.val = 16 ∨ u.val = 17 →
    AdmittedYard (descSinkSet u 0 0) h 3 (checks56 s.regs s.chip 0x15 u.val) s →
    ∃ t, exec (.sinkSet h u 0 0 clear) s = .next t ∧ resultOf s St.ok 0 ∈ (t.chip.yard 3).results ∧
      (t.chip.boost (u.val - 16)).short = ((s.chip.boost (u.val - 16)).short && !clear) ∧
      SameBut t (withChip s { s.chip with halt := { s.chip.halt with boosts := t.chip.halt.boosts } })) ∧
  (∀ (h : Hdr) (u : Fin 32) (iSet : Fin 1024) (dim : Fin 65536) (clear : Bool) (s : State),
    AdmittedYard (descSinkCalibrate u) h 3 (sinkChecks u.val 0 0 clear true s.regs s.chip) s →
    ∃ t, exec (.sinkCalibrate h u iSet dim clear) s = .next t ∧
      ((t.chip.boost (stageOf u.val)).running = true →
        (t.chip.boost (stageOf u.val)).vset = boostVmax (t.chip.boost (stageOf u.val)).cfg) ∧
      SameBut t (withChip s ((s.chip.setSink u.val { s.chip.sink u.val with
        calJob := some s.chip.nextJob, openS := (s.chip.sink u.val).openS && !clear, vfCfg := s.regs.h (Reg.SINK_VF (u.val / 6))
        calPulses := [(0, 32), (1000, bits (s.regs.h (Reg.SINK_VF (u.val / 6))) 25 16)] }).setBoost (stageOf u.val)
          (t.chip.boost (stageOf u.val))))) ∧
  (∀ (hi : Bool) (vLo vHi : Int) (n id : Nat) (s : State), n = (if hi then 11 else 5) → (s.chip.sink n).calJob = some id →
    32 < bits (s.chip.sink n).vfCfg 25 16 → NoneHeld s →
    ∃ t, exec (.vfCalibrationEnd hi vLo vHi) s = .next t ∧
      (t.chip.sink n).rs =
        (clampI 0 65535 ((vHi - vLo) * 16000 / (((bits (s.chip.sink n).vfCfg 25 16 * 25 : Nat) : Int) - 800))).toNat ∧
      (t.chip.sink n).vf0 = (clampI 0 65535 (vLo - ((t.chip.sink n).rs : Int) * 50 / 1000)).toNat ∧
      (t.chip.sink n).tCal = clampI (-128) 127 (s.chip.sys.tbp / 1000) ∧ (t.chip.sink n).valid = true ∧ (t.chip.sink n).calJob = none ∧
      UMap.get (0, 0, 0) t.chip.upd.latest.vfCal n = ((t.chip.sink n).vf0, (t.chip.sink n).rs, (t.chip.sink n).tCal) ∧
      { job := id, st := St.ok, res := sinkResult s.regs t.chip n, t := s.chip.mt.val } ∈ (t.chip.yard 3).results ∧
      SameBut t (withChip s { (s.chip.setSink n (t.chip.sink n)).setBoost (stageOf n) (t.chip.boost (stageOf n)) with
        upd := t.chip.upd, age := t.chip.age })) ∧
  (∀ s : State, NoneHeld s →
    ∃ t, exec .dimPeriodStart s = .next t ∧
      (∀ n, n < 12 → (t.chip.sink n).new = none ∧ (t.chip.sink n).jobs = [] ∧
        (∀ x, (s.chip.sink n).new = some x → (t.chip.sink n).iSet = x.1 ∧ (t.chip.sink n).dim = x.2 ∧
          (x.1 = 0 ∨ x.2 = 0 → (t.chip.sink n).on = false) ∧
          (x.1 ≠ 0 → x.2 ≠ 0 → sinkFree s.chip n = true → (t.chip.sink n).on = true)) ∧
        ∀ id ∈ (s.chip.sink n).jobs, ∃ res, { job := id, st := St.ok, res := res, t := s.chip.mt.val } ∈ (t.chip.yard 3).results) ∧
      SameBut t (withChip s { s.chip with halt := { s.chip.halt with
        sinks := t.chip.halt.sinks, boosts := t.chip.halt.boosts, lantCfg := t.chip.halt.lantCfg, dimLocked := t.chip.halt.dimLocked
        dimStart := t.chip.halt.dimStart } })) ∧
  (∀ (hi : Bool) (vLo vHi : Int) (n id : Nat) (s : State), n = (if hi then 11 else 5) → (s.chip.sink n).calJob = some id → NoneHeld s →
    ∃ t, exec (.vfCalibrationEnd hi vLo vHi) s = .next t ∧ (t.chip.sink n).calJob = none ∧ (t.chip.sink n).valid = true ∧
      ∃ res, { job := id, st := St.ok, res := res, t := s.chip.mt.val } ∈ (t.chip.yard 3).results) ∧
  (∀ (u : Fin 12) (s : State), (s.chip.sink u.val).on = true → (s.chip.boost (stageOf u.val)).inlim = false → NoneHeld s →
    ∃ t, exec (.openString u) s = .next t ∧
      (Safety.Reports 3 s → ∃ x ∈ (t.chip.yard 3).evq, x.src = 92 + u.val ∧ x.cls = Cls.latched ∧ x.pay % 256 = 1) ∧
      SameBut t (withChip s ((s.chip.setSink u.val { s.chip.sink u.val with on := false, openS := true, pattern := [] }).setBoost
        (stageOf u.val) (t.chip.boost (stageOf u.val))))) ∧
  (∀ (u : Fin 12) (tj : Int) (s : State), 170000 ≤ tj → (s.chip.sink u.val).hot = false → NoneHeld s →
    ∃ t, exec (.sinkThermal u tj) s = .next t ∧
      (Safety.Reports 3 s → Waits t 3 (92 + u.val) Cls.fault (sinkPay s.regs u.val 2 t.chip) s.chip.mt.val) ∧
      SameBut t (withChip s ((s.chip.setSink u.val { s.chip.sink u.val with hot := true, on := false, pattern := [] }).setBoost
        (stageOf u.val) (t.chip.boost (stageOf u.val))))) ∧
  (∀ (u : Fin 12) (s : State), (s.chip.sink u.val).on = true → NoneHeld s →
    ∃ t, exec (.ledShort u) s = .next t ∧
      (Safety.Reports 3 s → Waits t 3 (92 + u.val) Cls.warning (sinkPay s.regs u.val 3 s.chip) s.chip.mt.val) ∧ SameBut t s) ∧
  (∀ (k : Fin 8) (ohm : Nat) (s : State), NoneHeld s →
    ∃ t, exec (.ntcRead k ohm) s = .next t ∧ (t.chip.ntc k.val).open_ = decide (1000000 < ohm) ∧ (t.chip.ntc k.val).short = decide (ohm < 100) ∧
      (ohm ≤ 1000000 → 100 ≤ ohm → ∀ x, ntcTemp ohm (clampN 1 255 (bits (s.regs.h (Reg.NTC_CFG k.val)) 23 16))
          (bits (s.regs.h (Reg.NTC_CFG k.val)) 15 0) = some x →
        (t.chip.ntc k.val).temp = x ∧ ∀ n, n < 12 → n ≠ 5 → n ≠ 11 → bits (s.chip.sink n).cfg 3 0 = k.val →
          (t.chip.sink n).temp = x ∧ (t.chip.sink n).fT = stepTo (derateAt (s.chip.sink n).derate x) (s.chip.sink n).fT) ∧
      (1000000 < ohm ∨ ohm < 100 → ∀ n, n < 12 → n ≠ 5 → n ≠ 11 → bits (s.chip.sink n).cfg 3 0 = k.val →
        (t.chip.sink n).ntcFault = true ∧ (t.chip.sink n).fT = clampN 32 255 (bits (s.chip.sink n).derate 23 16)) ∧
      (∀ n, (t.chip.sink n).on = (s.chip.sink n).on ∧ (t.chip.sink n).iSet = (s.chip.sink n).iSet) ∧
      SameBut t (withChip s { s.chip with halt := { s.chip.halt with sinks := t.chip.halt.sinks, ntcs := t.chip.halt.ntcs } })) ∧
  (∀ (hi : Bool) (vf : Int) (n : Nat) (s : State), n = (if hi then 11 else 5) → (s.chip.sink n).valid = true → (s.chip.sink n).on = true →
    toSigned 16 (s.chip.sink n).vfCfg ≠ 0 → NoneHeld s →
    ∃ t, exec (.vfSample hi vf) s = .next t ∧
      (t.chip.sink n).temp = 1000 * (s.chip.sink n).tCal + (vf - (s.chip.sink n).vf0 -
        ((s.chip.sink n).rs : Int) * (codeMa (sinkApplied s.regs s.chip n) : Nat) / 1000) * 100000 / toSigned 16 (s.chip.sink n).vfCfg ∧
      (t.chip.sink n).fT = stepTo (derateAt (s.chip.sink n).derate (t.chip.sink n).temp) (s.chip.sink n).fT ∧
      (t.chip.sink n).on = true ∧ SameBut t (withChip s (s.chip.setSink n (t.chip.sink n)))) ∧
  (∀ (u : Fin 12) (tj : Int) (s : State), tj < 150000 → (s.chip.sink u.val).hot = true → (s.chip.sink u.val).req = false → NoneHeld s →
    exec (.sinkThermal u tj) s = .next (withChip s (s.chip.setSink u.val { s.chip.sink u.val with hot := false }))) ∧
  (∀ (hi : Bool) (vf : Int) (n : Nat) (s : State), n = (if hi then 11 else 5) → (s.chip.sink n).valid = true → (s.chip.sink n).on = true →
    NoneHeld s →
    ∃ t, exec (.vfSample hi vf) s = .next t ∧ SameBut t (withChip s (s.chip.setSink n { s.chip.sink n with
      temp := (t.chip.sink n).temp, fT := (t.chip.sink n).fT, ntcFault := false })))

/-- Boost stages (09 R208, R209, R211, R212): each millisecond the set-point of a running stage moves by the headroom of its sinks within VMAX,
and the share factor follows the input limit, stated for one included sink; with none included the stage stops switching. An output 3 V
above VMAX stops the stage until one below VMAX, and a short latches it with every sink of it off; a halter that can report reports both.
The matrix (09 R218, R219, R231; 02 Table 2.13). MATRIX_FRAME, where no earlier command of YD is on its way, waits for the next slot of ML0
and scanning runs; while the matrix is shed, or would be, it replaces the frame of the restore and completes. A slot that ends is followed
by that of the next line with its pulses; at the first of ML0 the new frame is swapped in and its descriptors complete; a line short blanks
the matrix, latches and is reported by a halter that can report. -/
def Obligations.BoostStagesAndMatrix : Prop :=
  (∀ (b : Fin 2) (vin vout iin : Int) (inlim : Bool) (n : Fin 12) (hd : Int) (s : State), stageOf n.val = b.val →
    (s.chip.boost b.val).running = true → (s.chip.sink n.val).on = true → (s.chip.sink n.val).openS = false → stageCal s.chip b.val = false →
    (∀ m ∈ stageSinks b.val, m ≠ n.val → (s.chip.sink m).on = false) → NoneHeld s →
    ∃ t, exec (.boostUpdate b vin vout iin inlim [(n, hd)]) s = .next t ∧
      (t.chip.boost b.val).vset = clampI (vin + 1000) (boostVmax (s.chip.boost b.val).cfg) ((s.chip.boost b.val).vset +
        (if hd ≤ 100 then 4000 else clampI (-1000) 1000 ((boostTarget (s.chip.boost b.val).cfg - hd) / 2))) ∧
      (t.chip.boost b.val).k = shareNext (s.chip.boost b.val) (some hd) iin inlim ∧ (t.chip.boost b.val).vout = vout ∧
      (t.chip.boost b.val).iin = iin ∧ (t.chip.boost b.val).inlim = inlim ∧ (t.chip.boost b.val).incl = 1 ∧
      (t.chip.boost b.val).running = true ∧
      SameBut t (withChip s { (s.chip.setSink n.val { s.chip.sink n.val with head := hd, headT := s.chip.now }).setBoost b.val
        (t.chip.boost b.val) with age := { s.chip.age with adapt := t.chip.age.adapt, clamped := t.chip.age.clamped } })) ∧
  (∀ (b : Fin 2) (vout : Int) (s : State), (s.chip.boost b.val).ov = false → boostVmax (s.chip.boost b.val).cfg + 3000 < vout → NoneHeld s →
    ∃ t, exec (.boostOv b vout) s = .next t ∧
      (Safety.Reports 3 s → Waits t 3 (90 + b.val) Cls.fault (boostPay b.val 9 t.chip) s.chip.mt.val) ∧
      SameBut t (withChip s (s.chip.setBoost b.val { s.chip.boost b.val with vout := vout, ov := true, running := false }))) ∧
  (∀ (b : Fin 2) (s : State), (s.chip.boost b.val).short = false → NoneHeld s →
    ∃ t, exec (.boostShort b) s = .next t ∧ (∀ n ∈ stageSinks b.val, t.chip.sink n = { s.chip.sink n with on := false, pattern := [] }) ∧
      (∀ n, n ∉ stageSinks b.val → t.chip.sink n = s.chip.sink n) ∧
      t.chip.boost b.val = { s.chip.boost b.val with short := true, running := false } ∧
      (Safety.Reports 3 s → Waits t 3 (90 + b.val) Cls.latched (boostPay b.val 8 t.chip) s.chip.mt.val) ∧
      SameBut t (withChip s { s.chip with halt := { s.chip.halt with sinks := t.chip.halt.sinks, boosts := t.chip.halt.boosts } })) ∧
  (∀ (b : Fin 2) (vin vout iin : Int) (inlim : Bool) (s : State), stageCal s.chip b.val = false →
    (∀ m ∈ stageSinks b.val, (s.chip.sink m).on = false) → NoneHeld s →
    ∃ t, exec (.boostUpdate b vin vout iin inlim []) s = .next t ∧ (t.chip.boost b.val).sw = false ∧ (t.chip.boost b.val).incl = 0 ∧
      (t.chip.boost b.val).k = shareNext (s.chip.boost b.val) none iin inlim ∧ (t.chip.boost b.val).vset = (s.chip.boost b.val).vset ∧ t.chip.halt.sinks = s.chip.halt.sinks) ∧
  (∀ (b : Fin 2) (vout : Int) (s : State), (s.chip.boost b.val).ov = true → vout < boostVmax (s.chip.boost b.val).cfg → NoneHeld s →
    ∃ t, exec (.boostOv b vout) s = .next t ∧ (t.chip.boost b.val).ov = false ∧ (t.chip.boost b.val).vout = vout ∧
      SameBut t (withChip s (s.chip.setBoost b.val (t.chip.boost b.val)))) ∧
  (∀ (b : Fin 2) (vin vout iin : Int) (inlim : Bool) (heads : List (Fin 12 × Int)) (s : State), NoneHeld s →
    ∃ t, exec (.boostUpdate b vin vout iin inlim heads) s = .next t ∧ (t.chip.boost b.val).vout = vout ∧ (t.chip.boost b.val).iin = iin ∧ (t.chip.boost b.val).inlim = inlim ∧
      (∀ n, n < 12 → (t.chip.sink n).on = (s.chip.sink n).on) ∧ ∀ k, k < 2 → k ≠ b.val → t.chip.boost k = s.chip.boost k) ∧
  (∀ (h : Hdr) (clear : Bool) (addr : Nat) (data : List Nat) (s : State), s.chip.halt.mx.shed = false → (s.chip.yard 3).lockout = false →
    classShed (s.chip.yard 3) (shedClass s.regs 104) = false →
    AdmittedYard (descMatrixFrame addr data) h 3 (checks56 s.regs s.chip 0x16 0 ++ [(s.chip.halt.mx.short && !clear, St.latched)]) s →
    ∃ t, exec (.matrixFrame h clear addr data) s = .next t ∧
      SameBut t (withChip s { s.chip with halt := { s.chip.halt with mx := { s.chip.halt.mx with
        short := s.chip.halt.mx.short && !clear, shortLine := if clear then 0 else s.chip.halt.mx.shortLine, next := some data
        nextJobs := s.chip.halt.mx.nextJobs ++ [s.chip.nextJob], blanked := false, scanning := true
        started := s.chip.halt.mx.started && s.chip.halt.mx.scanning } } })) ∧
  (∀ (held : Nat) (s : State), s.chip.halt.mx.scanning = true → s.chip.halt.mx.started = true → s.chip.halt.mx.line < 7 → mxSlotEnd s.chip.halt.mx ≤ s.chip.now → NoneHeld s →
    exec (.matrixLineSlot held) s = .next (withChip s { s.chip with halt := { s.chip.halt with mx := { s.chip.halt.mx with
      line := s.chip.halt.mx.line + 1, used := s.chip.halt.mx.used ||| lineCols s.chip.halt.mx.frame s.chip.halt.mx.line
      held := s.chip.halt.mx.held ||| (held &&& lineCols s.chip.halt.mx.frame s.chip.halt.mx.line), slotT := s.chip.now
      pulses := linePulses s.chip.halt.mx.cfg s.chip.halt.mx.frame (s.chip.halt.mx.line + 1) } } })) ∧
  (∀ (held : Nat) (f : List Nat) (s : State), s.chip.halt.mx.scanning = true → s.chip.halt.mx.started = false → s.chip.halt.mx.next = some f → NoneHeld s →
    ∃ t, exec (.matrixLineSlot held) s = .next t ∧
      (∀ id ∈ s.chip.halt.mx.nextJobs, { job := id, st := St.ok, res := 0, t := s.chip.mt.val } ∈ (t.chip.yard 3).results) ∧
      SameBut t (withChip s { s.chip with halt := { s.chip.halt with mx := { s.chip.halt.mx with
        line := 0, started := true, frame := f, next := none, nextJobs := [], cfg := s.regs.h Reg.MX_CFG, pol := s.regs.h Reg.MX_POLICY
        slotT := s.chip.now, pulses := linePulses (s.regs.h Reg.MX_CFG) f 0 } } })) ∧
  (∀ s : State, s.chip.halt.mx.scanning = true → NoneHeld s →
    ∃ t, exec .lineShort s = .next t ∧
      (∀ id ∈ s.chip.halt.mx.nextJobs, { job := id, st := St.latched, res := 0, t := s.chip.mt.val } ∈ (t.chip.yard 3).results) ∧
      (Safety.Reports 3 s → Waits t 3 104 Cls.latched (mxPay 0x10 t.chip) s.chip.mt.val) ∧
      SameBut t (withChip s { s.chip with halt := { s.chip.halt with mx := { s.chip.halt.mx with
        short := true, shortLine := s.chip.halt.mx.line, next := none, nextJobs := [], scanning := false, blanked := true
        started := false, pulses := [] } } })) ∧
  (∀ (h : Hdr) (clear : Bool) (addr : Nat) (data : List Nat) (s : State), s.chip.halt.mx.shed = true ∨ (s.chip.yard 3).lockout = true ∨
      classShed (s.chip.yard 3) (shedClass s.regs 104) = true →
    AdmittedYard (descMatrixFrame addr data) h 3 (checks56 s.regs s.chip 0x16 0 ++ [(s.chip.halt.mx.short && !clear, St.latched)]) s →
    ∃ t, exec (.matrixFrame h clear addr data) s = .next t ∧ resultOf s St.ok 0 ∈ (t.chip.yard 3).results ∧
      SameBut t (withChip s { s.chip with halt := { s.chip.halt with mx := { s.chip.halt.mx with
        short := s.chip.halt.mx.short && !clear, shortLine := if clear then 0 else s.chip.halt.mx.shortLine, next := some data, shed := true } } })) ∧
  (∀ (held : Nat) (s : State), s.chip.halt.mx.scanning = true → mxSlotEnd s.chip.halt.mx ≤ s.chip.now → NoneHeld s →
    ∃ t, exec (.matrixLineSlot held) s = .next t ∧ t.chip.halt.mx.line = (if s.chip.halt.mx.started then (s.chip.halt.mx.line + 1) % 8 else 0) ∧
      t.chip.halt.mx.slotT = s.chip.now ∧ t.chip.halt.mx.scanning = true)

/-- LAMP_FRAME (09 R227): it takes LOAD, or waits behind the one that has it; loaded, the frame goes out on a line that is free, with the
registers in force from then on (R233), and SEND and LOAD change places; otherwise it stays in LOAD. With the last cell sent the descriptor
completes with the time of the frame in microseconds, and the frame waits for its LATCH. A refresh repeats the displayed frame, and its end
sends a LATCH. A data frame of one node is SOF, START, the node's bytes and their CRC-8 (R221). LAMP_LATCH (09 R223, R224, R229) waits at
each of its ports, behind one that waits there already (log entry 58); on a free line, its start come, the LATCH goes out, the frame sent
before it is the displayed one, and the status frame is awaited; one that has missed its start is reported and marked LATE. A well-formed
status frame updates the node table, one that stops short is a chain break at its first address, none at all one at 0x3FF, and a malformed
or late one a return error; each ends the port's part, and the last part the descriptor, with its flags at the latest commit instant. On a
SLOW port the part ends with the LATCH itself. -/
def Obligations.PortFramesAndLatches : Prop :=
  (∀ (h : Hdr) (u : Fin 8) (start : Fin 1024) (addr : Nat) (data : List Nat) (s : State),
    Admitted (descLampFrame u start addr data s) h s → firstFail (checks56 s.regs s.chip 0x17 u.val) = none → portEn s.regs u.val = true →
    portSlow s.regs u.val = true ∨ (s.chip.port u.val).valid = true →
    ∃ t, exec (.lampFrame h u start addr data) s = .next t ∧
      SameBut t (withChip s (s.chip.setPort u.val (if (s.chip.port u.val).load = none ∧ (s.chip.port u.val).loadJob = none then
        { s.chip.port u.val with loadJob := some s.chip.nextJob }
        else { s.chip.port u.val with frameQ := (s.chip.port u.val).frameQ ++ [s.chip.nextJob] })))) ∧
  (∀ (u : Fin 8) (id : Nat) (f : Nat × List Nat) (s : State), (s.chip.port u.val).loadJob = some id → jobFrame s.chip id = some f →
    LineFree s u.val → (s.chip.port u.val).latchQ = [] →
    exec (.frameLoadDone u) s = .next (withChip s { s.chip.setPort u.val { inForce s.regs u.val (s.chip.port u.val) with
        loadJob := (s.chip.port u.val).frameQ.head?, frameQ := (s.chip.port u.val).frameQ.tail, send := some f
        sendJob := some id, txBusy := true, rep := false, txNs := frameTime s.regs s.chip u.val f.1 f.2.length } with
      out := .lantern u.val (frameCells (inForce s.regs u.val (s.chip.port u.val)) f) :: s.chip.out })) ∧
  (∀ (u : Fin 8) (id : Nat) (f : Nat × List Nat) (s : State), (s.chip.port u.val).loadJob = some id → jobFrame s.chip id = some f →
    (s.chip.port u.val).load = none → frameMayStart s.regs s.chip u.val f.1 f.2.length = false → (s.chip.port u.val).enumQ = [] →
    exec (.frameLoadDone u) s = .next (withChip s (s.chip.setPort u.val { s.chip.port u.val with load := some f }))) ∧
  (∀ (u : Fin 8) (f : Nat × List Nat) (j : Job) (s : State), OnlyJob s j → j.turn = none → (s.chip.port u.val).txBusy = true →
    (s.chip.port u.val).send = some f → (s.chip.port u.val).rep = false → (s.chip.port u.val).sendJob = some j.id →
    (s.chip.port u.val).load = none → (s.chip.port u.val).enumQ = [] →
    ∃ t, exec (.frameSent u) s = .next t ∧ Done s t j St.ok ((s.chip.port u.val).txNs / 1000 % 65536) s.chip.mt.val ∧
      SameBut t (withChip s (s.chip.setPort u.val { s.chip.port u.val with
        txBusy := false, sentUnl := true, sendJob := none, latchLate := (s.chip.port u.val).latchLate || latchMissed s.chip u.val }))) ∧
  (∀ (u : Fin 8) (f : Nat × List Nat) (s : State), (s.chip.port u.val).txBusy = true → (s.chip.port u.val).send = some f →
    (s.chip.port u.val).rep = true → (s.chip.port u.val).sendJob = none → (s.chip.port u.val).load = none → (s.chip.port u.val).enumQ = [] →
    exec (.frameSent u) s = .next (withChip s { s.chip.setPort u.val { s.chip.port u.val with
        txBusy := false, rep := false, statWait := !(s.chip.port u.val).slow
        latchLate := (s.chip.port u.val).latchLate || latchMissed s.chip u.val } with
      out := .lantern u.val latchCells :: s.chip.out })) ∧
  (∀ (u : Fin 8) (f : Nat × List Nat) (s : State), bits (s.chip.port u.val).cfg 15 8 ≠ 0 → portEn s.regs u.val = true →
    domOn s.regs s.chip 0x17 = true → s.chip.fwRuns = true → s.chip.sys.halted = false → portHostLost s.regs s.chip = false →
    (s.chip.port u.val).running = false → (s.chip.port u.val).sentUnl = false → (s.chip.port u.val).statWait = false →
    portSlow s.regs u.val = true ∨ (s.chip.port u.val).valid = true → (s.chip.port u.val).shown = some f →
    exec (.portRefresh u) s = .next (withChip s { s.chip.setPort u.val { inForce s.regs u.val (s.chip.port u.val) with
        send := some f, txBusy := true, rep := true, txNs := frameTime s.regs s.chip u.val f.1 f.2.length } with
      out := .lantern u.val (frameCells (inForce s.regs u.val (s.chip.port u.val)) f) :: s.chip.out })) ∧
  (∀ (q : Port) (start : Nat) (d : Nat × Nat) (data : List Nat), q.slow = false → q.table_.drop start = [d] → data.length = nodeShare d.1 → data ≠ [] →
    frameCells q (start, data) = [.mark, .mark, .zero] ++ symBits 10 start ++ data.flatMap (symBits 8) ++ symBits 8 (crcBytes data)) ∧
  (∀ (h : Hdr) (u : Fin 8) (ports : Fin 256) (s : State), Admitted (descLampLatch u ports s) h s →
    firstFail (checks56 s.regs s.chip 0x17 u.val) = none → (∀ p ∈ latchPorts u.val ports.val, portEn s.regs p = true) →
    ∃ t, exec (.lampLatch h u ports) s = .next t ∧
      t.chip.latches = s.chip.latches ++ [{ job := s.chip.nextJob, ports := latchPorts u.val ports.val, unit := u.val }] ∧
      (∀ p ∈ latchPorts u.val ports.val, t.chip.port p = if (s.chip.port p).latchJob = none then
          { s.chip.port p with latchJob := some s.chip.nextJob, latchWait := true, latchAt := none }
        else { s.chip.port p with latchQ := (s.chip.port p).latchQ ++ [(s.chip.nextJob, none)] }) ∧
      (∀ p, p < 8 → p ∉ latchPorts u.val ports.val → t.chip.port p = s.chip.port p) ∧
      SameBut t (withChip s { s.chip with ports := t.chip.ports, latches := t.chip.latches })) ∧
  (∀ (u : Fin 8) (id : Nat) (s : State), (s.chip.port u.val).latchJob = some id → (s.chip.port u.val).latchWait = true →
    (∀ t, (s.chip.port u.val).latchAt = some t → t ≤ s.chip.mt.val + latchLead (s.chip.port u.val)) →
    (s.chip.port u.val).txBusy = false → (s.chip.port u.val).enumAt = none → (s.chip.port u.val).statWait = false → s.chip.sys.halted = false →
    (s.chip.port u.val).slow = false → (s.chip.port u.val).load = none → (s.chip.port u.val).enumQ = [] →
    ∃ t, exec (.latchStart u) s = .next t ∧ Out.lantern u.val [.mark, .mark, .mark] ∈ t.chip.out ∧
      ((s.chip.port u.val).latchLate = true → s.chip.ctlRuns = true → Told s t (105 + u.val) Cls.warning (portPay 0x25 0x3FF 0)) ∧
      SameBut t (withChip s { s.chip.setPort u.val { s.chip.port u.val with
          latchWait := false, statWait := true, sentUnl := false
          shown := if (s.chip.port u.val).sentUnl then (s.chip.port u.val).send else (s.chip.port u.val).shown } with
        latches := s.chip.latches.map fun x => if x.job = id then { x with
          late := x.late || (s.chip.port u.val).latchLate
          t := max x.t (if (s.chip.port u.val).latchLate then s.chip.mt.val + latchLead (s.chip.port u.val)
            else (s.chip.port u.val).latchAt.getD (s.chip.mt.val + latchLead (s.chip.port u.val))) } else x })) ∧
  (∀ (u : Fin 8) (j : Job) (x : LatchReq) (s : State), OnlyJob s j → j.turn = none → (s.chip.port u.val).latchJob = some j.id →
    s.chip.latches = [x] → x.job = j.id → x.ports = [u.val] → x.unit = u.val → (s.chip.port u.val).latchWait = true →
    (s.chip.port u.val).latchAt = none → (s.chip.port u.val).latchLate = false → (s.chip.port u.val).txBusy = false →
    (s.chip.port u.val).enumAt = none → (s.chip.port u.val).statWait = false → s.chip.sys.halted = false →
    (s.chip.port u.val).slow = true → (s.chip.port u.val).load = none → (s.chip.port u.val).enumQ = [] → (s.chip.port u.val).latchQ = [] →
    ∃ t, exec (.latchStart u) s = .next t ∧ t.chip.latches = [] ∧ Out.lantern u.val [.mark, .mark, .mark] ∈ t.chip.out ∧
      Done s t j St.ok (flagBits [(10, x.late), (11, x.brk), (12, x.ret)]) (max x.t (s.chip.mt.val + 3000)) ∧
      SameBut t (withChip s { s.chip.setPort u.val { s.chip.port u.val with
          latchJob := none, latchWait := false, sentUnl := false
          shown := if (s.chip.port u.val).sentUnl then (s.chip.port u.val).send else (s.chip.port u.val).shown } with
        latches := [] })) ∧
  (∀ (u : Fin 8) (words : List (Nat × Nat)) (s : State), (s.chip.port u.val).statWait = true → (∀ w ∈ words, wordGood w = true) →
    fallsToZero (words.map fun w => w.1) = true → (s.chip.port u.val).load = none → (s.chip.port u.val).enumQ = [] →
    ∃ t, exec (.statusFrameRx u words true) s = .next t ∧ (t.chip.port u.val).statWait = false ∧
      (t.chip.port u.val).brk = decide (bits (words.headD (0, 0)).1 9 0 + 1 ≠ (s.chip.port u.val).table_.length) ∧
      (bits (words.headD (0, 0)).1 9 0 + 1 ≠ (s.chip.port u.val).table_.length →
        (t.chip.port u.val).brkAt = bits (words.headD (0, 0)).1 9 0 ∧
        (s.chip.ctlRuns = true → Told s t (105 + u.val) Cls.fault (portPay 0x21 (bits (words.headD (0, 0)).1 9 0) (words.headD (0, 0)).1))) ∧
      (∀ w ∈ words, (t.chip.port u.val).table_[bits w.1 9 0]? = ((s.chip.port u.val).table_[bits w.1 9 0]?).map fun x => (x.1, w.1)) ∧
      (t.chip.port u.val).valid = (s.chip.port u.val).valid ∧ (t.chip.port u.val).retErr = (s.chip.port u.val).retErr ∧
      SameBut t (withChip s { s.chip.setPort u.val (t.chip.port u.val) with latches := t.chip.latches })) ∧
  (∀ (u : Fin 8) (words : List (Nat × Nat)) (whole : Bool) (s : State), (s.chip.port u.val).statWait = true →
    (whole = false ∨ words.all wordGood = false ∨ fallsToZero (words.map fun w => w.1) = false) →
    (s.chip.port u.val).load = none → (s.chip.port u.val).enumQ = [] →
    ∃ t, exec (.statusFrameRx u words whole) s = .next t ∧ (t.chip.port u.val).statWait = false ∧
      (t.chip.port u.val).retErr = ((s.chip.port u.val).retErr + 1) % 65536 ∧ (t.chip.port u.val).table_ = (s.chip.port u.val).table_ ∧
      SameBut t (withChip s { s.chip.setPort u.val (t.chip.port u.val) with latches := t.chip.latches })) ∧
  (∀ (u : Fin 8) (words : List (Nat × Nat)) (j : Job) (x : LatchReq) (s : State), OnlyJob s j → j.turn = none →
    (s.chip.port u.val).statWait = true → (s.chip.port u.val).latchJob = some j.id → (s.chip.port u.val).latchWait = false →
    s.chip.latches = [x] → x.job = j.id → x.ports = [u.val] → x.unit = u.val → (∀ w ∈ words, wordGood w = true) →
    fallsToZero (words.map fun w => w.1) = true → bits (words.headD (0, 0)).1 9 0 + 1 = (s.chip.port u.val).table_.length →
    (∀ w ∈ words, ∀ y, (s.chip.port u.val).table_[bits w.1 9 0]? = some y → bits w.1 17 10 = bits y.2 17 10) →
    (s.chip.port u.val).load = none → (s.chip.port u.val).enumQ = [] →
    ∃ t, exec (.statusFrameRx u words true) s = .next t ∧ t.chip.latches = [] ∧ (t.chip.port u.val).latchJob =
        (s.chip.port u.val).latchQ.head?.map (fun y => y.1) ∧
      Done s t j St.ok (words.length % 1024 + flagBits [(10, x.late), (11, x.brk), (12, x.ret)]) x.t) ∧
  (∀ (u : Fin 8) (s : State), (s.chip.port u.val).statWait = true → (s.chip.port u.val).load = none → (s.chip.port u.val).enumQ = [] →
    (∃ t, exec (.statusFrameTimeout u false) s = .next t ∧ (t.chip.port u.val).brk = true ∧ (t.chip.port u.val).brkAt = 0x3FF ∧
      (t.chip.port u.val).statWait = false ∧ (s.chip.ctlRuns = true → Told s t (105 + u.val) Cls.fault (portPay 0x21 0x3FF 0)) ∧
      SameBut t (withChip s { s.chip.setPort u.val (t.chip.port u.val) with latches := t.chip.latches })) ∧
    (∃ t, exec (.statusFrameTimeout u true) s = .next t ∧ (t.chip.port u.val).retErr = ((s.chip.port u.val).retErr + 1) % 65536 ∧
      (t.chip.port u.val).statWait = false ∧ (s.chip.ctlRuns = true → Told s t (105 + u.val) Cls.warning (portPay 0x24 0x3FF 0)) ∧
      SameBut t (withChip s { s.chip.setPort u.val (t.chip.port u.val) with latches := t.chip.latches }))) ∧
  (∀ (u : Fin 8) (s : State), (s.chip.port u.val).statWait = true → (s.chip.port u.val).latchJob = none → (s.chip.port u.val).latchWait = false →
    (s.chip.port u.val).load = none → (s.chip.port u.val).enumQ = [] →
    (∃ t, exec (.statusFrameTimeout u false) s = .next t ∧
      SameBut t (withChip s (s.chip.setPort u.val { s.chip.port u.val with brk := true, brkAt := 0x3FF, statWait := false }))) ∧
    (∃ t, exec (.statusFrameTimeout u true) s = .next t ∧
      SameBut t (withChip s (s.chip.setPort u.val { s.chip.port u.val with
        retErr := ((s.chip.port u.val).retErr + 1) % 65536, statWait := false }))))

/-- LAMP_ENUM (09 R225): on a free line FULL resets the nodes and asks address 0 on, REDISCOVER only asks; on a line in use it waits. Each reply
adds a node; the first silence ends it with the table valid and CHAIN_LEN sent, and a node beyond the pixel limit of the port with
TRUNCATED; READ writes the table in use to the host. A port whose feeding stall has left ON stops, its descriptors completing BUSY, and
loses its table; fed again, a FAST port enumerates, and the displayed frame comes back where the table is the same (R228). -/
def Obligations.PortEnumeration : Prop :=
  (∀ (h : Hdr) (u : Fin 8) (addr : Nat) (s : State), Admitted (enumDesc u.val addr false) h s →
    firstFail (enumChecks u.val s.regs s.chip) = none →
    (LineFree s u.val →
      (∃ t, exec (.lampEnumFull h u addr) s = .next t ∧
        t.chip.out = .lantern u.val (controlCells 0x3FF 2 0) :: .lantern u.val (controlCells 0x3FF 1 0) :: s.chip.out ∧
        SameBut t (withChip s (s.chip.setPort u.val { inForce s.regs u.val (s.chip.port u.val) with
          valid := false, ver := (s.chip.port u.val).ver + 1, enumJob := some s.chip.nextJob, enumOp := 0, enumAt := some 0, enumTab := []
          trunc := false }))) ∧
      (∃ t, exec (.lampEnumRediscover h u addr) s = .next t ∧ t.chip.out = .lantern u.val (controlCells 0 4 0) :: s.chip.out ∧
        SameBut t (withChip s (s.chip.setPort u.val { inForce s.regs u.val (s.chip.port u.val) with
          valid := false, ver := (s.chip.port u.val).ver + 1, enumJob := some s.chip.nextJob, enumOp := 1, enumAt := some 0, enumTab := []
          trunc := false })))) ∧
    ((s.chip.port u.val).load = none →
      (s.chip.port u.val).txBusy = true ∨ (s.chip.port u.val).enumAt ≠ none ∨ (s.chip.port u.val).latchWait = true ∨ (s.chip.port u.val).statWait = true →
      (∃ t, exec (.lampEnumFull h u addr) s = .next t ∧ SameBut t (withChip s (s.chip.setPort u.val { s.chip.port u.val with
        enumQ := (s.chip.port u.val).enumQ ++ [(some s.chip.nextJob, 0)] }))) ∧
      (∃ t, exec (.lampEnumRediscover h u addr) s = .next t ∧ SameBut t (withChip s (s.chip.setPort u.val { s.chip.port u.val with
        enumQ := (s.chip.port u.val).enumQ ++ [(some s.chip.nextJob, 1)] }))))) ∧
  (∀ (h : Hdr) (u : Fin 8) (addr : Nat) (s : State), Admitted (enumDesc u.val addr true) h s → Answers h s →
    firstFail (enumChecks u.val s.regs s.chip) = none →
    ∃ t, exec (.lampEnumRead h u addr) s = .next t ∧ entryOf s h St.ok (enumResult { s.chip.port u.val with
        table_ := if (s.chip.port u.val).valid then (s.chip.port u.val).table_ else [] }) ∈ t.chip.out ∧
      ((s.chip.port u.val).valid = true → (s.chip.port u.val).table_ ≠ [] → (s.chip.ring h.fn).dmaOk = true →
        Out.dma h.fn addr (tableImage (s.chip.port u.val).table_) ∈ t.chip.out) ∧ SameBut t s) ∧
  (∀ (u : Fin 8) (a d st : Nat) (s : State), (s.chip.port u.val).enumAt = some a → (s.chip.port u.val).enumOp ≠ 1 → a < 511 →
    tablePixels (s.chip.port u.val).enumTab + nodePixels d ≤ 32768 →
    ((s.chip.port u.val).enumTab.map fun y => nodeShare y.1).sum + nodeShare d ≤ 98304 →
    exec (.enumReply u (some (d, st))) s = .next (withChip s { s.chip.setPort u.val { s.chip.port u.val with
        enumTab := (s.chip.port u.val).enumTab ++ [(d, 0)], enumAt := some (a + 1) } with
      out := .lantern u.val (controlCells 0x3FF 2 (a + 1)) :: s.chip.out })) ∧
  (∀ (u : Fin 8) (a d st : Nat) (s : State), (s.chip.port u.val).enumAt = some a → (s.chip.port u.val).enumOp = 1 → a < 1022 →
    exec (.enumReply u (some (d, st))) s = .next (withChip s { s.chip.setPort u.val { s.chip.port u.val with
        enumTab := (s.chip.port u.val).enumTab ++ [(d, st)], enumAt := some (a + 1) } with
      out := .lantern u.val (controlCells (a + 1) 4 0) :: s.chip.out })) ∧
  (∀ (u : Fin 8) (reply : Option (Nat × Nat)) (a : Nat) (j : Job) (s : State), (s.chip.port u.val).enumAt = some a →
    reply = none ∨ (s.chip.port u.val).enumOp = 0 ∧ (∃ d ∈ reply, 32768 < tablePixels (s.chip.port u.val).enumTab + nodePixels d.1) →
    (s.chip.port u.val).enumOp ≠ 3 → (s.chip.port u.val).enumJob = some j.id → OnlyJob s j → j.turn = none → s.chip.ctlRuns = true →
    (s.chip.port u.val).load = none → (s.chip.port u.val).enumQ = [] →
    ∃ t, exec (.enumReply u reply) s = .next t ∧ Out.lantern u.val (controlCells 0x3FF 3 (s.chip.port u.val).enumTab.length) ∈ t.chip.out ∧
      Told s t (105 + u.val) Cls.state (portPay 0x20 0x3FF 0) ∧ Done s t j St.ok (enumResult (t.chip.port u.val)) s.chip.mt.val ∧
      SameBut t (withChip s (s.chip.setPort u.val { s.chip.port u.val with
        table_ := (s.chip.port u.val).enumTab, valid := true, ver := (s.chip.port u.val).ver + 1, enumJob := none, enumAt := none
        enumTab := [], trunc := reply.isSome, brk := false, latchLate := (s.chip.port u.val).latchLate || latchMissed s.chip u.val }))) ∧
  (∀ (u : Fin 8) (a : Nat) (s : State), (s.chip.port u.val).enumAt = some a → (s.chip.port u.val).enumOp = 3 →
    (s.chip.port u.val).enumJob = none → s.chip.ctlRuns = true → (s.chip.port u.val).load = none → (s.chip.port u.val).enumQ = [] →
    ∃ t, exec (.enumReply u none) s = .next t ∧
      (sameTable (s.chip.port u.val).enumTab (s.chip.port u.val).table_ = true →
        (t.chip.port u.val).valid = true ∧ Told s t (105 + u.val) Cls.state (portPay 0x26 0x3FF 0) ∧
        (∀ f, (s.chip.port u.val).shown = some f → (t.chip.port u.val).txBusy = true ∧ (t.chip.port u.val).send = some f ∧
          (t.chip.port u.val).rep = true)) ∧
      (sameTable (s.chip.port u.val).enumTab (s.chip.port u.val).table_ = false → (t.chip.port u.val).valid = false ∧
        (t.chip.port u.val).txBusy = (s.chip.port u.val).txBusy ∧ Told s t (105 + u.val) Cls.fault (portPay 0x27 0x3FF 0)) ∧
      (t.chip.port u.val).table_ = (s.chip.port u.val).enumTab ∧ (t.chip.port u.val).enumAt = none ∧
      SameBut t (withChip s (s.chip.setPort u.val (t.chip.port u.val)))) ∧
  (∀ (u : Fin 8) (s : State), bit (s.chip.port u.val).feed 7 = true → (s.chip.stall (bits (s.chip.port u.val).feed 5 0)).st ≠ .on →
    (s.chip.port u.val).feedLost = false →
    ∃ t, exec (.portFeedLost u) s = .next t ∧ (t.chip.port u.val).valid = false ∧ (t.chip.port u.val).feedLost = true ∧
      (t.chip.port u.val).txBusy = false ∧ (t.chip.port u.val).load = none ∧ (t.chip.port u.val).enumAt = none ∧
      (t.chip.port u.val).latchJob = none ∧ (t.chip.port u.val).sendJob = none ∧ (t.chip.port u.val).loadJob = none ∧
      (t.chip.port u.val).enumQ = [] ∧ (t.chip.port u.val).latchQ = [] ∧ (t.chip.port u.val).frameQ = [] ∧ (t.chip.port u.val).statWait = false ∧
      (t.chip.port u.val).shown = (s.chip.port u.val).shown ∧
      SameBut t (withChip s { s.chip.setPort u.val (t.chip.port u.val) with latches := t.chip.latches })) ∧
  (∀ (u : Fin 8) (j : Job) (s : State), bit (s.chip.port u.val).feed 7 = true → (s.chip.stall (bits (s.chip.port u.val).feed 5 0)).st ≠ .on →
    (s.chip.port u.val).feedLost = false → OnlyJob s j → j.turn = none →
    (s.chip.port u.val).sendJob = some j.id ∨ (s.chip.port u.val).loadJob = some j.id ∨ (s.chip.port u.val).enumJob = some j.id ∨
      (s.chip.port u.val).latchJob = some j.id →
    ∃ t, exec (.portFeedLost u) s = .next t ∧ Done s t j St.busy 0 s.chip.mt.val) ∧
  (∀ (u : Fin 8) (s : State), bit (s.chip.port u.val).feed 7 = true → (s.chip.stall (bits (s.chip.port u.val).feed 5 0)).st = .on →
    (s.chip.port u.val).feedLost = true →
    (portSlow s.regs u.val = true → exec (.feedRestored u) s = .next (withChip s (s.chip.setPort u.val { s.chip.port u.val with feedLost := false }))) ∧
    (portSlow s.regs u.val = false → LineFree s u.val →
      exec (.feedRestored u) s = .next (withChip s { s.chip.setPort u.val { inForce s.regs u.val (s.chip.port u.val) with
          feedLost := false, valid := false, ver := (s.chip.port u.val).ver + 1, enumJob := none, enumOp := 3, enumAt := some 0
          enumTab := [], trunc := false } with
        out := .lantern u.val (controlCells 0x3FF 2 0) :: .lantern u.val (controlCells 0x3FF 1 0) :: s.chip.out })))

/-- Switch inputs (10 R235 to R243) of a yard that measures. Each sample gives an input its raw code and measurement; under R239's condition the
CODE stands with LOWV, else it becomes the raw code once DEB samples agree, and an input with EVT reports the new CODE of the first sample
that agreed, where the halter can report. In PARK and WATCH the polled inputs are confirmed alike by WNA. Where no earlier command of YD is
on its way, a snapshot is written and its result returned at once, or, with FRESH, at the next sample, which leaves CODE as it is. The
wetting current of an input ends; an encoder edge counts where EDGE selects it; a conversion stores its values and the limits they leave,
and reports one that leaves them where EVT is set. -/
def Obligations.SwitchInputs : Prop :=
  (∀ (m : List Int) (s : State), dioOn s.regs s.chip = true → s.chip.halt.snaps = [] →
    ∃ t, exec (.siSample m) s = .next t ∧
      (∀ n, n < 48 →
        let raw := siRaw s.regs n (s.chip.si n).raw (s.chip.feed 2).mv (measAt m n)
        let cnt := if (s.chip.si n).lowv = false ∧ (s.chip.si n).cand = raw ∧ (s.chip.si n).cnt ≠ 0 then min 15 ((s.chip.si n).cnt + 1) else 1
        let new := !siLow s.regs s.chip n && decide (max 1 (bits (s.regs.h (Reg.SI_CFG n)) 11 8) ≤ cnt)
        (t.chip.si n).raw = raw ∧ (t.chip.si n).meas = measWord (siType s.regs n) (s.chip.feed 2).mv (measAt m n) ∧
        (t.chip.si n).lowv = siLow s.regs s.chip n ∧ (t.chip.si n).code = (if new then raw else (s.chip.si n).code) ∧
        (new = true → raw ≠ (s.chip.si n).code → bit (s.regs.h (Reg.SI_CFG n)) 15 = true → Safety.Reports 3 s →
          if codeFault (siType s.regs n) raw then
            Waits t 3 (125 + n) Cls.fault (siPay s.regs n 2 raw (t.chip.si n)) (t.chip.si n).candT
          else Waits t 3 (125 + n) Cls.state (siPay s.regs n 1 raw (t.chip.si n)) (t.chip.si n).candT)) ∧
      SameBut t (withChip s { s.chip with halt := { s.chip.halt with sis := t.chip.halt.sis } })) ∧
  (∀ (m : List Int) (s : State), s.chip.parked = true → s.chip.sys.aon = true → s.chip.sys.sleepTo = none →
    ∃ t, exec (.parkPoll m) s = .next t ∧
      (∀ n, n < 48 → bit (s.regs.h (Reg.SI_CFG n)) 12 = true →
        let raw := siRaw s.regs n (s.chip.si n).parkCand (s.chip.feed 4).mv (measAt m n)
        let cnt := if (s.chip.si n).parkCand = raw ∧ (s.chip.si n).parkCnt ≠ 0 then min 3 ((s.chip.si n).parkCnt + 1) else 1
        (t.chip.si n).parkCand = raw ∧ (t.chip.si n).parkCode =
          (if max 1 (bits (s.regs.h Reg.DIO_CFG) 27 26) ≤ cnt then raw else (s.chip.si n).parkCode)) ∧
      (∀ n, bit (s.regs.h (Reg.SI_CFG n)) 12 = false → t.chip.si n = s.chip.si n) ∧
      (∀ n, (t.chip.si n).code = (s.chip.si n).code) ∧ t.chip.jobs = s.chip.jobs ∧ t.regs = s.regs ∧ t.mram = s.mram ∧
      t.pending = s.pending) ∧
  (∀ (h : Hdr) (u : Fin 128) (addr : Nat) (s : State),
    AdmittedYard (descSiSnapshot u addr) h 3 (checks56 s.regs s.chip 0x12 u.val) s →
    (∃ t, exec (.siSnapshot h u false addr) s = .next t ∧ resultOf s St.ok (snapResult s.regs s.chip) ∈ (t.chip.yard 3).results ∧
      ((s.chip.ring h.fn).dmaOk = true → Out.dma h.fn addr (snapRecord s.regs s.chip fun n => (s.chip.si n).raw) ∈ t.chip.out) ∧ SameBut t s) ∧
    (∃ t, exec (.siSnapshot h u true addr) s = .next t ∧
      SameBut t (withChip s { s.chip with halt := { s.chip.halt with snaps := s.chip.halt.snaps ++ [(s.chip.nextJob, addr)] } }))) ∧
  (∀ (m : List Int) (s : State), dioOn s.regs s.chip = true → s.chip.halt.snaps ≠ [] →
    ∃ t, exec (.siSample m) s = .next t ∧
      (∀ x ∈ s.chip.halt.snaps, { job := x.1, st := St.ok, res := snapResult s.regs s.chip, t := s.chip.mt.val } ∈ (t.chip.yard 3).results) ∧
      SameBut t (withChip s { s.chip with halt := { s.chip.halt with snaps := [] } })) ∧
  (∀ (n : Fin 48) (s : State),
    exec (.wettingEnd n) s = .next (withChip s (s.chip.setSi n.val { s.chip.si n.val with wet := false }))) ∧
  (∀ (k : Fin 12) (rising : Bool) (s : State), dioOn s.regs s.chip = true →
    (∀ n, n < 10 → posSrc s.regs n ≠ 1 ∧ posSrc s.regs n ≠ 2) → bit (s.regs.h (Reg.ENC_CFG k.val)) 13 = false →
    exec (.encEdge k rising) s = .next (withChip s { s.chip with halt := { s.chip.halt with
      encLv := s.chip.halt.encLv.put k.val rising
      encs := if bits (s.regs.h (Reg.ENC_CFG k.val)) 15 14 = (if rising then 1 else 0) then s.chip.halt.encs
        else s.chip.halt.encs.put k.val ((UMap.get 0 s.chip.halt.encs k.val + 1) % 2 ^ 32) } })) ∧
  (∀ (k : Fin 12) (rising : Bool) (s : State), dioOn s.regs s.chip = true →
    ∃ t, exec (.encEdge k rising) s = .next t ∧ t.chip.halt.encLv = s.chip.halt.encLv.put k.val rising ∧
      (bits (s.regs.h (Reg.ENC_CFG k.val)) 15 14 ≠ (if rising then 1 else 0) →
        UMap.get 0 t.chip.halt.encs k.val = (UMap.get 0 s.chip.halt.encs k.val + 1) % 2 ^ 32)) ∧
  (∀ (v : List Nat) (s : State), dioOn s.regs s.chip = true →
    ∃ t, exec (.ainConversion v) s = .next t ∧
      (∀ m, m < 8 → (t.chip.ain m).val = min 4095 (v.getD m 0) ∧
        (t.chip.ain m).below = decide (min 4095 (v.getD m 0) < bits (s.regs.h (Reg.AIN_LIM m)) 11 0) ∧
        (t.chip.ain m).above = decide (bits (s.regs.h (Reg.AIN_LIM m)) 27 16 < min 4095 (v.getD m 0)) ∧
        (bit (s.regs.h (Reg.AIN_CFG m)) 14 = true → (s.chip.ain m).below = false → (s.chip.ain m).above = false →
          (t.chip.ain m).below = true ∨ (t.chip.ain m).above = true → Safety.Reports 3 s →
          Waits t 3 (125 + min 47 (bits (s.regs.h (Reg.AIN_CFG m)) 13 8)) Cls.limit (pay ([5, m] ++ two (min 4095 (v.getD m 0)) ++ [1])) s.chip.mt.val)) ∧
      SameBut t (withChip s { s.chip with halt := { s.chip.halt with ains := t.chip.halt.ains } }))

/-- Signal outputs (10 R246 to R249). Where no earlier command of YD is on its way, DO_SET starts the rise or the fall of an output and waits
for it, and one for a state that the output has completes OK at once; those of the other direction complete OK first (log entry 60). A trip
or an overheating turns the output off and counts; at RETRY_N it latches, else it waits, and 100 ms after the trip and below the restart
temperature it turns on again; a clean run zeroes the count; an open load is flagged, and its end clears the flag. A halter that can report
reports each trip, latch and open load. -/
def Obligations.SignalOutputs : Prop :=
  (∀ (h : Hdr) (u : Fin 12) (clear : Bool) (s : State), AdmittedYard (descDoSet u s) h 3 (checks56 s.regs s.chip 0x11 u.val ++
      [((s.chip.yard 3).lockout, St.supplyLow), ((s.chip.dout u.val).latched && !clear, St.latched)]) s →
    ((s.chip.dout u.val).on = false → (s.chip.dout u.val).waiting = false →
      ∃ t, exec (.doSet h u true clear) s = .next t ∧ (t.chip.dout u.val).on = true ∧ (t.chip.dout u.val).up = false ∧
        (t.chip.dout u.val).req = true ∧ (t.chip.dout u.val).latched = false ∧
        (t.chip.dout u.val).jobs = (if (s.chip.dout u.val).req then (s.chip.dout u.val).jobs else []) ++ [s.chip.nextJob] ∧
        ((s.chip.dout u.val).req = false → ∀ id ∈ (s.chip.dout u.val).jobs, ∃ x ∈ (t.chip.yard 3).results, x.job = id ∧ x.st = St.ok) ∧
        SameBut t (withChip s (s.chip.setDout u.val (t.chip.dout u.val)))) ∧
    ((s.chip.dout u.val).on = true → (s.chip.dout u.val).up = true → (s.chip.dout u.val).req = true →
      ∃ t, exec (.doSet h u true clear) s = .next t ∧ resultOf s St.ok (doResult (t.chip.dout u.val)) ∈ (t.chip.yard 3).results ∧
        SameBut t (withChip s (s.chip.setDout u.val { s.chip.dout u.val with
          latched := false, att := if clear then 0 else (s.chip.dout u.val).att
          openLoad := (s.chip.dout u.val).openLoad && !clear }))) ∧
    ((s.chip.dout u.val).req = true → (s.chip.dout u.val).on = true ∧ (s.chip.dout u.val).up = false ∨
        (s.chip.dout u.val).on = false ∧ (s.chip.dout u.val).waiting = true →
      ∃ t, exec (.doSet h u true clear) s = .next t ∧
        SameBut t (withChip s (s.chip.setDout u.val { s.chip.dout u.val with
          latched := false, att := if clear then 0 else (s.chip.dout u.val).att
          openLoad := (s.chip.dout u.val).openLoad && !clear, jobs := (s.chip.dout u.val).jobs ++ [s.chip.nextJob] })))) ∧
  (∀ (h : Hdr) (u : Fin 12) (clear : Bool) (s : State), AdmittedYard (descDoSet u s) h 3 (checks56 s.regs s.chip 0x11 u.val ++
      [((s.chip.dout u.val).latched && !clear, St.latched)]) s →
    ((s.chip.dout u.val).on = true ∨ (s.chip.dout u.val).falling = true →
      ∃ t, exec (.doSet h u false clear) s = .next t ∧ (t.chip.dout u.val).on = false ∧ (t.chip.dout u.val).falling = true ∧
        (t.chip.dout u.val).req = false ∧ (t.chip.dout u.val).waiting = false ∧
        (t.chip.dout u.val).jobs = (if (s.chip.dout u.val).req then [] else (s.chip.dout u.val).jobs) ++ [s.chip.nextJob] ∧
        ((s.chip.dout u.val).req = true → ∀ id ∈ (s.chip.dout u.val).jobs, ∃ x ∈ (t.chip.yard 3).results, x.job = id ∧ x.st = St.ok) ∧
        SameBut t (withChip s (s.chip.setDout u.val (t.chip.dout u.val)))) ∧
    ((s.chip.dout u.val).on = false → (s.chip.dout u.val).falling = false →
      ∃ t, exec (.doSet h u false clear) s = .next t ∧ resultOf s St.ok (doResult (t.chip.dout u.val)) ∈ (t.chip.yard 3).results ∧
        (t.chip.dout u.val).on = false ∧ (t.chip.dout u.val).req = false ∧ (t.chip.dout u.val).waiting = false ∧
        SameBut t (withChip s (s.chip.setDout u.val (t.chip.dout u.val))))) ∧
  (∀ (n : Fin 12) (m : Nat) (tj : Int) (s : State), m = doLeader s.chip n.val → (s.chip.dout m).on = true → 170000 ≤ tj →
    ∀ x ∈ [(Instr.doTrip n, 0x11), (.doThermal n tj, 0x12)],
      let latch := decide (max 1 (bits (s.regs.h (Reg.DO_CFG m)) 2 0) ≤ min 7 ((s.chip.dout m).att + 1))
      ∃ t, exec x.1 s = .next t ∧ (t.chip.dout m).on = false ∧ (t.chip.dout m).falling = true ∧
        (t.chip.dout m).att = min 7 ((s.chip.dout m).att + 1) ∧ (t.chip.dout m).latched = latch ∧ (t.chip.dout m).waiting = !latch ∧
        (t.chip.dout m).tripT = s.chip.now ∧ (t.chip.dout m).jobs = [] ∧
        (Safety.Reports 3 s → Waits t 3 (113 + m) Cls.fault (doPay m x.2 t.chip) s.chip.mt.val ∧
          (latch = true → Waits t 3 (113 + m) Cls.latched (doPay m 0x13 t.chip) s.chip.mt.val)) ∧
        (∀ id ∈ (s.chip.dout m).jobs, ∃ x ∈ (t.chip.yard 3).results, x.job = id ∧ x.st = if latch then St.latched else St.ok) ∧
        SameBut t (withChip s (s.chip.setDout m (t.chip.dout m)))) ∧
  (∀ (n : Fin 12) (m : Nat) (tj : Int) (s : State), m = doLeader s.chip n.val → (s.chip.dout m).waiting = true → tj < 150000 →
    (s.chip.dout m).tripT + 100000000 ≤ s.chip.now → (s.chip.yard 3).lockout = false →
    exec (.doRetry n tj) s = .next (withChip s (s.chip.setDout m { s.chip.dout m with
      tj := tj, thermal := false, on := true, up := false, waiting := false, falling := false, limiting := false }))) ∧
  (∀ (n : Fin 12) (m : Nat) (s : State), m = doLeader s.chip n.val → (s.chip.dout m).on = true →
    exec (.doCleanRun n) s = .next (withChip s (s.chip.setDout m { s.chip.dout m with att := 0 }))) ∧
  (∀ (n : Fin 12) (m ma : Nat) (s : State), m = doLeader s.chip n.val → (s.chip.dout m).on = true →
    bits (s.regs.h (Reg.DO_CFG m)) 15 8 ≠ 0 →
    ∃ t, exec (.doOpenLoad n ma) s = .next t ∧
      (Safety.Reports 3 s →
        (ma < bits (s.regs.h (Reg.DO_CFG m)) 15 8 → (s.chip.dout m).openLoad = false →
          Waits t 3 (113 + m) Cls.diag (doPay m 0x14 t.chip) s.chip.mt.val) ∧
        (bits (s.regs.h (Reg.DO_CFG m)) 15 8 ≤ ma → (s.chip.dout m).openLoad = true →
          Waits t 3 (113 + m) Cls.diag (doPay m 0x15 t.chip) s.chip.mt.val)) ∧
      SameBut t (withChip s (s.chip.setDout m { s.chip.dout m with
        openLoad := decide (ma < bits (s.regs.h (Reg.DO_CFG m)) 15 8), iMa := ma })))

/-- The edges of outputs (05 R135, 10 R249): with an output that has risen to 90 % of its feed the pending turn-on completes OK, or OK_CLAMPED,
with the current; with one that has fallen below 10 % the pending turn-offs do, and the turn-off counts as wear (15 R341). -/
def Obligations.OutputEdges : Prop :=
  (∀ (u : Fin 76) (ma id : Nat) (s : State), u.val < 64 → (s.chip.stall u.val).active = true → (s.chip.stall u.val).out = true →
    (s.chip.stall u.val).job = some id →
    ∃ t, exec (.turnOnComplete u ma) s = .next t ∧
      { job := id, st := okStatus s.regs t.chip u.val, res := if (s.chip.stall u.val).jobPwm then pwmResult s.chip u.val 0x10000 1 false
          else setResult s.regs t.chip u.val 1 false, t := s.chip.mt.val } ∈ (t.chip.yard (stallYard u.val)).results ∧
      ((s.chip.stall u.val).pwm = false → (t.chip.stall u.val).jobsP = [] ∧ ∀ k ∈ (s.chip.stall u.val).jobsP,
        ∃ x ∈ (t.chip.yard (stallYard u.val)).results, x.job = k ∧ x.st = okStatus s.regs s.chip u.val) ∧
      SameBut t (withChip s (s.chip.setStall u.val { s.chip.stall u.val with
        iMa := ma, job := none, jobsP := (t.chip.stall u.val).jobsP, clampP := (t.chip.stall u.val).clampP }))) ∧
  (∀ (u : Fin 76) (m ma : Nat) (s : State), 64 ≤ u.val → m = doLeader s.chip (u.val - 64) → (s.chip.dout m).on = true →
    (s.chip.dout m).up = false →
    ∃ t, exec (.turnOnComplete u ma) s = .next t ∧
      (∀ id ∈ (s.chip.dout m).jobs, { job := id, st := St.ok, res := doResult (t.chip.dout m), t := s.chip.mt.val } ∈
        (t.chip.yard 3).results) ∧
      SameBut t (withChip s (s.chip.setDout m { s.chip.dout m with up := true, iMa := ma, jobs := [] }))) ∧
  (∀ (u : Fin 76) (clampUj : Nat) (s : State), u.val < 64 → (s.chip.stall u.val).falling = true →
    ∃ t, exec (.turnOffComplete u clampUj) s = .next t ∧ (t.chip.stall u.val).falling = false ∧ (t.chip.stall u.val).offJobs = [] ∧
      (t.chip.stall u.val).wear = (s.chip.stall u.val).wear + wearUnits clampUj (stallEar (stallKind u.val)) ∧
      (∀ j ∈ (s.chip.stall u.val).offJobs, { job := j.1, st := St.ok
                                             res := if j.2 then pwmResult s.chip u.val 0 0 false else setResult s.regs s.chip u.val 0 false
                                             t := s.chip.mt.val } ∈ (t.chip.yard (stallYard u.val)).results) ∧
      ((∀ w, w < 8 → rowPending s.regs s.chip w = false) → ∀ i, i ≠ u.val → t.chip.stall i = s.chip.stall i) ∧
      t.chip.budget = { s.chip.budget with clampUj := s.chip.budget.clampUj + clampUj } ∧
      t.regs = s.regs ∧ t.mram = s.mram ∧ t.pending = s.pending) ∧
  (∀ (u : Fin 76) (clampUj : Nat) (s : State), u.val < 64 → (s.chip.stall u.val).falling = true → (s.chip.stall u.val).active = true →
    ∃ t, exec (.turnOffComplete u clampUj) s = .next t ∧ SameBut t (withChip s { s.chip.setStall u.val { s.chip.stall u.val with
      falling := false, fast := false, offJobs := []
      wear := (s.chip.stall u.val).wear + wearUnits clampUj (stallEar (stallKind u.val)) } with
        budget := { s.chip.budget with clampUj := s.chip.budget.clampUj + clampUj } })) ∧
  (∀ (u : Fin 76) (m clampUj : Nat) (s : State), 64 ≤ u.val → m = doLeader s.chip (u.val - 64) → (s.chip.dout m).on = false →
    (s.chip.dout m).falling = true →
    ∃ t, exec (.turnOffComplete u clampUj) s = .next t ∧ (t.chip.dout m).falling = false ∧ (t.chip.dout m).jobs = [] ∧
      (t.chip.dout m).wear = (s.chip.dout m).wear + wearUnits clampUj doEar ∧
      (∀ id ∈ (s.chip.dout m).jobs, ∃ x ∈ (t.chip.yard 3).results, x.job = id ∧ x.st = St.ok) ∧
      t.chip.budget = { s.chip.budget with clampUj := s.chip.budget.clampUj + clampUj } ∧
      t.regs = s.regs ∧ t.mram = s.mram ∧ t.pending = s.pending)

/-- TIMER_ARM (11 R254 to R256, R267): the writes precede the action; START loads the start value and runs; ARM waits for a GSTART (that it
stops the channel is the model's choice, log entry 33); STOP holds the value; UPDATE alone writes, and of a running channel is BUSY, with
nothing written, where more than bits [12:8] of the configuration would change. LF_TICK (11 R265): with its carried fraction MTIME advances
by exactly 30,517.578125 ns, and a channel in low-frequency mode by exactly 6,103.515625 CLK_TMR edges, stated of one that counts itself and
reaches neither 0 nor a match; what is carried never exceeds half a unit. A tick outside that mode changes nothing. -/
def Obligations.TimerArmAndLowFrequencyTick : Prop :=
  (∀ (h : Hdr) (u : Fin 32) (reload cmp init : Option (Fin 4294967296)) (cfg : Option (Fin 65536)) (s : State),
    Admitted (armDesc u.val cfg) h s → Answers h s → firstFail (checks56 s.regs s.chip 0x02 u.val) = none → s.chip.parked = false →
    let x := armTaken (s.chip.timer u.val) reload cmp
    let does (c : Instr) (y : Regs → Timer) : Prop := ∃ t, exec c s = .next t ∧ t.chip.timer u.val = y t.regs ∧
      ArmRegs t s u.val reload cmp init cfg ∧ entryOf s h St.ok (armResult (y t.regs)) ∈ t.chip.out ∧
      (∀ v, cmp = some v → compareLate (s.chip.timer u.val) v.val = true →
        Told s t (192 + u.val) Cls.warning (timerPay 4 v.val 1)) ∧
      (∀ m, m ≠ u.val → t.chip.timer m = s.chip.timer m) ∧
      SameBut t { withChip s { s.chip with timers := t.chip.timers } with regs := t.regs }
    does (.timerArmStart h u reload cmp init cfg) (fun r => started r u.val x) ∧
      does (.timerArmArm h u reload cmp init cfg)
        (fun r => { x with armed := true, running := false, cfg := bits (r.c (Reg.TMR_CFG u.val)) 7 0 }) ∧
      does (.timerArmStop h u reload cmp init cfg) (fun _ => { x with armed := false, running := false }) ∧
      ((s.chip.timer u.val).running = false ∨ cfg = none ∨
          (∃ v ∈ cfg, (tmrCfgMask v.val &&& 0xFF) = (s.regs.c (Reg.TMR_CFG u.val) &&& 0xFF)) →
        does (.timerArmUpdate h u reload cmp init cfg) fun _ => x) ∧
      (∀ v, (s.chip.timer u.val).running = true → cfg = some v →
        (tmrCfgMask v.val &&& 0xFF) ≠ (s.regs.c (Reg.TMR_CFG u.val) &&& 0xFF) →
        ∃ t, exec (.timerArmUpdate h u reload cmp init cfg) s = .next t ∧ entryOf s h St.busy 0 ∈ t.chip.out ∧ SameBut t s)) ∧
  (∀ s : State, s.chip.mt.src ≠ .lf → exec .lfTick s = .next s) ∧
  (∀ s : State, s.chip.mt.src = .lf → s.chip.mt.frac.natAbs ≤ 500000000 → (∀ n, (s.chip.timer n).lf = false) →
    ∃ t, exec .lfTick s = .next t ∧ t.chip.mt.frac.natAbs ≤ 500000000 ∧
      (t.chip.mt.val : Int) * 1000000000 + t.chip.mt.frac = (s.chip.mt.val : Int) * 1000000000 + s.chip.mt.frac + 30517578125000 ∧
      SameBut t (withChip s { s.chip with now := s.chip.now + (t.chip.mt.val - s.chip.mt.val),
                                          mt := { s.chip.mt with val := t.chip.mt.val, frac := t.chip.mt.frac } })) ∧
  (∀ (n : Nat) (x : Timer) (s : State), s.chip.mt.src = .lf → s.chip.timer n = x → (s.chip.timers.map fun e => e.1).Nodup → n < 32 → x.lf = true → x.running = true →
    bit x.cfg 1 = false → bit x.cfg 2 = false → x.frac.natAbs ≤ 32 * 2 ^ x.presc → 6200 < x.count →
    ∃ t m, exec .lfTick s = .next t ∧ t.chip.timer n = { x with count := x.count - m, frac := (t.chip.timer n).frac } ∧
      (m : Int) * (64 * (2 ^ x.presc : Nat)) + (t.chip.timer n).frac = x.frac + 390625 ∧ m < x.count ∧
      (t.chip.timer n).frac.natAbs ≤ 32 * 2 ^ x.presc ∧ t.regs = s.regs ∧ t.mram = s.mram ∧ t.pending = s.pending)

/-- GSTART (11 R260): executed without an AT_TIME, or with one at most 2 µs ahead, it takes as T0 its execution instant plus 2 µs, on the next
edge of CLK_TMR; at T0 each named channel starts with its registers, each named row restarts, channels not named are not touched, and the
entry carries T0, with LATE where the descriptor came too late. The zero step and the match of a channel (11 R253, R254, R256, R258, R268):
a zero step takes the reload buffer, is counted and reported where EVT_ZERO is set, samples the Bridle loops it triggers and steps the
sequences it times; a one-shot channel stops. The zero step of a cascaded high channel is that of its low channel. A match is reported where
EVT_MATCH is set, and in PARK and WATCH wakes where WAKE is set (R266). A captured edge gives its interval in 5 ns (R257). -/
def Obligations.TimerStartsAndHappenings : Prop :=
  (∀ (h : Hdr) (timers : Fin 4294967296) (rows : Fin 256) (s : State), Passes (descGstart h timers rows s) h s →
    (∀ a, h.at_ = some a → a ≤ s.chip.mt.val + 2000) →
    firstFail (checks56 s.regs s.chip 0x02 0) = none →
    (∀ w, w < 8 → rows.val.testBit w = true → yardCommandable s.chip (rowYard w) = true ∧
      (s.chip.yard (rowYard w)).resetting = false) →
    (rows.val < 64 ∨ s.chip.ycOff = false) →
    ∃ t, exec (.gstart h timers rows) s = .next t ∧
      (∃ j ∈ t.chip.jobs, j.id = s.chip.nextJob ∧ j.aux = (if ∃ a, h.at_ = some a ∧ a < s.chip.mt.val + 2000 then 1 else 0)) ∧
      SameBut t (withChip s { s.chip with
        gstart := s.chip.gstart ++ [(toEdge s.chip.mt.val (s.chip.mt.val + 2000), timers.val, rows.val, s.chip.nextJob)] })) ∧
  (∀ (t0 timers rows : Nat) (j : Job) (s : State), s.chip.gstart = [(t0, timers, rows, j.id)] → t0 ≤ s.chip.mt.val → OnlyJob s j → j.turn = none →
    s.chip.parked = false →
    ∃ t, exec .gstartEdge s = .next t ∧ t.chip.gstart = [] ∧ Done s t j St.ok (if j.aux = 1 then 1 else 0) t0 ∧
      (∀ n, n < 32 → t.chip.timer n = if timers.testBit n then started s.regs n (s.chip.timer n) else s.chip.timer n) ∧
      (∀ w, w < 8 → t.chip.row w = if rows.testBit w then { s.chip.row w with aligned := true, start := s.chip.now } else s.chip.row w) ∧
      SameBut t (withChip s { s.chip with gstart := [], timers := t.chip.timers, halt := { s.chip.halt with rows := t.chip.halt.rows } })) ∧
  (∀ (n : Fin 32) (s : State), (s.chip.timer n.val).running = true → cascaded s.chip n.val = false →
    ¬(n.val % 2 = 0 ∧ cascaded s.chip (n.val + 1) = true ∧ (s.chip.timer (n.val + 1)).running = true ∧
      (s.chip.timer (n.val + 1)).count = 0) →
    ∃ t, exec (.timerZeroStep n) s = .next t ∧
      (s.chip.ctlRuns = true → bit (s.regs.c (Reg.TMR_CFG n.val)) 8 = true →
        Told s t (192 + n.val) Cls.info (timerPay 1 (s.chip.timer n.val).reload 1)) ∧
      (∀ m, t.chip.loop m =
        if m < 10 ∧ bits (lv s.regs (Reg.LOOP_CFG m)) 12 8 = n.val then (takeSample m s.chip).loop m else s.chip.loop m) ∧
      SameBut t (withChip s { s.chip.setTimer n.val { s.chip.timer n.val with
          count := 0, psc := 0, next := (s.chip.timer n.val).reload, zeros := ((s.chip.timer n.val).zeros + 1) % 65536
          running := bit (s.chip.timer n.val).cfg 0 } with
        halt := { s.chip.halt with loops := t.chip.halt.loops }
        seqs := s.chip.seqs.map fun (q : VSeq) => if q.trig = some n.val then { q with zeros := q.zeros ++ [s.chip.mt.val] } else q })) ∧
  (∀ (n : Fin 32) (s : State), n.val % 2 = 1 → (s.chip.timer n.val).running = true → cascaded s.chip n.val = true →
    (s.chip.timer (n.val - 1)).running = true →
    ∃ t, exec (.timerZeroStep n) s = .next t ∧ (∀ m ∈ [n.val - 1, n.val],
      (t.chip.timer m).count = 0 ∧ (t.chip.timer m).zeros = ((s.chip.timer m).zeros + 1) % 65536 ∧
        (t.chip.timer m).next = (s.chip.timer m).reload ∧ (t.chip.timer m).running = bit (s.chip.timer m).cfg 0) ∧
      (∀ m, m ≠ n.val ∧ m ≠ n.val - 1 → t.chip.timer m = s.chip.timer m) ∧ t.regs = s.regs ∧ t.mram = s.mram ∧ t.pending = s.pending) ∧
  (∀ (n : Fin 32) (s : State), (s.chip.timer n.val).running = true → s.chip.parked = false →
    ∃ t, exec (.timerMatch n) s = .next t ∧
      (s.chip.ctlRuns = true → bit (s.chip.timer n.val).cfg 2 = true → (s.chip.timer n.val).cmp ≤ (s.chip.timer n.val).next →
        bit (s.regs.c (Reg.TMR_CFG n.val)) 9 = true →
        Told s t (192 + n.val) Cls.info (timerPay 2 (s.chip.timer n.val).next 1)) ∧
      SameBut t (withChip s (s.chip.setTimer n.val { s.chip.timer n.val with count := (s.chip.timer n.val).cmp }))) ∧
  (∀ (n : Fin 32) (s : State), (s.chip.timer n.val).running = true → s.chip.parked = true → s.chip.sys.armed = true →
    s.chip.sys.sleepTo = none → s.chip.sys.wakeRec = [] → bit (s.chip.timer n.val).cfg 2 = true →
    (s.chip.timer n.val).cmp ≤ (s.chip.timer n.val).next → bit (s.regs.c (Reg.TMR_CFG n.val)) 12 = true →
    ∃ t, exec (.timerMatch n) s = .next t ∧ t.chip.sys.wakeRec = [192 + n.val] ∧ t.chip.sys.wakePin = true ∧
      ({ src := 192 + n.val, cls := Cls.wake, pay := timerPay 5 (s.chip.timer n.val).next 1, t := s.chip.mt.val } : Ev) ∈ t.chip.sys.wakeEv ∧
      t.regs = s.regs ∧ t.mram = s.mram ∧ t.pending = s.pending) ∧
  (∀ (k : Fin 12) (n : Nat) (s : State), dioOn s.regs s.chip = true → s.chip.fwRuns = true → n = bits (s.regs.h (Reg.ENC_CFG k.val)) 12 8 →
    bit (s.regs.h (Reg.ENC_CFG k.val)) 13 = true → bits (s.regs.h (Reg.ENC_CFG k.val)) 15 14 = 0 →
    (∀ m, m < 10 → posSrc s.regs m ≠ 1 ∧ posSrc s.regs m ≠ 2) → (s.chip.timer n).capSeen = true →
    ∃ t, exec (.encEdge k true) s = .next t ∧
      t.chip.timer n = { s.chip.timer n with
        capT := s.chip.mt.val, capSeen := true, capIv := min 0xFFFFFFFF ((s.chip.mt.val - (s.chip.timer n).capT) / 5) } ∧
      (bit (s.regs.c (Reg.TMR_CFG n)) 10 = true → Told s t (192 + n) Cls.info (timerPay 3 (t.chip.timer n).capIv 1)))

/-- The discipline of MTIME (11 R261 to R263): a sync slews, steps forward (the first lock too where MTIME is behind) or, past 10 s, leaves
MTIME in HOLDOVER with GM_BEHIND, by its offset, and is passed to the other port; the rate correction stays within 500 ppm, and MTIME never
runs backwards. Lock, holdover and a new grandmaster are reported. Path delays are measured and interval requests obeyed. -/
def Obligations.ModuleTime : Prop :=
  (∀ (p : Fin 2) (d : Int) (s : State), gptpOn s.regs s.chip p.val = true →
    ∃ t, exec (.gptpSync p d) s = .next t ∧
      (let m := { s.chip.mt with slaveOk := true, slavePort := p.val, offset := d }
       (10000000000 < d → t.chip.mt = { m with st := 3, behind := true } ∧
          (s.chip.mt.behind = false → Told s t 191 Cls.fault (timePay 0x43 d p.val))) ∧
       (1000000 < d → d ≤ 10000000000 → t.chip.mt = { m with st := 1, behind := false, rate := -500000 }) ∧
       (d < -1000000 ∨ (d < 0 ∧ s.chip.mt.firstSync = false) →
          t.chip.mt = { m with st := 1, behind := false, val := s.chip.mt.val + d.natAbs, offset := 0, firstSync := true } ∧
          ∀ pf ∈ srcFns s.regs 191, EqReady s pf 191 → recordOf s pf { evNow s 191 Cls.time (timePay 0x41 d p.val) with
            t := s.chip.mt.val + d.natAbs } ∈ t.chip.out) ∧
       (-1000000 ≤ d → d ≤ 1000000 → 0 ≤ d ∨ s.chip.mt.firstSync = true →
          t.chip.mt = { m with st := if s.chip.mt.st = 2 then 2 else 1, behind := false, rate := t.chip.mt.rate } ∧
          t.chip.mt.rate.natAbs ≤ 500000)) ∧
      (gptpOn s.regs s.chip (1 - p.val) = true → Out.gptp (1 - p.val) 0 [] ∈ t.chip.out) ∧
      s.chip.mt.val ≤ t.chip.mt.val ∧
      (t.chip.mt.val = s.chip.mt.val ∨ s.chip.gstart = [] ∧ (∀ j ∈ s.chip.jobs, j.waiting = false) →
        SameBut t (withChip s { s.chip with mt := t.chip.mt }))) ∧
  (∀ s : State, s.chip.fwRuns = true → s.chip.sys.halted = false → s.chip.mt.slaveOk = true →
    (s.chip.mt.offset.natAbs ≤ 80 → s.chip.mt.st ≠ 2 →
      ∃ t, exec .timeLocked s = .next t ∧ Told s t 191 Cls.time (timePay 0x40 s.chip.mt.offset s.chip.mt.slavePort) ∧
        SameBut t (withChip s { s.chip with mt := { s.chip.mt with st := 2, firstSync := true } })) ∧
    (∃ t, exec .timeHoldover s = .next t ∧ Told s t 191 Cls.warning (timePay 0x42 s.chip.mt.offset s.chip.mt.slavePort) ∧
      SameBut t (withChip s { s.chip with mt := { s.chip.mt with st := 3, slaveOk := false } }))) ∧
  (∀ (p : Fin 2) (prio : Fin 256) (qual gm : Nat) (s : State), gptpOn s.regs s.chip p.val = true →
    (bits (s.regs.c Reg.TIME_CFG) 7 0 = 255 ∨ prio.val < bits (s.regs.c Reg.TIME_CFG) 7 0) →
    (s.chip.mt.gm = none ∨ ∃ g ∈ s.chip.mt.gm, g ≠ gm ∧ (prio.val < s.chip.mt.gmPrio ∨ (s.chip.mt.st = 3 ∧ s.chip.mt.slaveOk = false))) →
    ∃ t, exec (.gptpAnnounce p prio qual gm) s = .next t ∧ Told s t 191 Cls.time (timePay 0x44 s.chip.mt.offset p.val) ∧
      SameBut t (withChip s { s.chip with mt := { s.chip.mt with
        gm := some gm, gmPrio := prio.val, gmQual := qual, slavePort := p.val, behind := false } })) ∧
  (∀ (p : Fin 2) (prio : Fin 256) (qual gm : Nat) (s : State), gptpOn s.regs s.chip p.val = true → s.chip.mt.gm ≠ some gm →
    bits (s.regs.c Reg.TIME_CFG) 7 0 < prio.val →
    exec (.gptpAnnounce p prio qual gm) s = .next s) ∧
  (∀ (p : Fin 2) (prio : Fin 256) (qual gm : Nat) (s : State), gptpOn s.regs s.chip p.val = true → s.chip.mt.gm = some gm →
    ∃ t, exec (.gptpAnnounce p prio qual gm) s = .next t ∧
      SameBut t (withChip s { s.chip with mt := { s.chip.mt with gmPrio := prio.val, gmQual := qual, slavePort := p.val } })) ∧
  (∀ (p : Fin 2) (delay : Nat) (s : State), gptpOn s.regs s.chip p.val = true →
    exec (.gptpPdelay p 0 delay) s = .next (withChip s (s.chip.emit (.gptp p.val 2 []))) ∧
    exec (.gptpPdelay p 1 delay) s = .next (withChip s ((s.chip.emit (.gptp p.val 3 [])).emit (.gptp p.val 4 []))) ∧
    exec (.gptpPdelay p 2 delay) s = .next (withChip s { s.chip with mt := { s.chip.mt with
      delay0 := if p = 0 then delay else s.chip.mt.delay0, delay1 := if p = 0 then s.chip.mt.delay1 else delay } })) ∧
  (∀ (p : Fin 2) (ls lp : Int) (s : State), gptpOn s.regs s.chip p.val = true → -128 ≤ ls → ls ≤ 127 → -128 ≤ lp → lp ≤ 127 →
    let ask (x : Option Int × Option Int) : Option Int × Option Int :=
      (if ls = -128 then x.1 else if ls = 126 then none else some ls, if lp = -128 then x.2 else if lp = 126 then none else some lp)
    exec (.gptpSignaling p ls lp) s = .next (withChip s { s.chip with mt := { s.chip.mt with
      asked0 := if p = 0 then ask s.chip.mt.asked0 else s.chip.mt.asked0, asked1 := if p = 0 then s.chip.mt.asked1 else ask s.chip.mt.asked1 } }))

/-- Reception (12 R278, R279, R281, R289, Table 12.6): a frame that no route names takes class 7 and goes to the host with its start of frame,
into the oldest posted buffer, or is dropped and counted; the segment's manager hears VALID_CLASS in VALIDATING and KA_CLASS in READY; the
first route that matches forwards it, waking a sleeping destination where the route says so. A buffer is posted and flushed. -/
def Obligations.NetworkReception : Prop :=
  (∀ (c : Instr) (u : Nat) (f : NetFrm) (sof : Nat) (s : State), Receives s c u f sof → SegUp s u → (s.chip.seg u).st = .awake →
    findRoute s.chip u f = none →
    let rec_ := recordBytes sof u 7 f
    ∃ t, exec c s = .next t ∧
      (∀ (b : RxBuf) (j : Job), (s.chip.seg u).rx = [b] → OnlyJob s j → j.turn = none → j.id = b.job → b.used + rec_.length ≤ b.len →
        ((s.chip.ring j.h.fn).dmaOk = true → Out.dma j.h.fn (b.addr + b.used) rec_ ∈ t.chip.out) ∧
        (b.recs = 0 → b.flush = 0 → Done s t j St.ok (1 + min 65535 (s.chip.seg u).drops * 65536) s.chip.mt.val ∧
          t.chip.seg u = { s.chip.seg u with rx := [], drops := 0, dropRun := false }) ∧
        (b.recs ≠ 0 ∨ b.flush ≠ 0 → t.chip.seg u = { s.chip.seg u with
          rx := [{ b with used := b.used + rec_.length, recs := b.recs + 1 }], dropRun := false })) ∧
      ((s.chip.seg u).rx = [] →
        t.chip.seg u = { s.chip.seg u with drops := satInc 65535 (s.chip.seg u).drops, rxDrop := ((s.chip.seg u).rxDrop + 1) % 65536
                                           dropRun := true } ∧
        ((s.chip.seg u).dropRun = false →
          Told s t (173 + u) Cls.limit (pay ([0x13, 2] ++ two (((s.chip.seg u).rxDrop + 1) % 65536))))) ∧
      (∀ k, t.chip.can k = { s.chip.can k with recE := (t.chip.can k).recE } ∧
        t.chip.lin k = { s.chip.lin k with silent := (t.chip.lin k).silent, pos := (t.chip.lin k).pos }) ∧
      SameBut t (withChip s { s.chip.setSeg u (t.chip.seg u) with cans := t.chip.cans, lins := t.chip.lins })) ∧
  (∀ (c : Instr) (u : Nat) (f : NetFrm) (sof : Nat) (s : State), Receives s c u f sof → SegUp s u → findRoute s.chip u f = none →
    ∃ t, exec c s = .next t ∧
      ((s.chip.seg u).st = .validating → bit (bits (s.regs.c (Reg.NM_CLASS u)) 7 0) 7 = true →
        (t.chip.seg u).st = .ready ∧ (t.chip.seg u).readyT = s.chip.now ∧ Told s t (173 + u) Cls.state (pay [3, 3, 0, 0, 0])) ∧
      ((s.chip.seg u).st = .ready → bit (bits (s.regs.c (Reg.NM_CLASS u)) 15 8) 7 = true →
        (t.chip.seg u).st = .ready ∧ (t.chip.seg u).readyT = s.chip.now)) ∧
  (∀ (c : Instr) (u d : Nat) (f g : NetFrm) (sof : Nat) (x : Route) (s : State), Receives s c u f sof → SegUp s u → (s.chip.seg u).st = .awake →
    findRoute s.chip u f = some x → x.dst = 2 ^ d → d < 16 → d ≠ u → convert s.regs d x.conv f = some g →
    let y := s.chip.seg d
    ∃ t, exec c s = .next t ∧
      (y.st.normal = true → (y.signalling = false ∨ y.st ≠ .ready) →
        (d < 8 → gwCount y < 64 → t.chip.seg d = { y with txq := y.txq ++ [{ frm := g }] }) ∧
        (14 ≤ d → y.txq.length < 32 → t.chip.seg d = { y with txq := y.txq ++ [{ frm := g }] }) ∧
        (8 ≤ d → d < 14 → UMap.get [] (t.chip.lin (d - 8)).pub (g.id.val % 64) = g.data ∧ t.chip.seg d = y)) ∧
      (y.st = .sleep → x.wake = true → heldCount y < 16 → (t.chip.seg d).st = .ready ∧
        (t.chip.seg d).txq = y.txq ++ [{ frm := g, due := s.chip.mt.val + 100000000, hold := true }] ∧ (busDrives s.chip = true → Out.busSignal d 0 ∈ t.chip.out)) ∧
      (y.st = .isolated ∨ y.st = .off ∨ (y.st = .sleep ∧ x.wake = false) → y.signalling = false →
        t.chip.seg d = { y with gwDrops := (y.gwDrops + 1) % 65536 } ∧
        Told s t (173 + d) Cls.limit (pay ([0x14, y.st.code] ++ two ((y.gwDrops + 1) % 65536) ++ [0]))) ∧
      (∀ k, k ≠ d → t.chip.seg k = s.chip.seg k) ∧ t.regs = s.regs ∧ t.mram = s.mram ∧ t.pending = s.pending) ∧
  (∀ (h : Hdr) (u : Fin 19) (len flush : Fin 65536) (addr : Nat) (s : State), Admitted (descNetRxPost u len addr) h s →
    firstFail (checks56 s.regs s.chip (netBlock u.val) (netUnit u.val)) = none → txState s.chip u.val ≠ .off →
    ((rxUnit s.chip u.val).rx.length < 16 →
      ∃ t, exec (.netRxPost h u len flush addr) s = .next t ∧
        SameBut t (withChip s (modRx u.val (fun x => { x with
          rx := x.rx ++ [{ job := s.chip.nextJob, addr := addr, len := len.val, flush := flush.val }] }) s.chip))) ∧
    (16 ≤ (rxUnit s.chip u.val).rx.length → Answers h s →
      ∃ t, exec (.netRxPost h u len flush addr) s = .next t ∧ entryOf s h St.busy 0 ∈ t.chip.out ∧ SameBut t s)) ∧
  (∀ (u : Fin 19) (b : RxBuf) (j : Job) (s : State), (rxUnit s.chip u.val).rx = [b] → OnlyJob s j → j.turn = none → j.id = b.job → b.recs ≠ 0 →
    ∃ t, exec (.rxFlush u) s = .next t ∧
      Done s t j St.ok (b.recs % 65536 + min 65535 (rxUnit s.chip u.val).drops * 65536) s.chip.mt.val ∧
      SameBut t (withChip s (modRx u.val (fun x => { x with rx := [], drops := 0 }) s.chip)))

/-- The LIN commander, the backbone switch and its gates (12 R273, R276, R277): the slot that comes due sends what waits for it, else its
publish buffer, and counts a missing or a bad response, stated of a commander whose transceiver drives and signals no wake; the switch
learns, follows static entries, sends unknown addresses to the other ports (an untagged frame's priority and VLAN 0 are the model's choice,
log entry 34); an address that has not sent for AGE_S is forgotten; the gate entry of the instant's position in the cycle applies. -/
def Obligations.NetworkSwitching : Prop :=
  (∀ (n : Fin 6) (fid : Nat) (pub good heard : Bool) (resp : List Nat) (sof : Nat) (s : State),
    segRuns s.regs s.chip (8 + n.val) = true → (s.chip.lin n.val).running = true → (s.chip.seg (8 + n.val)).signalling = false →
    busDrives s.chip = true → linNext s.chip n.val = some (fid, pub) →
    let l := { s.chip.lin n.val with
      pos := ((s.chip.lin n.val).pos + 1) % max 1 (UMap.get [] s.chip.net.scheds (16 * n.val + (s.chip.lin n.val).sched)).length }
    (∀ (x : TxFrame) (j : Job), pub = true → (s.chip.seg (8 + n.val)).txq = [x] → x.hold = false → x.frm.id.val % 64 = fid → x.job = some j.id →
      OnlyJob s j → j.turn = none →
      ∃ t, exec (.linSlot n heard resp good sof) s = .next t ∧ Done s t j St.ok 0 sof ∧ Out.net (8 + n.val) x.frm.id.val x.frm.data ∈ t.chip.out ∧
        SameBut t (withChip s ((s.chip.setSeg (8 + n.val) { s.chip.seg (8 + n.val) with txq := [] }).setLin n.val l))) ∧
    (pub = true → (s.chip.seg (8 + n.val)).txq = [] →
      exec (.linSlot n heard resp good sof) s = .next (withChip s (((s.chip.lin n.val).pub.find? fun e => e.1 == fid).elim (s.chip.setLin n.val l)
        fun e => (s.chip.setLin n.val l).emit (.net (8 + n.val) fid e.2)))) ∧
    (pub = false → heard = false →
      ∃ t, exec (.linSlot n heard resp good sof) s = .next t ∧
        (fid ∉ (s.chip.lin n.val).silent →
          Told s t (181 + n.val) Cls.warning (segPay s.chip (8 + n.val) 0x15 (t.chip.lin n.val).noResp 0)) ∧
        SameBut t (withChip s (s.chip.setLin n.val { l with
          noResp := (l.noResp + 1) % 65536, silent := if fid ∈ l.silent then l.silent else fid :: l.silent }))) ∧
    (pub = false → heard = true → good = false →
      exec (.linSlot n heard resp good sof) s = .next (withChip s (s.chip.setLin n.val { l with
        chkErr := (l.chkErr + 1) % 65536, silent := l.silent.filter fun k => !(k == fid) })))) ∧
  (∀ (p q : Fin 2) (u : Fin 4) (f : NetFrm) (sof : Nat) (s : State), u.val = 2 + p.val → q ≠ p → bbUp s.regs s.chip p.val = true →
    bbUp s.regs s.chip q.val = true → (s.chip.seg (16 + p.val)).st = .awake → bit (s.regs.c Reg.SW_CFG) 0 = true →
    (s.chip.net.mac = [] →
      ∃ t, exec (.ethFrameRx u ⟨f, sof⟩) s = .next t ∧
        t.chip.net.mac = [{ addr := frmBe f 6 6, vlan := frmVlan f, port := p.val, age := s.chip.now }] ∧
        (frmBe f 0 6 ≠ frmBe f 6 6 →
          (t.chip.seg (16 + q.val)).txq = (s.chip.seg (16 + q.val)).txq ++ [{ frm := f, cls := frmPcp f }])) ∧
    (∀ m, s.chip.net.mac = [m] → m.fixed = true → m.addr = frmBe f 0 6 → m.vlan = frmVlan f → m.port = q.val → frmBe f 0 6 ≠ frmBe f 6 6 →
      ∃ t, exec (.ethFrameRx u ⟨f, sof⟩) s = .next t ∧
        SameBut t (withChip s { s.chip.setSeg (16 + q.val) { s.chip.seg (16 + q.val) with
            txq := (s.chip.seg (16 + q.val)).txq ++ [{ frm := f, cls := frmPcp f }] } with
          net := { s.chip.net with mac := [m, { addr := frmBe f 6 6, vlan := frmVlan f, port := p.val, age := s.chip.now }] } }))) ∧
  (∀ (addr vlan : Nat) (s : State),
    let old (m : Mac) : Bool := (m.addr, m.vlan) == (addr, vlan) && !m.fixed && decide (m.age + clampN 10 3600 (bits (s.regs.c Reg.SW_CFG) 31 16) * 1000000000 ≤ s.chip.now)
    (s.chip.net.mac.any old = true → exec (.addressAgeOut addr vlan) s = .next (withChip s { s.chip with
      net := { s.chip.net with mac := s.chip.net.mac.filter fun m => !old m, macFull := false } })) ∧
    (s.chip.net.mac.any old = false → exec (.addressAgeOut addr vlan) s = .next s)) ∧
  (∀ (p : Fin 2) (s : State), bit (s.regs.c (Reg.BB_CFG p.val)) 4 = true → bits (s.regs.c (Reg.QBV_LEN p.val)) 6 0 ≠ 0 →
    (s.chip.bb p.val).qbvT ≤ s.chip.mt.val → segRuns s.regs s.chip (16 + p.val) = true →
    ∃ t, exec (.qbvGateEntry p) s = .next t ∧
      (let e := (t.chip.bb p.val).entry
       let pos := (s.chip.mt.val - qbvBase s.regs p.val) % qbvCycle s.regs p.val
       e < min 64 (bits (s.regs.c (Reg.QBV_LEN p.val)) 6 0) ∧
       (((gateCycle s.regs p.val).take e).map fun g => g.2).sum ≤ pos ∧ pos < (((gateCycle s.regs p.val).take (e + 1)).map fun g => g.2).sum ∧
       SameBut t (withChip s (s.chip.setBb p.val { s.chip.bb p.val with
         entry := e, gate := bits (s.regs.c (Reg.QBV_GATE (64 * p.val + e))) 7 0, cycling := true }))))

/-- Transmission (12 R279, R286 to R288): NET_TX queues its frame on an awake segment, wakes a sleeping one where it says so and holds the
frame, as it does behind a wake signal that is still being sent; through the host port it enters the switch. Sent, the frame completes it
with its start of frame and its retransmissions; a timeout, bus-off or the end of the hold queue is BUSY with its cause, stated of the one
frame that waits. On a backbone port a frame waits for its gate, and one that does not fit into its open gate is counted. -/
def Obligations.NetworkTransmission : Prop :=
  (∀ (h : Hdr) (u : Fin 19) (wake : Bool) (tmo : Fin 65536) (len : Fin 4096) (addr : Nat) (f : NetFrm) (s : State),
    Admitted (descNetTx u len addr f s) h s → firstFail (txChecks u.val wake s.regs s.chip) = none → u.val < 18 →
    (let ms := if tmo.val = 0 then 1000 else tmo.val
     let x := s.chip.seg u.val
     ∃ t, exec (.netTx h u wake tmo len addr f) s = .next t ∧
      (x.st.normal = true → x.signalling = false ∨ x.st ≠ .ready → SameBut t (withChip s (s.chip.setSeg u.val { x with
        txq := x.txq ++ [{ job := some s.chip.nextJob, frm := f, cls := frmPcp f, due := s.chip.mt.val + ms * 1000000 }] }))) ∧
      (x.st = .ready → x.signalling = true → SameBut t (withChip s (s.chip.setSeg u.val { x with txq := x.txq ++ [{
        job := some s.chip.nextJob, frm := f, cls := frmPcp f, due := s.chip.mt.val + min 100 ms * 1000000, hold := true }] }))) ∧
      (x.st = .sleep → (busDrives s.chip = true → Out.busSignal u.val 0 ∈ t.chip.out) ∧ (t.chip.seg u.val).st = .ready ∧
        (t.chip.seg u.val).txq = x.txq ++ [{
          job := some s.chip.nextJob, frm := f, cls := frmPcp f, due := s.chip.mt.val + min 100 ms * 1000000, hold := true }] ∧
        ((16 ≤ u.val → (s.chip.bb (u.val - 16)).tc10 = false) → OnlySeg s t u.val)))) ∧
  (∀ (h : Hdr) (wake : Bool) (tmo : Fin 65536) (len : Fin 4096) (addr : Nat) (f : NetFrm) (s : State),
    Admitted (descNetTx 18 len addr f s) h s → firstFail (txChecks 18 wake s.regs s.chip) = none → Answers h s →
    ∃ t, exec (.netTx h 18 wake tmo len addr f) s = .next t ∧ entryOf s h St.ok 0 ∈ t.chip.out ∧
      (bit (s.regs.c Reg.SW_CFG) 0 = false → s.chip.net.mac = [] → ∀ p, p < 2 → bbUp s.regs s.chip p = true →
        (t.chip.seg (16 + p)).txq = (s.chip.seg (16 + p)).txq ++ [{ frm := f, cls := frmPcp f }]) ∧
      SameBut t (withChip s { s.chip with segs := t.chip.segs, net := t.chip.net })) ∧
  (∀ (u : Fin 18) (retries tec : Fin 256) (sof : Nat) (x : TxFrame) (j : Job) (s : State), SegUp s u.val →
    (s.chip.seg u.val).txq = [x] → x.hold = false → x.job = some j.id → OnlyJob s j → j.turn = none →
    (s.chip.seg u.val).signalling = false → busDrives s.chip = true →
    (u.val < 8 → (s.chip.can u.val).fstate ≠ 2 ∧ bit (s.regs.c (Reg.CAN_CFG u.val)) 15 = false) →
    (16 ≤ u.val → (s.chip.bb (u.val - 16)).link = true) →
    ∃ t, exec (.netTxDone u 0 retries tec sof) s = .next t ∧
      ((16 ≤ u.val → gateOpen s.chip (u.val - 16) x = true ∧ gateFits s.regs s.chip (u.val - 16) x = true) →
        Done s t j St.ok (retries.val * 256) sof ∧ Out.net u.val x.frm.id.val x.frm.data ∈ t.chip.out ∧
        SameBut t (withChip s { s.chip.setSeg u.val { s.chip.seg u.val with txq := [] } with cans := t.chip.cans, t1ss := t.chip.t1ss })) ∧
      (16 ≤ u.val → gateOpen s.chip (u.val - 16) x = true → gateFits s.regs s.chip (u.val - 16) x = false →
        Told s t 191 Cls.warning (pay ([0x51, 0] ++ two ((s.chip.net.overrun + 1) % 65536))) ∧
        SameBut t (withChip s { s.chip with net := { s.chip.net with overrun := (s.chip.net.overrun + 1) % 65536 } })) ∧
      (16 ≤ u.val → gateOpen s.chip (u.val - 16) x = false → t = s) ∧
      (∀ k, t.chip.can k = { s.chip.can k with tecE := (t.chip.can k).tecE, fstate := (t.chip.can k).fstate } ∧
        t.chip.t1s k = { s.chip.t1s k with coll := (t.chip.t1s k).coll })) ∧
  (∀ (u : Fin 18) (cause : Fin 3) (retries tec : Fin 256) (sof : Nat) (x : TxFrame) (j : Job) (s : State),
    (s.chip.seg u.val).txq = [x] → x.hold = false → x.job = some j.id → OnlyJob s j → j.turn = none → resultKept j.op = true → cause ≠ 0 →
    ∃ t, exec (.netTxDone u cause retries tec sof) s = .next t ∧
      Done s t j St.busy (cause.val + retries.val * 256) s.chip.mt.val ∧
      SameBut t (withChip s { s.chip.setSeg u.val { s.chip.seg u.val with
        txq := [], txFail := ((s.chip.seg u.val).txFail + 1) % 65536 } with cans := t.chip.cans, t1ss := t.chip.t1ss })) ∧
  (∀ (u : Fin 18) (x : TxFrame) (j : Job) (s : State), (s.chip.seg u.val).txq.find? (fun (y : TxFrame) => y.hold) = some x →
    x.job = some j.id → OnlyJob s j → j.turn = none → resultKept j.op = true →
    ∃ t, exec (.holdQueueDiscard u) s = .next t ∧ Done s t j St.busy 3 s.chip.mt.val ∧
      SameBut t (withChip s (s.chip.setSeg u.val { s.chip.seg u.val with txq := (s.chip.seg u.val).txq.erase x }))) ∧
  (∀ (u : Fin 18) (x : TxFrame) (s : State), (s.chip.seg u.val).txq.find? (fun (y : TxFrame) => y.hold) = some x → x.job = none →
    ∃ t, exec (.holdQueueDiscard u) s = .next t ∧
      (s.chip.ctlRuns = true → Told s t (173 + u.val) Cls.limit (segPay s.chip u.val 0x14 (((s.chip.seg u.val).gwDrops + 1) % 65536) 0)) ∧
      SameBut t (withChip s (s.chip.setSeg u.val { s.chip.seg u.val with
        txq := (s.chip.seg u.val).txq.erase x, gwDrops := ((s.chip.seg u.val).gwDrops + 1) % 65536 })))

/-- Controllers and links (12 R271, R274, R275): a CAN that becomes error-passive says so; bus-off is reported (its TEC is a free value, log
entry 1) and recovered from; a follower loses the beacon and regains its cycle; a backbone link comes up, its signal quality kept and its
equaliser within its envelope, and goes down, counted. A link or a PLCA cycle completes the REQUEST that waits for it, and what it held may
be sent. -/
def Obligations.ControllersAndLinks : Prop :=
  (∀ (n : Fin 8) (f : NetFrm) (rec : Fin 256) (sof : Nat) (s : State), SegUp s n.val → (s.chip.can n.val).fstate = 0 →
    (f.xlf = true → n.val < 4 ∧ bit (s.regs.c (Reg.CAN_CFG n.val)) 13 = true) →
    errorState (s.chip.can n.val).tecE rec.val = 1 →
    ∃ t, exec (.canFrameRx n ⟨f, sof⟩ rec) s = .next t ∧ (t.chip.can n.val).fstate = 1 ∧ (t.chip.can n.val).recE = rec.val ∧
      Told s t (173 + n.val) Cls.warning (segPay s.chip n.val 0x10 (s.chip.can n.val).tecE 0)) ∧
  (∀ (n : Fin 8) (s : State), SegUp s n.val → (s.chip.can n.val).fstate ≠ 2 →
    ∃ t, exec (.busOff n) s = .next t ∧ Told s t (173 + n.val) Cls.fault (segPay s.chip n.val 0x11 (t.chip.can n.val).tecE 0) ∧
      SameBut t (withChip s (s.chip.setCan n.val { s.chip.can n.val with
        fstate := 2, tecE := (t.chip.can n.val).tecE, recovering := bit (s.regs.c (Reg.CAN_CFG n.val)) 14 }))) ∧
  (∀ (n : Fin 8) (s : State), segRuns s.regs s.chip n.val = true → (s.chip.can n.val).fstate = 2 →
    ((s.chip.can n.val).recovering = true →
      ∃ t, exec (.busRecovered n) s = .next t ∧ Told s t (173 + n.val) Cls.state (segPay s.chip n.val 0x12 0 0) ∧
        SameBut t (withChip s (s.chip.setCan n.val { s.chip.can n.val with fstate := 0, tecE := 0, recE := 0, recovering := false }))) ∧
    ((s.chip.can n.val).recovering = false → exec (.busRecovered n) s = .next s)) ∧
  (∀ (n : Fin 2) (s : State), SegUp s (14 + n.val) → bits (s.chip.t1s n.val).cfg 7 0 ≠ 0 → (s.chip.t1s n.val).plcaUp = true →
    ∃ t, exec (.plcaLost n) s = .next t ∧ Told s t (187 + n.val) Cls.fault (segPay s.chip (14 + n.val) 0x19 0 0) ∧
      SameBut t (withChip s (s.chip.setT1s n.val { s.chip.t1s n.val with plcaUp := false }))) ∧
  (∀ (n : Fin 2) (s : State), SegUp s (14 + n.val) → bit (s.chip.t1s n.val).cfg 28 = true →
    ∃ t, exec (.plcaUp n) s = .next t ∧
      (∀ j, (s.chip.seg (14 + n.val)).nmJob = some j.id → OnlyJob s j → j.turn = none →
        Done s t j St.ok (nmResult s.chip (14 + n.val)) s.chip.mt.val) ∧
      SameBut t (withChip s ((s.chip.setT1s n.val { s.chip.t1s n.val with plcaUp := true }).setSeg (14 + n.val)
        (signalOver (s.chip.seg (14 + n.val)))))) ∧
  (∀ (p : Fin 2) (sqi : Fin 8) (eq : Fin 256) (s : State), SegUp s (16 + p.val) → (s.chip.bb p.val).link = false → busDrives s.chip = true →
    let lo := bits (s.regs.c Reg.EQ_ENV) 11 8
    let hi := max lo (bits (s.regs.c Reg.EQ_ENV) 15 12)
    ∃ t, exec (.linkUp p sqi eq) s = .next t ∧
      (lo ≤ eq.val → eq.val ≤ hi → Told s t (189 + p.val) Cls.link (segPay s.chip (16 + p.val) 0x16 0 0)) ∧
      (∀ j, (s.chip.seg (16 + p.val)).nmJob = some j.id → OnlyJob s j → j.turn = none →
        Done s t j St.ok (nmResult t.chip (16 + p.val)) s.chip.mt.val) ∧
      SameBut t (withChip s { (s.chip.setBb p.val { s.chip.bb p.val with link := true, sqi := sqi.val, eqStep := clampN lo hi eq.val }).setSeg
          (16 + p.val) (signalOver (s.chip.seg (16 + p.val))) with age := t.chip.age })) ∧
  (∀ (p : Fin 2) (s : State), s.chip.ctlRuns = true → (s.chip.bb p.val).link = true →
    ∃ t, exec (.bbLinkDown p) s = .next t ∧
      Told s t (189 + p.val) Cls.link (segPay s.chip (16 + p.val) 0x17 (((s.chip.bb p.val).downs + 1) % 65536) 0) ∧
      SameBut t (withChip s (s.chip.setBb p.val { s.chip.bb p.val with link := false, downs := ((s.chip.bb p.val).downs + 1) % 65536 }))) ∧
  (∀ (p : Fin 2) (s : State), (s.chip.seg (16 + p.val)).st = .sleep → (s.chip.bb p.val).tc10 = true →
    segRuns s.regs s.chip (16 + p.val) = true →
    ∃ t, exec (.tc10Reject p) s = .next t ∧ Entered s.chip (s.chip.seg (16 + p.val)) .ready (t.chip.seg (16 + p.val)) ∧
      Told s t (189 + p.val) Cls.state (pay [3, 3, 0, 0, 0]) ∧
      SameBut t (withChip s { s.chip.setSeg (16 + p.val) (t.chip.seg (16 + p.val)) with
        bbs := s.chip.bbs.put p.val { s.chip.bb p.val with tc10 := false } }))

/-- Wakes of segments (12 R272 to R275, R281, Table 12.4): a wake detected on a sleeping segment puts it in VALIDATING and is raised with its
kind; in OFF it is raised and kept; in ISOLATED only counted (that FALSE_WAKES counts it is the model's choice). TC10 wakes are forwarded.
At the end of WAKE_VALIDATE the segment sleeps with FALSE_WAKE counted and raised; where the wake of the module is answered so and nothing
else holds, the module returns to the state it left (R284). The EN bit of a unit (12 Table 12.4, R281, R293): a write that sets it takes the
segment out of OFF into SLEEP, with SLEEP raised, or into VALIDATING where a wake was detected meanwhile; one that clears it puts the
segment in OFF, its pending work completed ABORTED_DISABLED. No other register and no other segment changes. -/
def Obligations.SegmentWakesAndEnables : Prop :=
  (∀ (c : Instr) (u kind : Nat) (f : NetFrm) (s : State),
    (∃ n : Fin 8, u = n.val ∧
      ((c = .canWake n 0 f ∧ kind = 0 ∧ bits (s.regs.h (Reg.CAN_WAKE n.val)) 1 0 = 1) ∨
       (c = .canWake n 1 f ∧ kind = 1 ∧ 2 ≤ bits (s.regs.h (Reg.CAN_WAKE n.val)) 1 0 ∧ wufMatches s.regs n.val f = true) ∨
       (c = .canWake n 2 f ∧ kind = 2 ∧ 2 ≤ bits (s.regs.h (Reg.CAN_WAKE n.val)) 1 0))) ∨
    (∃ n : Fin 6, c = .linWake n ∧ u = 8 + n.val ∧ kind = 3) ∨ (∃ n : Fin 2, c = .t1sWake n ∧ u = 14 + n.val ∧ kind = 4) ∨
    (∃ p : Fin 2, c = .tc10Wake p ∧ u = 16 + p.val ∧ kind = 5 ∧ bit (s.regs.h (Reg.BB_CFG p.val)) 3 = false) →
    s.chip.sys.aon = true → wakeArmed s.regs u = true → s.chip.parked = false → s.chip.fwRuns = true → s.chip.sys.sleepTo = none →
    s.chip.sys.wnaAbsent = false → s.chip.sys.wokeUp = false →
    ∃ t, exec c s = .next t ∧
      ((s.chip.seg u).st = .sleep → Entered s.chip (s.chip.seg u) .validating (t.chip.seg u) ∧
        Told s t (173 + u) Cls.wake (pay [1, 1, 0, 0, kind])) ∧
      ((s.chip.seg u).st = .off → t.chip.seg u = { s.chip.seg u with wakeOff := true } ∧
        Told s t (173 + u) Cls.wake (pay [1, 5, 0, 0, kind])) ∧
      ((s.chip.seg u).st = .isolated → t.chip.seg u = { s.chip.seg u with falseWakes := ((s.chip.seg u).falseWakes + 1) % 65536 }) ∧
      ((s.chip.seg u).st.normal = true → t.chip.seg u = s.chip.seg u) ∧
      (∀ k, k ≠ u → t.chip.seg k = s.chip.seg k) ∧ t.regs = s.regs ∧ t.mram = s.mram ∧ t.pending = s.pending) ∧
  (∀ (n : Fin 8) (f : NetFrm) (s : State), 2 ≤ bits (s.regs.h (Reg.CAN_WAKE n.val)) 1 0 →
    ∃ t, exec (.canWake n 2 f) s = .next t ∧ (t.chip.can n.val).fec = true) ∧
  (∀ (p q : Fin 2) (s : State), q ≠ p → s.chip.sys.aon = true → wakeArmed s.regs (16 + p.val) = true →
    bit (s.regs.h (Reg.BB_CFG p.val)) 3 = true → (s.chip.seg (16 + q.val)).st = .sleep →
    ∃ t, exec (.tc10Wake p) s = .next t ∧ (t.chip.seg (16 + q.val)).st = .ready ∧ Out.busSignal (16 + q.val) 0 ∈ t.chip.out ∧
      (t.chip.bb p.val).tc10 = false ∧ (t.chip.bb q.val).tc10 = false) ∧
  (∀ (u : Fin 18) (s : State), (s.chip.seg u.val).st = .validating → (s.chip.seg u.val).valWait = true → s.chip.sys.halted = false →
    s.chip.ctlRuns = true →
    (s.chip.sys.wokeUp = false →
      ∃ t, exec (.wakeValidateEnd u) s = .next t ∧
        Entered s.chip { s.chip.seg u.val with falseWakes := ((s.chip.seg u.val).falseWakes + 1) % 65536 } .sleep (t.chip.seg u.val) ∧
        Told s t (173 + u.val) Cls.warning (pay ([2, 0] ++ two (((s.chip.seg u.val).falseWakes + 1) % 65536) ++ [0])) ∧
        t.chip.sys = s.chip.sys ∧ (∀ k, k ≠ u.val → t.chip.seg k = s.chip.seg k) ∧ t.regs = s.regs ∧ t.mram = s.mram ∧
        t.pending = s.pending) ∧
    (falseReturn s.regs (s.chip.setSeg u.val { s.chip.seg u.val with st := .sleep }) = true →
      (∃ y ∈ sleepYards s.chip, (s.chip.yard y).wdArmed = true) →
      ∃ t, exec (.wakeValidateEnd u) s = .next t ∧ (t.chip.seg u.val).st = .sleep ∧ t.chip.net.returned = true ∧
        t.chip.net.wakeFalse = (s.chip.net.wakeFalse || s.chip.net.wakeSrc == 173 + u.val) ∧
        t.chip.sys.sleepTo = some s.chip.sys.left ∧ t.chip.sys.armed = true ∧ t.chip.sys.wakePin = false)) ∧
  ((∀ (via : Fin 2) (u : Fin 18) (s : State), hostReach s.chip via.val = true → via.val = 1 ∨ ownerSecure s.regs (segBlock u.val) 0 = false →
    (bit (s.regs.c (segCfg u.val).1) (segCfg u.val).2 = false → (s.chip.seg u.val).st = .off →
      ∃ t, exec (.segmentEnable via u) s = .next t ∧ bit (t.regs.c (segCfg u.val).1) (segCfg u.val).2 = true ∧
        bit (t.regs.h (segCfg u.val).1) (segCfg u.val).2 = true ∧
        ((s.chip.seg u.val).wakeOff = false →
          Entered s.chip { s.chip.seg u.val with holdLeft := false } .sleep (t.chip.seg u.val) ∧
          Told s t (173 + u.val) Cls.state (pay [4, 0, 0, 0, 0])) ∧
        ((s.chip.seg u.val).wakeOff = true →
          Entered s.chip { s.chip.seg u.val with wakeOff := false, holdLeft := false } .validating (t.chip.seg u.val)) ∧
        (∀ k, k ≠ (segCfg u.val).1 → t.regs.c k = s.regs.c k ∧ t.regs.h k = s.regs.h k) ∧
        (∀ k, k ≠ u.val → t.chip.seg k = s.chip.seg k) ∧ t.mram = s.mram ∧ t.pending = s.pending) ∧
    (bit (s.regs.c (segCfg u.val).1) (segCfg u.val).2 = true → (s.chip.seg u.val).st ≠ .off →
      ∃ t, exec (.segmentDisable via u) s = .next t ∧ bit (t.regs.c (segCfg u.val).1) (segCfg u.val).2 = false ∧
        bit (t.regs.h (segCfg u.val).1) (segCfg u.val).2 = false ∧ (t.chip.seg u.val).st = .off ∧ (t.chip.seg u.val).xcvr = false ∧
        (t.chip.seg u.val).hostReq = false ∧ (t.chip.seg u.val).txq = [] ∧ (t.chip.seg u.val).rx = [] ∧ (t.chip.seg u.val).nmJob = none ∧
        (t.chip.seg u.val).signalling = false ∧ (16 ≤ u.val → (t.chip.bb (u.val - 16)).link = false) ∧
        (∀ j, (s.chip.seg u.val).nmJob = some j.id → OnlyJob s j → j.turn = none → Done s t j St.aborted 0 s.chip.mt.val) ∧
        (∀ k, k ≠ (segCfg u.val).1 → t.regs.c k = s.regs.c k ∧ t.regs.h k = s.regs.h k) ∧
        (∀ k, k ≠ u.val → t.chip.seg k = s.chip.seg k) ∧ t.mram = s.mram ∧ t.pending = s.pending)))

/-- Network management (12 R281 to R283, R290, Table 12.4): REQUEST, RELEASE, ISOLATE, UNISOLATE and STATUS act on a segment as the table says
and answer with its state; unit 31 releases every segment or lists those awake. The wake signal's end sends what was held and completes the
REQUEST; READY_SLEEP and MAX_AWAKE, once they have passed, and ISO_HOLD end their states; a feeding stall that may be is cycled, its turn-on
a restore. That REQUEST on a segment in OFF is DISABLED is the model's choice (log entry 35). -/
def Obligations.NetworkManagement : Prop :=
  (∀ (h : Hdr) (u : Fin 32) (s : State), Admitted (nmDesc u.val false) h s → firstFail (checks56 s.regs s.chip 0x1C u.val) = none →
    u.val < 18 → s.chip.fwRuns = true → (s.chip.seg u.val).nmJob = none → clkLost s.chip (segBlock u.val) = false →
    let x := s.chip.seg u.val
    let ready := u.val < 8 ∨ u.val < 14 ∧ x.st ≠ .sleep ∨ 14 ≤ u.val ∧ u.val < 16 ∧ (s.chip.t1s (u.val - 14)).plcaUp = true ∨ 16 ≤ u.val ∧ (s.chip.bb (u.val - 16)).link = true ∧ (x.st = .sleep → (s.chip.bb (u.val - 16)).tc10 = false)
    ∃ t, exec (.nmRequest h u) s = .next t ∧
      (x.st ≠ .off → (t.chip.seg u.val).st = .awake ∧ (t.chip.seg u.val).hostReq = true ∧ (t.chip.seg u.val).txq = x.txq ∧
        (x.st = .sleep → busDrives s.chip = true → Out.busSignal u.val 0 ∈ t.chip.out) ∧
        (ready → (t.chip.seg u.val).nmJob = none ∧ (Answers h s → entryOf s h St.ok (nmResult t.chip u.val) ∈ t.chip.out)) ∧
        (¬ready → (t.chip.seg u.val).nmJob = some s.chip.nextJob ∧ (t.chip.seg u.val).signalling = true) ∧
        ((16 ≤ u.val → x.st = .sleep → (s.chip.bb (u.val - 16)).tc10 = false) → OnlySeg s t u.val)) ∧
      ((s.chip.seg u.val).st = .off → Answers h s → entryOf s h St.disabled 0 ∈ t.chip.out ∧ SameBut t s)) ∧
  (∀ (h : Hdr) (u : Fin 32) (cycle : Bool) (s : State), Admitted (nmDesc u.val false) h s →
    firstFail (checks56 s.regs s.chip 0x1C u.val) = none → Answers h s → u.val < 18 →
    (∃ t, exec (.nmIsolate h u cycle) s = .next t ∧
      ((s.chip.seg u.val).st.normal = true → (t.chip.seg u.val).st = .isolated ∧ (t.chip.seg u.val).xcvr = false ∧
        (t.chip.seg u.val).holdLeft = true ∧ (t.chip.seg u.val).isolations = ((s.chip.seg u.val).isolations + 1) % 65536 ∧
        Told s t (173 + u.val) Cls.warning (pay ([5, 4] ++ two (((s.chip.seg u.val).isolations + 1) % 65536) ++ [0])) ∧
        entryOf s h St.ok (nmResult t.chip u.val) ∈ t.chip.out ∧
        (cycle = false → bit (s.regs.c (Reg.NM_FEED u.val)) 7 = false → OnlySeg s t u.val)) ∧
      ((s.chip.seg u.val).st.normal = false → entryOf s h St.ok (nmResult s.chip u.val) ∈ t.chip.out ∧ SameBut t s)) ∧
    (∃ t, exec (.nmUnisolate h u) s = .next t ∧ entryOf s h St.ok (nmResult t.chip u.val) ∈ t.chip.out ∧
      ((s.chip.seg u.val).st = .isolated → Entered s.chip (s.chip.seg u.val) .sleep (t.chip.seg u.val) ∧ OnlySeg s t u.val) ∧
      ((s.chip.seg u.val).st ≠ .isolated → SameBut t s))) ∧
  (∀ (h : Hdr) (u : Fin 32) (s : State), Admitted (nmDesc u.val true) h s →
    firstFail (checks56 s.regs s.chip 0x1C u.val) = none → Answers h s →
    (∃ t, exec (.nmRelease h u) s = .next t ∧
      (u.val < 18 → entryOf s h St.ok (nmResult t.chip u.val) ∈ t.chip.out ∧
        ((s.chip.seg u.val).st = .awake → Entered s.chip (s.chip.seg u.val) .ready (t.chip.seg u.val) ∧ OnlySeg s t u.val) ∧
        ((s.chip.seg u.val).st ≠ .awake → SameBut t s)) ∧
      (u.val = 31 → entryOf s h St.ok 0 ∈ t.chip.out ∧ ∀ k, k < 18 →
        ((s.chip.seg k).st = .awake → Entered s.chip (s.chip.seg k) .ready (t.chip.seg k)) ∧
        ((s.chip.seg k).st ≠ .awake → t.chip.seg k = s.chip.seg k))) ∧
    (∃ t, exec (.nmStatus h u) s = .next t ∧
      entryOf s h St.ok (if u.val = 31 then awakeSet s.chip else nmResult s.chip u.val) ∈ t.chip.out ∧ SameBut t s)) ∧
  (∀ (u : Fin 18) (s : State), (s.chip.seg u.val).signalling = true →
    let y := signalOver (s.chip.seg u.val)
    ((s.chip.seg u.val).nmJob = none → exec (.wakeSignalDone u) s = .next (withChip s (s.chip.setSeg u.val y))) ∧
    (∀ j, (s.chip.seg u.val).nmJob = some j.id → OnlyJob s j → j.turn = none →
      ∃ t, exec (.wakeSignalDone u) s = .next t ∧ Done s t j St.ok (nmResult s.chip u.val) s.chip.mt.val ∧
        SameBut t (withChip s (s.chip.setSeg u.val y)))) ∧
  (∀ (u : Fin 18) (s : State), (s.chip.seg u.val).st = .ready → s.chip.ctlRuns = true →
    (s.chip.seg u.val).readyT + clampN 10 1000 (bits (s.regs.c (Reg.NM_TMR1 u.val)) 25 16) * 10000000 ≤ s.chip.now →
    ∃ t, exec (.readySleepEnd u) s = .next t ∧ Entered s.chip (s.chip.seg u.val) .sleep (t.chip.seg u.val) ∧
      (8 ≤ u.val → u.val < 14 → busDrives s.chip = true →
        Out.net u.val 0x3C [0x00, 0xFF, 0xFF, 0xFF, 0xFF, 0xFF, 0xFF, 0xFF] ∈ t.chip.out) ∧
      (16 ≤ u.val → bit (s.regs.c (Reg.BB_CFG (u.val - 16))) 2 = true → (busDrives s.chip = true → Out.busSignal u.val 1 ∈ t.chip.out) ∧
        t.chip.bb (u.val - 16) = { s.chip.bb (u.val - 16) with tc10 := true }) ∧
      (16 ≤ u.val → bit (s.regs.c (Reg.BB_CFG (u.val - 16))) 2 = false →
        (t.chip.bb (u.val - 16)).link = false ∧ (t.chip.bb (u.val - 16)).tc10 = false) ∧
      (u.val < 16 → Told s t (173 + u.val) Cls.state (pay [4, 0, 0, 0, 0]) ∧ OnlySeg s t u.val)) ∧
  (∀ (u : Fin 18) (s : State), (s.chip.seg u.val).st = .validating ∨ (s.chip.seg u.val).st = .ready → s.chip.sys.halted = false →
    s.chip.fwRuns = true →
    clampN 1 1440 (bits (s.regs.c (Reg.NM_TMR2 u.val)) 10 0) * 60000000000 ≤ awakeNs s.chip (s.chip.seg u.val) →
    ∃ t, exec (.maxAwake u) s = .next t ∧ (t.chip.seg u.val).st = .isolated ∧ (t.chip.seg u.val).holdLeft = true ∧
      (t.chip.seg u.val).isolations = ((s.chip.seg u.val).isolations + 1) % 65536 ∧
      awakeNs t.chip (t.chip.seg u.val) = awakeNs s.chip (s.chip.seg u.val) ∧
      (bit (s.regs.c (Reg.NM_FEED u.val)) 7 = false → OnlySeg s t u.val) ∧
      (let i := bits (s.regs.c (Reg.NM_FEED u.val)) 5 0
       bit (s.regs.c (Reg.NM_FEED u.val)) 7 = true → cycleOk s.regs s.chip i = true →
        (t.chip.stall i).st = .off ∧ (t.chip.stall i).cycling = true ∧ (t.chip.seg u.val).cycleAsk = true)) ∧
  (∀ (u : Fin 18) (s : State), (s.chip.seg u.val).st = .isolated → (s.chip.seg u.val).holdLeft = true → s.chip.ctlRuns = true →
    ∃ t, exec (.isoHoldEnd u) s = .next t ∧ Entered s.chip (s.chip.seg u.val) .sleep (t.chip.seg u.val) ∧ OnlySeg s t u.val) ∧
  (∀ (u : Fin 18) (i : Nat) (s : State), i = bits (s.regs.h (Reg.NM_FEED u.val)) 5 0 → (s.chip.seg u.val).cycleAsk = true →
    (s.chip.stall i).cycling = true → (s.chip.stall i).st = .off →
    ∃ t, exec (.cycleOffEnd u) s = .next t ∧ (t.chip.seg u.val).cycleAsk = false ∧ (t.chip.stall i).cycling = false ∧
      (shedBlocked s.regs s.chip i = true → (t.chip.stall i).st = .shed) ∧
      (shedBlocked s.regs s.chip i = false → crossBlocked s.regs s.chip i = false → (t.chip.stall i).req = true ∧ (t.chip.stall i).st ≠ .off))

/-- Polls (13 R296 to R306, R310, R311, R313, R314). ACCESS_POLL starts one poll at a time with the set-up of that moment, LOCKED_OUT at once
where the function is; a round of LF sends a fresh challenge in the frame of Table 13.2 (its nonce and seed are free values, log entry 1),
an IMMOBILISER function's coil a downlink. A reply with a good CRC is judged by its slot and round, its MAC and the counter window, a TID
once in a poll; one whose CRC fails in a reply slot is a collision. The coil's uplink is judged by its coupling too, and repeated where its
CRC fails. Exchanges of the anchors of the function give distances, a lost anchor none. In WATCH a search frame is sent. -/
def Obligations.AccessPolls : Prop :=
  (∀ (h : Hdr) (u : Fin 8) (tmo : Fin 4096) (s : State), Admitted (descAccessPoll u) h s →
    firstFail (checks56 s.regs s.chip 0x1D u.val ++ [(accLow s.chip (fnKind s.regs u.val), St.supplyLow)]) = none →
    ∃ t, exec (.accessPoll h u tmo) s = .next t ∧
      (s.chip.acc.poll ≠ none ∨ s.chip.sys.halted = true →
        SameBut t (withChip s { s.chip with acc := { s.chip.acc with queue := s.chip.acc.queue ++ [s.chip.nextJob] } })) ∧
      (s.chip.acc.poll = none → s.chip.sys.halted = false → s.chip.acc.queue = [] →
        ((accFn s.chip u.val).locked = true → (Answers h s → entryOf s h St.lockedOut 0xFFF0 ∈ t.chip.out) ∧ SameBut t s) ∧
        ((accFn s.chip u.val).locked = false → fnKind s.regs u.val ≠ 3 →
          SameBut t (withChip s { s.chip with acc := { s.chip.acc with
            poll := some { job := s.chip.nextJob, fn := u.val, set := accSet s.regs u.val }, lfBad := 0 } })) ∧
        ((accFn s.chip u.val).locked = false → fnKind s.regs u.val = 3 →
          let n := (t.chip.acc.poll.map fun p => p.nonce).getD 0
          Out.radio 2 0 88 (tpcDownlink s.chip.acc.vid n) ∈ t.chip.out ∧ SameBut t (withChip s { s.chip with acc := { s.chip.acc with
            poll := some { job := s.chip.nextJob, fn := u.val, set := accSet s.regs u.val, nonce := n, coil := true }, lfBad := 0 } })))) ∧
  (∀ (bad : Fin 16) (p : Poll) (s : State), s.chip.acc.poll = some p → p.set.kind < 2 → p.rounds = 0 ∨ (p.coll = true ∧ p.rounds < 3) →
    let ants := antennas s.chip p.set.lfMask
    ∃ t, exec (.lfRound bad) s = .next t ∧
      (let n := (t.chip.acc.poll.map fun p => p.nonce).getD 0
       let sd := (t.chip.acc.poll.map fun p => p.seed).getD 0
       Out.radio 0 ants 112 (lfChallenge s.chip.acc.vid p.fn p.set.kind (p.rounds + 1) n sd) ∈ t.chip.out ∧
       (bad.val &&& ants ≠ 0 → s.chip.ctlRuns = true → Told s t 238 Cls.fault (accPay (accFn s.chip p.fn) p.fn 0x21 255 0)) ∧
       SameBut t (withChip s { s.chip with acc := { s.chip.acc with
         poll := some { p with rounds := p.rounds + 1, coll := false, nonce := n, seed := sd, roundT := s.chip.mt.val }
         lfBad := if bad.val &&& ants = 0 then s.chip.acc.lfBad else s.chip.acc.lfBad ||| (bad.val &&& ants) } }))) ∧
  (∀ (eof : Nat) (crc : Fin 65536) (slot : Fin 8) (tid cnt : Fin 4294967296) (round : Fin 4) (mac : Nat) (p : Poll) (s : State),
    s.chip.acc.poll = some p → p.set.kind < 2 → p.rounds ≠ 0 →
    let poll (p : Poll) : State := withChip s { s.chip with acc := { s.chip.acc with poll := some p } }
    let good := crc.val = replyCrc tid.val cnt.val slot.val round.val mac
    (¬good → exec (.tokenReply eof crc tid cnt slot round mac) s =
      .next (if (replySlot p eof).isSome then poll { p with coll := true } else s)) ∧
    (good → tid.val ∈ p.seen → exec (.tokenReply eof crc tid cnt slot round mac) s = .next s) ∧
    (good → tid.val ∉ p.seen → replySlot p eof ≠ some slot.val ∨ round.val ≠ p.rounds ∨ slotOfTid s.chip tid.val = none →
      exec (.tokenReply eof crc tid cnt slot round mac) s = .next (poll { p with seen := tid.val :: p.seen, fails := p.fails + 1 }))) ∧
  (∀ (eof : Nat) (crc : Fin 65536) (slot : Fin 8) (tid cnt : Fin 4294967296) (round : Fin 4) (mac sl : Nat) (p : Poll) (s : State),
    s.chip.acc.poll = some p → p.set.kind < 2 → p.rounds ≠ 0 → crc.val = replyCrc tid.val cnt.val slot.val round.val mac → tid.val ∉ p.seen →
    replySlot p eof = some slot.val → round.val = p.rounds → slotOfTid s.chip tid.val = some sl →
    let k := tokenAt s.chip sl
    let right := aesCmac64 k.key (replyMsg s.chip.acc.vid p.set.kind p tid.val cnt.val slot.val round.val)
    let q := { p with seen := tid.val :: p.seen }
    let acc (a : Acc) (t : State) : Prop := SameBut t (withChip s { s.chip with acc := a, age := t.chip.age })
    let rec_ (e : PendRec) : Prop := e.ctr < cnt.val ∧ cnt.val ≤ e.ctr + 16 ∧ accSec s.chip ≤ e.sec + 60
    let others := s.chip.acc.pend.filter fun e => !(e.tid == k.tid)
    let hit := { s.chip.acc with
      tokens := s.chip.acc.tokens.put sl { k with ctr := cnt.val }
      poll := some { q with valid := p.valid ++ [newRanged p.set sl cnt.val (beBytes 6 p.nonce) s.chip] } }
    ∃ t, exec (.tokenReply eof crc tid cnt slot round mac) s = .next t ∧
      (mac ≠ right → acc { s.chip.acc with poll := some { q with fails := p.fails + 1 } } t) ∧
      (mac = right → k.fnMask.testBit p.fn = true →
        (cnt.val ≤ k.ctr ∨ k.ctr + 32768 < cnt.val → acc { s.chip.acc with poll := some { q with fails := p.fails + 1 } } t) ∧
        (k.ctr < cnt.val → cnt.val ≤ k.ctr + 256 → acc hit t) ∧
        (k.ctr + 256 < cnt.val → cnt.val ≤ k.ctr + 32768 →
          (∀ e ∈ s.chip.acc.pend, s.chip.acc.pend.find? (fun e => e.tid == k.tid) = some e → rec_ e → acc { hit with pend := others } t) ∧
          ((∀ e ∈ s.chip.acc.pend, s.chip.acc.pend.find? (fun e => e.tid == k.tid) = some e → ¬rec_ e) →
            (s.chip.ctlRuns = true → Told s t 238 Cls.info (accPay (accFn s.chip p.fn) p.fn 5 255 0)) ∧
            acc { s.chip.acc with
              pend := { tid := k.tid, ctr := cnt.val, sec := accSec s.chip } :: others, poll := some { q with resync := true } } t))) ∧
      (mac = right → k.fnMask.testBit p.fn = false → k.ctr < cnt.val → cnt.val ≤ k.ctr + 256 →
        acc { s.chip.acc with tokens := s.chip.acc.tokens.put sl { k with ctr := cnt.val }, poll := some q } t)) ∧
  (∀ (crc : Fin 65536) (tid cnt : Fin 4294967296) (mac : Nat) (coupling : Fin 256) (p : Poll) (s : State), s.chip.acc.poll = some p →
    p.coil = true → crc.val ≠ coilCrc tid.val cnt.val mac →
    ∃ t, exec (.tpcUplink crc tid cnt mac coupling) s = .next t ∧
      (let n := (t.chip.acc.poll.map fun p => p.nonce).getD 0
       (p.tries < 3 → Out.radio 2 0 88 (tpcDownlink s.chip.acc.vid n) ∈ t.chip.out ∧
         SameBut t (withChip s { s.chip with acc := { s.chip.acc with poll := some { p with tries := p.tries + 1, nonce := n } } }))) ∧
      (3 ≤ p.tries → SameBut t (withChip s { s.chip with acc := { s.chip.acc with poll := some { p with coil := false } } }))) ∧
  (∀ (crc : Fin 65536) (tid cnt : Fin 4294967296) (mac sl : Nat) (coupling : Fin 256) (p : Poll) (s : State), s.chip.acc.poll = some p →
    p.coil = true → crc.val = coilCrc tid.val cnt.val mac → slotOfTid s.chip tid.val = some sl →
    let k := tokenAt s.chip sl
    let right := aesCmac64 k.key (coilMsg s.chip.acc.vid p.nonce tid.val cnt.val)
    ∃ t, exec (.tpcUplink crc tid cnt mac coupling) s = .next t ∧
      (mac ≠ right → SameBut t (withChip s { s.chip with acc := { s.chip.acc with poll := some { p with coil := false, fails := p.fails + 1 } } })) ∧
      (mac = right → k.fnMask.testBit p.fn = true → k.ctr < cnt.val → cnt.val ≤ k.ctr + 256 →
        SameBut t (withChip s { s.chip with
          acc := { s.chip.acc with
            tokens := s.chip.acc.tokens.put sl { k with ctr := cnt.val }
            poll := some (if bits p.set.tpc 7 0 ≤ coupling.val then { p with coil := false, count := p.count + 1, within := some sl }
              else { p with coil := false, count := p.count + 1, overBound := true, fails := p.fails + 1 }) }
          age := t.chip.age }))) ∧
  (∀ (slot a : Fin 8) (ra rb da db : Nat) (sts : Option Bool) (p : Poll) (x : Ranged) (s : State), s.chip.acc.poll = some p → s.chip.acc.rke = [] →
    p.valid = [x] → x.slot = slot.val →
    let got (y : Ranged) : State := withChip s { s.chip with acc := { s.chip.acc with poll := some { p with valid := [y] } } }
    (a.val ∈ p.set.anchors → a.val ∉ x.lost → x.tried.count a.val < p.set.nRange →
      exec (.rangingExchange slot a ra rb da db sts) s = .next (got { x with
        tried := a.val :: x.tried, good := if sts = some true then x.good ++ [(a.val, exchangeCm ra rb da db)] else x.good
        stsFail := x.stsFail || sts == some false })) ∧
    (a.val ∉ p.set.anchors ∨ a.val ∈ x.lost ∨ p.set.nRange ≤ x.tried.count a.val →
      exec (.rangingExchange slot a ra rb da db sts) s = .next s)) ∧
  (∀ (slot a : Fin 8) (p : Poll) (x : Ranged) (s : State), s.chip.acc.poll = some p → s.chip.acc.rke = [] →
    p.valid = [x] → x.slot = slot.val → bit (s.regs.c (Reg.ANCHOR_ID a.val)) 1 = true →
    ∃ t, exec (.anchorLost slot a) s = .next t ∧
      (s.chip.ctlRuns = true → Told s t 238 Cls.warning (accPay (accFn s.chip p.fn) p.fn 0x20 slot.val 0)) ∧
      SameBut t (withChip s { s.chip with acc := { s.chip.acc with poll := some { p with valid := [{ x with lost := a.val :: x.lost }] } } })) ∧
  (∀ (bad : Fin 16) (s : State), s.chip.sys.power = .watch → s.chip.sys.aon = true →
    let ants := antennas s.chip (bits (s.regs.c Reg.TACK_CFG) 11 8)
    exec (.lfSearch bad) s = .next (withChip s (Chip.emit (.radio 1 ants 48 (lfSearchFrame s.chip.acc.vid)) { s.chip with acc := { s.chip.acc with
      lfSearchT := some s.chip.mt.val, lfBad := s.chip.acc.lfBad ||| (bad.val &&& ants) } })))

/-- The outcome of a poll (13 R303, R305 to R308), stated of one valid token at most and of failures that do not fill the window. A valid token
of a function that does not range, one ranged within the bound, and a coil's token judged within its bound are granted, and the poll
completes OK; one over its bound is DISTANCE_EXCEEDED, ranged a failure too; none is AUTH_FAIL with the failures found. A grant replaces an
earlier one and zeroes L. Five failures in the window lock the function out for 3 minutes times 2^L. RKE frames, and the ends of grants,
lock-outs and failure windows (13 R307 to R309): an accepted frame grants the function whose FN_MASK bit the token holds, at once or, where
it ranges, once the token is ranged, and completes the poll that waits there; a refused one is a failure; stated of one function of kind
RKE. A frame with a bad CRC does nothing. A grant and a lock-out end with their access second, and failures leave the window after 60; in a
debug halt access time stands. -/
def Obligations.PollOutcomesAndRke : Prop :=
  (∀ (p : Poll) (k : Ranged) (j : Job) (s : State), s.chip.acc.poll = some p → OnlyJob s j → j.turn = none → j.id = p.job → s.chip.acc.queue = [] →
    p.set.kind ≠ 3 → p.set.ranges = false → p.valid = [k] → k.stsFail = false → p.fails = 0 → (accFn s.chip p.fn).fails.length < 5 →
    ∃ t, exec (.pollEnd false) s = .next t ∧ Done s t j St.ok (pollResult (some k.slot) none 0 p false (1 + p.count)) s.chip.mt.val ∧
      accFn t.chip p.fn = granted s.chip (accFn s.chip p.fn) p.set k.slot ∧
      (s.chip.ctlRuns = true → Told s t 238 Cls.security (accPay (accFn t.chip p.fn) p.fn 1 k.slot 0xFFFF)) ∧ PollOver s t p.fn) ∧
  (∀ (p : Poll) (k : Ranged) (d : Rat) (j : Job) (s : State), s.chip.acc.poll = some p → OnlyJob s j → j.turn = none → j.id = p.job →
    s.chip.acc.queue = [] → p.set.kind ≤ 2 → p.set.ranges = true → p.valid = [k] → k.stsFail = false → p.fails = 0 →
    tokenCm p.set k = some d → (accFn s.chip p.fn).fails.length < 4 →
    ∃ t, exec (.pollEnd false) s = .next t ∧ PollOver s t p.fn ∧
      (d ≤ (p.set.bound : Rat) → Done s t j St.ok (pollResult (some k.slot) (some d) 0 p false (1 + p.count)) s.chip.mt.val ∧
        accFn t.chip p.fn = granted s.chip (accFn s.chip p.fn) p.set k.slot ∧
        (s.chip.ctlRuns = true → Told s t 238 Cls.security (accPay (accFn t.chip p.fn) p.fn 1 k.slot (min 0xFFFF (wholeCm d))))) ∧
      ((p.set.bound : Rat) < d → Done s t j St.distance (pollResult none (some d) 1 p false (1 + p.count)) s.chip.mt.val ∧
        accFn t.chip p.fn = { accFn s.chip p.fn with fails := (accFn s.chip p.fn).fails ++ [accSec s.chip] })) ∧
  (∀ (p : Poll) (j : Job) (s : State), s.chip.acc.poll = some p → OnlyJob s j → j.turn = none → j.id = p.job → s.chip.acc.queue = [] →
    p.valid = [] → p.within = none → p.overBound = false →
    let x := accFn s.chip p.fn
    ∃ t, exec (.pollEnd false) s = .next t ∧ Done s t j St.authFail (pollResult none none p.fails p false p.count) s.chip.mt.val ∧
      (x.fails.length + p.fails < 5 → accFn t.chip p.fn = { x with fails := x.fails ++ List.replicate p.fails (accSec s.chip) }) ∧
      (5 ≤ x.fails.length + p.fails → accFn t.chip p.fn = { x with
        locked := true, lockEnd := accSec s.chip + 180 * 2 ^ x.level, lockLen := 180 * 2 ^ x.level, level := min 4 (x.level + 1)
        fails := [] }) ∧ PollOver s t p.fn) ∧
  (∀ (p : Poll) (j : Job) (s : State), s.chip.acc.poll = some p → OnlyJob s j → j.turn = none → j.id = p.job → s.chip.acc.queue = [] →
    p.set.kind = 3 → p.valid = [] → (accFn s.chip p.fn).fails.length + p.fails < 5 →
    ∃ t, exec (.pollEnd false) s = .next t ∧ PollOver s t p.fn ∧
      (∀ sl ∈ p.within, p.fails = 0 → Done s t j St.ok (pollResult (some sl) none 0 p false p.count) s.chip.mt.val ∧
        accFn t.chip p.fn = granted s.chip (accFn s.chip p.fn) p.set sl) ∧
      (p.within = none → p.overBound = true → Done s t j St.distance (pollResult none none p.fails p false p.count) s.chip.mt.val)) ∧
  (∀ (crc : Fin 65536) (tid cnt : Fin 4294967296) (cmd : Fin 256) (mac f sl : Nat) (s : State), s.chip.fwRuns = true → domBit s.regs s.chip 4 = true →
    s.chip.sys.halted = false → crc.val = rkeCrc tid.val cnt.val cmd.val mac → slotOfTid s.chip tid.val = some sl →
    ((List.range 8).filter fun g => fnKind s.regs g == 2 && (tokenAt s.chip sl).fnMask.testBit g && !(accFn s.chip g).locked) = [f] →
    s.chip.acc.poll = none → s.chip.acc.queue = [] →
    let k := tokenAt s.chip sl
    let x := accFn s.chip f
    let right := aesCmac64 k.key (rkeMsg s.chip.acc.vid tid.val cnt.val cmd.val)
    ∃ t, exec (.rkeFrame crc tid cnt cmd mac) s = .next t ∧
      (mac = right → k.ctr < cnt.val → cnt.val ≤ k.ctr + 256 → tokenAt t.chip sl = { k with ctr := cnt.val } ∧
        ((accSet s.regs f).ranges = false → accFn t.chip f = granted s.chip x (accSet s.regs f) sl) ∧
        ((accSet s.regs f).ranges = true → t.chip.acc.fns = s.chip.acc.fns ∧
          t.chip.acc.rke = s.chip.acc.rke ++ [{ cmd := cmd.val, tok := newRanged (accSet s.regs f) sl cnt.val [] s.chip, fns := [(f, accSet s.regs f)] }])) ∧
      (mac ≠ right ∨ cnt.val ≤ k.ctr → x.fails.length < 4 → accFn t.chip f = { x with fails := x.fails ++ [accSec s.chip] } ∧
        t.chip.acc.tokens = s.chip.acc.tokens) ∧
      t.regs = s.regs ∧ t.mram = s.mram ∧ t.pending = s.pending) ∧
  (∀ (crc : Fin 65536) (tid cnt : Fin 4294967296) (cmd : Fin 256) (mac sl : Nat) (p : Poll) (j : Job) (s : State), s.chip.fwRuns = true →
    domBit s.regs s.chip 4 = true → s.chip.sys.halted = false → crc.val = rkeCrc tid.val cnt.val cmd.val mac → slotOfTid s.chip tid.val = some sl →
    ((List.range 8).filter fun g => fnKind s.regs g == 2 && (tokenAt s.chip sl).fnMask.testBit g && !(accFn s.chip g).locked) = [p.fn] →
    s.chip.acc.poll = some p → s.chip.acc.queue = [] → OnlyJob s j → j.turn = none → j.id = p.job → (accSet s.regs p.fn).ranges = false →
    mac = aesCmac64 (tokenAt s.chip sl).key (rkeMsg s.chip.acc.vid tid.val cnt.val cmd.val) →
    (tokenAt s.chip sl).ctr < cnt.val → cnt.val ≤ (tokenAt s.chip sl).ctr + 256 →
    ∃ t, exec (.rkeFrame crc tid cnt cmd mac) s = .next t ∧ t.chip.acc.poll = none ∧ Done s t j St.ok (pollResult (some sl) none 0 p false 1) s.chip.mt.val) ∧
  (∀ (crc : Fin 65536) (tid cnt : Fin 4294967296) (cmd : Fin 256) (mac : Nat) (s : State), crc.val ≠ rkeCrc tid.val cnt.val cmd.val mac →
    exec (.rkeFrame crc tid cnt cmd mac) s = .next s) ∧
  (∀ (f : Nat) (set : AccSet) (y : RkeTok) (d : Rat) (s : State), s.chip.acc.rke = [y] → y.fns = [(f, set)] → y.tok.stsFail = false →
    tokenCm set y.tok = some d → s.chip.acc.poll = none → s.chip.acc.queue = [] → (accFn s.chip f).fails.length < 4 →
    let x := accFn s.chip f
    ∃ t, exec (.pollEnd true) s = .next t ∧ t.chip.acc.rke = [] ∧
      (d ≤ (set.bound : Rat) → accFn t.chip f = granted s.chip x set y.tok.slot) ∧
      ((set.bound : Rat) < d → accFn t.chip f = { x with fails := x.fails ++ [accSec s.chip] }) ∧
      (∀ g, g ≠ f → accFn t.chip g = accFn s.chip g) ∧
      SameBut t (withChip s { s.chip with acc := { s.chip.acc with rke := [], fns := t.chip.acc.fns }, age := t.chip.age })) ∧
  (∀ (f : Fin 8) (s : State), s.chip.sys.halted = false →
    let x := accFn s.chip f.val
    let put (y : AccFn) (t : State) : Prop :=
      SameBut t (withChip s { s.chip with acc := { s.chip.acc with fns := s.chip.acc.fns.put f.val y }, age := t.chip.age })
    (∀ sl ∈ x.grant, x.grantEnd ≤ accSec s.chip → ∃ t, exec (.grantEnd f) s = .next t ∧
      (s.chip.ctlRuns = true → Told s t 238 Cls.state (accPay x f.val 7 sl 0)) ∧ put { x with grant := none } t) ∧
    (x.locked = true → x.lockEnd ≤ accSec s.chip → ∃ t, exec (.lockoutEnd f) s = .next t ∧ put { x with locked := false } t) ∧
    (∃ t, exec (.failureWindowAge f) s = .next t ∧ put { x with fails := x.fails.filter fun e => decide (accSec s.chip < e + 60) } t)) ∧
  (∀ (f : Fin 8) (s : State), s.chip.sys.halted = true →
    ∀ c ∈ [Instr.grantEnd f, .lockoutEnd f, .failureWindowAge f], exec c s = .next s)

/-- Enrolment (13 R311, R312): PROVISION writes the vehicle's identity and keys once; ADD enrols a token whose TAG holds in the lowest free slot
and raises the count, which nothing lowers, and else answers AUTH_FAIL, BUSY or ENROL_EXHAUSTED; REVOKE frees slots and ends their grants. -/
def Obligations.Enrolment : Prop :=
  (∀ (h : Hdr) (addr : Nat) (buf : List Nat) (s : State), Admitted (descEnrolAdd addr buf) h s → Answers h s →
    firstFail (checks56 s.regs s.chip 0x1D 0) = none → s.chip.sys.halted = false → s.chip.acc.poll = none → s.chip.acc.queue = [] →
    let a := s.chip.acc
    let tid := leNat (bufField buf 0 4)
    let good := a.prov = true ∧ aesCmac64 a.kvMac (buf.take 32) = leNat (bufField buf 32 8).reverse
    ∃ t, exec (.enrolAdd h addr buf) s = .next t ∧
      (¬good → entryOf s h St.authFail (a.count * 256) ∈ t.chip.out ∧ SameBut t s) ∧
      (good → slotOfTid s.chip tid ≠ none → entryOf s h St.busy 0 ∈ t.chip.out ∧ SameBut t s) ∧
      (good → slotOfTid s.chip tid = none → (∀ k, k < 8 → slotUsed s.chip k = true) ∨ 64 ≤ a.count →
        entryOf s h St.enrolOut (a.count * 256) ∈ t.chip.out ∧ SameBut t s) ∧
      (∀ sl, good → slotOfTid s.chip tid = none → freeSlot s.chip = some sl → a.count < 64 →
        entryOf s h St.ok (sl + (a.count + 1) * 256) ∈ t.chip.out ∧
        SameBut t (withChip s { s.chip with
          acc := { a with
            tokens := a.tokens.put sl { tid := tid, fnMask := leNat (bufField buf 4 1), ctr := leNat (bufField buf 8 4)
                                        key := aesDecrypt a.kvEnc (bufField buf 16 16) }
            used := a.used ||| 2 ^ sl, count := a.count + 1 }
          age := t.chip.age }))) ∧
  (∀ (h : Hdr) (addr : Nat) (buf : List Nat) (s : State), Admitted (descEnrolProvision addr buf) h s → Answers h s →
    firstFail (checks56 s.regs s.chip 0x1D 0) = none → s.chip.sys.halted = false → s.chip.acc.poll = none → s.chip.acc.queue = [] →
    ∃ t, exec (.enrolProvision h addr buf) s = .next t ∧
      (s.chip.acc.prov = true → entryOf s h St.busy 0 ∈ t.chip.out ∧ SameBut t s) ∧
      (s.chip.acc.prov = false → entryOf s h St.ok (s.chip.acc.count * 256) ∈ t.chip.out ∧
        SameBut t (withChip s { s.chip with
          acc := { s.chip.acc with
            prov := true, vid := leNat (bufField buf 0 4), kvEnc := bufField buf 4 16, kvMac := bufField buf 0x14 16, kl := bufField buf 0x24 16 }
          age := t.chip.age }))) ∧
  (∀ (h : Hdr) (slots : Fin 256) (s : State), Admitted (descRevoke slots) h s → Answers h s →
    firstFail (checks56 s.regs s.chip 0x1D 0) = none → s.chip.sys.halted = false → s.chip.acc.poll = none → s.chip.acc.queue = [] →
    let hit (k : Nat) : Bool := slots.val.testBit k && slotUsed s.chip k
    ∃ t, exec (.revoke h slots) s = .next t ∧
      entryOf s h St.ok (flagBits (((List.range 8).filter hit).map fun k => (k, true))) ∈ t.chip.out ∧
      t.chip.acc.count = s.chip.acc.count ∧
      (∀ k, k < 8 → slotUsed t.chip k = (slotUsed s.chip k && !slots.val.testBit k) ∧
        (hit k = false → tokenAt t.chip k = tokenAt s.chip k)) ∧
      (∀ f, f < 8 → accFn t.chip f = { accFn s.chip f with grant := match (accFn s.chip f).grant with
        | some sl => if sl < 8 ∧ hit sl = true then none else some sl
        | none => none }) ∧
      SameBut t (withChip s { s.chip with acc := t.chip.acc, age := t.chip.age }))

/-- The update descriptors (14 R329, R330, R334, R337, R338). IMG_WRITE records WRITING and stores its block in the staging slot; a block at
offset 0 whose header fails is IMG_INVALID with its reason, and nothing is written. IMG_COMMIT of an image that passes records STAGED and
raises it, with MODE = 1 a CTL reset follows; one that fails is IMG_INVALID with its reason. Both are IMG_NOT_CONFIRMED in TRIAL and
REVERT_DUE. IMG_CONFIRM ends TRIAL with MIN_SVN raised to the SVN of the image; it is IMG_INVALID with reason 8 in REVERT_DUE, else ALREADY.
The swap and the trial (14 R331, R333). SWAP_STEP copies sector i by step A to the scratch buffer, by B from the staging slot to the
execution slot, by C from the scratch buffer to the staging slot, its source untouched, and records the step; step A of a sector follows
step C of the one before. After the last step a forward swap records TRIAL with BOOTS = 1 and RUN_S = 0, a backward one IDLE with REVERTED.
RUN_S takes up the seconds spent in RUN every 10 s, and at 600 REVERT_DUE is recorded and raised. -/
def Obligations.UpdateAndSwap : Prop :=
  (∀ (h : Hdr) (offset : Fin 8388608) (len : Fin 131072) (addr : Nat) (data : List Nat) (s : State),
    Admitted (descImgWrite offset len addr data) h s → Answers h s → s.chip.upd.jr.st ≠ 4 → s.chip.upd.jr.st ≠ 5 →
    let head := ByteMem.writeList [] 0 (data.take 512)
    let reason := if offset.val = 0 then headerReason s.chip head else 0
    ∃ t, exec (.imgWrite h offset len addr data) s = .next t ∧
      (reason = 0 → entryOf s h St.ok (updResult 0 false (buildId t.mram.stage)) ∈ t.chip.out ∧
        (∀ a, t.mram.stage.read a = if offset.val ≤ a ∧ a < offset.val + data.length then BitVec.ofNat 8 (data.getD (a - offset.val) 0)
          else s.mram.stage.read a) ∧
        SameBut t { withChip s { s.chip with
          upd := journaled s.mram (fun j => { j with st := 1, sector := 0, step := 0, boots := 0, runS := 0 }) s.chip.upd, age := t.chip.age } with
          mram := { s.mram with stage := t.mram.stage } }) ∧
      (reason ≠ 0 → entryOf s h St.imgInvalid (updResult reason false (buildId head)) ∈ t.chip.out ∧ SameBut t s)) ∧
  (∀ (h : Hdr) (mode previous : Bool) (s : State), Admitted descImgCommit h s → Answers h s → s.chip.upd.jr.st ≠ 4 → s.chip.upd.jr.st ≠ 5 →
    let reason := imgReason s.chip s.mram.stage
    let upd := journaled s.mram (fun j => { j with st := 2, sector := 0, step := 0, boots := 0, runS := 0 }) s.chip.upd
    ∃ t, exec (.imgCommit h mode previous) s = .next t ∧
      (reason ≠ 0 → entryOf s h St.imgInvalid (updResult reason false (buildId s.mram.stage)) ∈ t.chip.out ∧ SameBut t s) ∧
      (reason = 0 → entryOf s h St.ok (updResult 0 false (buildId s.mram.stage)) ∈ t.chip.out ∧
        (UMap.get 0 s.chip.age.mramW 197 + 1 < 8000000000 →
          Told s t 239 Cls.state (pay ([1] ++ four (buildId s.mram.stage) ++ [0]))) ∧
        (mode = false → SameBut t (withChip s { s.chip with upd := upd, age := t.chip.age })) ∧
        (mode = true → s.chip.powered = true → t.chip.upd.jr = upd.jr ∧ t.mram = s.mram ∧
          t.chip.sys.ctl = .held ∧ t.chip.sys.causes.testBit 6 = true))) ∧
  (∀ (h : Hdr) (offset : Fin 8388608) (len : Fin 131072) (addr : Nat) (data : List Nat) (mode previous : Bool) (s : State), Answers h s →
    s.chip.upd.jr.st = 4 ∨ s.chip.upd.jr.st = 5 →
    (Admitted (descImgWrite offset len addr data) h s →
      ∃ t, exec (.imgWrite h offset len addr data) s = .next t ∧ entryOf s h St.imgNotConf 0 ∈ t.chip.out ∧ SameBut t s) ∧
    (Admitted descImgCommit h s →
      ∃ t, exec (.imgCommit h mode previous) s = .next t ∧ entryOf s h St.imgNotConf 0 ∈ t.chip.out ∧ SameBut t s)) ∧
  (∀ (h : Hdr) (s : State), Admitted descImgConfirm h s → Answers h s →
    let build := buildId s.mram.exec
    ∃ t, exec (.imgConfirm h) s = .next t ∧
      (s.chip.upd.jr.st = 4 → entryOf s h St.ok (updResult 0 false build) ∈ t.chip.out ∧
        (UMap.get 0 s.chip.age.mramW 197 + 1 < 8000000000 → UMap.get 0 s.chip.age.mramW 230 + 1 < 8000000000 →
          Told s t 239 Cls.security (pay ([3] ++ four build ++ [0]))) ∧
        SameBut t (withChip s { s.chip with
          upd := { journaled s.mram (fun j => { j with st := 0, boots := 0, runS := 0 }) s.chip.upd with
            minSvn := max s.chip.upd.minSvn (imgSvn s.mram.exec) }
          age := t.chip.age })) ∧
      (s.chip.upd.jr.st = 5 → entryOf s h St.imgInvalid (updResult 8 false build) ∈ t.chip.out ∧ SameBut t s) ∧
      (s.chip.upd.jr.st ≠ 4 → s.chip.upd.jr.st ≠ 5 → entryOf s h St.ok (updResult 0 true build) ∈ t.chip.out ∧ SameBut t s)) ∧
  (∀ (i k : Nat) (s : State), s.chip.sys.ctl = .swap → s.chip.upd.jr.sector = i → i < s.chip.upd.jr.nsect → s.chip.upd.jr.step ≤ 2 →
    k = s.chip.upd.jr.step + 1 →
    let m := s.mram
    let read (x : ByteMem) (a : Nat) := x.read (65536 * i + a)
    ∃ t, exec .swapStep s = .next t ∧
      (k = 1 → t.mram.exec = m.exec ∧ t.mram.stage = m.stage ∧ ∀ a, a < 65536 → t.mram.scratch.read a = read m.exec a) ∧
      (k = 2 → t.mram.stage = m.stage ∧ t.mram.scratch = m.scratch ∧ (∀ a, a < 65536 → read t.mram.exec a = read m.stage a) ∧
        ∀ b, b < 65536 * i ∨ 65536 * (i + 1) ≤ b → t.mram.exec.read b = m.exec.read b) ∧
      (k = 3 → t.mram.exec = m.exec ∧ t.mram.scratch = m.scratch ∧ (∀ a, a < 65536 → read t.mram.stage a = m.scratch.read a) ∧
        ∀ b, b < 65536 * i ∨ 65536 * (i + 1) ≤ b → t.mram.stage.read b = m.stage.read b) ∧
      (k < 3 ∨ i + 1 < s.chip.upd.jr.nsect → SameBut t { withChip s { s.chip with
        upd := journaled t.mram (fun j => { j with sector := i, step := k }) s.chip.upd, age := t.chip.age } with mram := t.mram }) ∧
      (k = 3 → s.chip.upd.jr.nsect ≤ i + 1 →
        (s.chip.upd.jr.st = 6 → t.chip.upd.jr.st = 0 ∧ t.chip.upd.jr.boots = 0 ∧ t.chip.upd.jr.runS = 0 ∧ t.chip.upd.reverted = true) ∧
        (s.chip.upd.jr.st = 3 → t.chip.upd.jr.st = 4 ∧ t.chip.upd.jr.boots = 1 ∧ t.chip.upd.jr.runS = 0 ∧
          t.chip.upd.reverted = s.chip.upd.reverted) ∧
        SameBut t { withChip s { s.chip with
          sys := { s.chip.sys with ctl := .bist }
          upd := { s.chip.upd with
            jr := t.chip.upd.jr, jrOld := t.chip.upd.jrOld, reverted := t.chip.upd.reverted
            pendEv := s.chip.upd.pendEv ++ [if s.chip.upd.jr.st = 6 then 4 else 2] }
          age := t.chip.age } with mram := t.mram })) ∧
  (∀ s : State, s.chip.sys.ctl = .swap → s.chip.upd.jr.step = 3 → s.chip.upd.jr.sector + 1 < s.chip.upd.jr.nsect →
    ∃ t, exec .swapStep s = .next t ∧ (∀ a, a < 65536 → t.mram.scratch.read a = s.mram.exec.read (65536 * (s.chip.upd.jr.sector + 1) + a)) ∧
      SameBut t { withChip s { s.chip with
        upd := journaled s.mram (fun j => { j with sector := j.sector + 1, step := 1 }) s.chip.upd, age := t.chip.age } with
        mram := { s.mram with scratch := t.mram.scratch } }) ∧
  (∀ s : State, s.chip.sys.ctl ≠ .swap → exec .swapStep s = .next s) ∧
  (∀ s : State, 10 ≤ runSeconds s.chip →
    let n := runSeconds s.chip
    let from_ := s.chip.upd.runFrom + n * 1000000000
    ∃ t, exec .runSCommit s = .next t ∧
      (s.chip.upd.jr.st = 4 → SameBut t (withChip s { s.chip with
        upd := { journaled s.mram (fun j => { j with runS := j.runS + n }) s.chip.upd with runFrom := from_ }, age := t.chip.age })) ∧
      (s.chip.upd.jr.st ≠ 4 → SameBut t (withChip s { s.chip with upd := { s.chip.upd with runFrom := from_ } }))) ∧
  (∀ s : State, runSeconds s.chip < 10 → exec .runSCommit s = .next s) ∧
  (∀ s : State, s.chip.inRun = true → s.chip.upd.jr.st = 4 → 600 ≤ s.chip.upd.jr.runS + runSeconds s.chip →
    let n := runSeconds s.chip
    ∃ t, exec .revertDue s = .next t ∧ t.chip.upd.jr.st = 5 ∧ t.chip.upd.jr.runS = s.chip.upd.jr.runS + n ∧
      (s.chip.ctlRuns = true → UMap.get 0 s.chip.age.mramW 197 + 2 < 8000000000 →
        Told s t 239 Cls.warning (pay ([5] ++ four (buildId s.mram.exec) ++ [2]))) ∧
      SameBut t (withChip s { s.chip with
        upd := { s.chip.upd with jr := t.chip.upd.jr, jrOld := t.chip.upd.jrOld, runFrom := s.chip.upd.runFrom + n * 1000000000 }
        age := t.chip.age })) ∧
  (∀ s : State, s.chip.upd.jr.st ≠ 4 ∨ s.chip.inRun = false ∨ s.chip.upd.jr.runS + runSeconds s.chip < 600 → exec .revertDue s = .next s)

/-- Ageing (15 R340 to R343, R350). An on-resistance of a stall under its conditions enters the stall's results; once three of them agree, the
plan is made anew by Table 15.2, no cap relaxed, and the effective caps go to a yard that CTL may command; that of another switch enters the
results of that switch. WEAR_COMMIT moves the wear counted in the halters that CTL may command to the ageing record. MARGIN_CAP sets the
host caps, 0 for none, a thermal cap clamped to its range, or clears them, and answers the effective caps. AGE_REPORT writes its record to
the host, unless the ageing partition is of the other world (14 R321). How results are kept per RUN period, and agreement, are the model's
choice (log entry 43). Adaptive loops (15 R344, R346). The core voltage, the sense trims and the equalisers of the guylines take what they
ask for within their envelopes, or the nearer edge. Outside the envelope the loop's bit of ADAPT_STATUS is set, and ADAPT_CLAMP is raised
for the core voltage at the entry. A core margin below 5 % with the voltage at its highest is raised. A guyline that retrains sends its
mirrors afresh. In a debug halt the loops stand. -/
def Obligations.AgeingAndAdaptation : Prop :=
  (∀ (u : Fin 100) (rds : Fin 65536) (s : State), u.val < 64 → s.chip.inRun = true → s.chip.sys.halted = false →
    rdsReady (s.chip.stall u.val) u.val s.chip.now = true →
    let k := capAt s.chip u.val
    let d := excess rds.val (Config.factoryRds u.val)
    let hist := addResult d s.chip.age.runId k.dHist
    let p := planCaps u.val { k with d := d }
    let x : Cap := { k with dHist := hist, rdsT := s.chip.now }
    let y : Cap := { x with
      d := d, rds := rds.val, lim := min k.lim p.1, ceil := min k.ceil p.1, tsd := min k.tsd p.2.1, retry := min k.retry p.2.2
      eol := k.eol || capEol { k with d := d }, warned := k.warned ||| capPast { k with d := d } }
    k.dHist = [] ∨ k.rdsT + 3600000000000 ≤ s.chip.now →
    ∃ t, exec (.rdsMeasurement u rds) s = .next t ∧
      (agreed 20 hist = false → capAt t.chip u.val = x ∧ SameBut t (withChip s { s.chip with age := t.chip.age })) ∧
      (agreed 20 hist = true → capAt t.chip u.val = y ∧
        (k.lim = 1023 → y.lim < 1023 → s.chip.ctlRuns = true → UMap.get 0 s.chip.age.mramW 214 + 1 < 8000000000 →
          Told s t 240 Cls.limit (pay ([2, 0x10] ++ two u.val ++ two y.lim))) ∧
        (yardCommandable s.chip (stallYard u.val) = true → t.chip.stall u.val = { s.chip.stall u.val with
          kLim := min y.lim k.hLim, kCeil := min y.ceil k.hCeil, kTsd := min y.tsd k.hTsd, kRetry := min y.retry k.hRetry
          capSeen := (t.chip.stall u.val).capSeen })) ∧
      (∀ i, i ≠ u.val → capAt t.chip i = capAt s.chip i ∧ t.chip.stall i = { s.chip.stall i with capSeen := (t.chip.stall i).capSeen }) ∧
      SameBut t (withChip s { s.chip with age := t.chip.age, halt := { s.chip.halt with stalls := t.chip.halt.stalls } })) ∧
  (∀ (u : Fin 100) (rds : Fin 65536) (s : State), 64 ≤ u.val → s.chip.inRun = true → s.chip.sys.halted = false →
    let n := rdsSource u.val
    let old := UMap.get [] s.chip.age.histX n
    let hist := addResult (excess rds.val (Config.factoryRds n)) s.chip.age.runId old
    30 * (switchLoad s.chip n).2 ≤ 100 * (switchLoad s.chip n).1 → old = [] ∨ UMap.get 0 s.chip.age.rdsXT n + 3600000000000 ≤ s.chip.now →
    ∃ t, exec (.rdsMeasurement u rds) s = .next t ∧ UMap.get [] t.chip.age.histX n = hist ∧ UMap.get 0 t.chip.age.rdsXT n = s.chip.now ∧
      UMap.get 0 t.chip.age.rdsX n = (if agreed 30 hist then rds.val else UMap.get 0 s.chip.age.rdsX n) ∧ t.chip.age.caps = s.chip.age.caps ∧
      SameBut t (withChip s { s.chip with age := t.chip.age })) ∧
  (∀ (u : Fin 100) (rds : Fin 65536) (s : State), s.chip.inRun = false ∨ s.chip.sys.halted = true ∨
      (u.val < 64 ∧ rdsReady (s.chip.stall u.val) u.val s.chip.now = false) →
    exec (.rdsMeasurement u rds) s = .next s) ∧
  (∀ s : State, s.chip.awake = true → s.chip.fwRuns = true → s.chip.sys.halted = false →
    ∃ t, exec .wearCommit s = .next t ∧
      (∀ i, i < 64 →
        (t.chip.stall i).wear = (if yardCommandable s.chip (stallYard i) then 0 else (s.chip.stall i).wear) ∧
        (capAt t.chip i).used = (capAt s.chip i).used + if yardCommandable s.chip (stallYard i) then (s.chip.stall i).wear else 0) ∧
      (yardCommandable s.chip 3 = true →
        (∀ n, n < 16 → t.chip.valve n = { s.chip.valve n with wear := 0 } ∧
          UMap.get 0 t.chip.age.wearX n = UMap.get 0 s.chip.age.wearX n + (s.chip.valve n).wear) ∧
        (∀ n, n < 12 → t.chip.dout n = { s.chip.dout n with wear := 0 } ∧
          UMap.get 0 t.chip.age.wearX (16 + n) = UMap.get 0 s.chip.age.wearX (16 + n) + (s.chip.dout n).wear)) ∧
      SameBut t (withChip s { s.chip with
        age := t.chip.age, halt := { s.chip.halt with stalls := t.chip.halt.stalls, valves := t.chip.halt.valves, dos := t.chip.halt.dos } })) ∧
  (∀ (h : Hdr) (i : Fin 64) (clear : Bool) (lim ceil : Fin 1024) (tsd : Fin 256) (retry : Fin 16) (s : State),
    Admitted (descMarginCap h i s) h s → Answers h s → firstFail (checks56 s.regs s.chip 0x05 0) = none →
    let k := capAt s.chip i.val
    let hot := clampN 150 175 tsd.val
    let x : Cap := if clear then { k with hLim := 1023, hCeil := 1023, hTsd := 255, hRetry := 15 } else { k with
      hLim := if lim.val = 0 then 1023 else lim.val, hCeil := if ceil.val = 0 then 1023 else ceil.val
      hTsd := if tsd.val = 0 then 255 else hot, hRetry := if retry.val = 0 then 15 else retry.val }
    ∃ t, exec (.marginCap h i clear lim ceil tsd retry) s = .next t ∧ capAt t.chip i.val = x ∧
      entryOf s h (if clear = true ∨ tsd.val = 0 ∨ hot = tsd.val then St.ok else St.okClamped) (marginResult x) ∈ t.chip.out ∧
      (yardCommandable s.chip (stallYard i.val) = true → t.chip.stall i.val = { s.chip.stall i.val with
        kLim := min k.lim x.hLim, kCeil := min k.ceil x.hCeil, kTsd := min k.tsd x.hTsd, kRetry := min k.retry x.hRetry
        capSeen := (t.chip.stall i.val).capSeen }) ∧
      (∀ n, n ≠ i.val → capAt t.chip n = capAt s.chip n ∧ t.chip.stall n = { s.chip.stall n with capSeen := (t.chip.stall n).capSeen }) ∧
      SameBut t (withChip s { s.chip with age := t.chip.age, halt := { s.chip.halt with stalls := t.chip.halt.stalls } })) ∧
  (∀ (h : Hdr) (addr : Nat) (s : State), Admitted (descAgeReport addr) h s → Answers h s → firstFail (checks56 s.regs s.chip 0x05 0) = none →
    ∃ t, exec (.ageReport h addr) s = .next t ∧ entryOf s h St.ok (s.chip.age.planSeq % 65536) ∈ t.chip.out ∧
      (partBlocked s.chip h.secure false 5 = false → Out.dma h.fn addr (ageRecord s.chip) ∈ t.chip.out ∧ SameBut t s) ∧
      (partBlocked s.chip h.secure false 5 = true → Told s t 242 Cls.security (5 + h.pf.val * 256 + 5 * 65536) ∧
        SameBut t (withChip s { s.chip with sys := { s.chip.sys with violations := (s.chip.sys.violations + 1) % 65536 } }))) ∧
  (∀ (m : Fin 101) (want : Fin 256) (s : State), s.chip.inRun = true → s.chip.sys.halted = false →
    let lo := min 50 (bits (s.regs.c Reg.AVS_ENV) 7 0)
    let hi := max lo (min 50 (bits (s.regs.c Reg.AVS_ENV) 15 8))
    let v := clampN lo hi want.val
    let quiet := s.chip.ctlRuns = true ∧ UMap.get 0 s.chip.age.mramW 214 + 1 < 8000000000
    ∃ t, exec (.coreMargin m want) s = .next t ∧ t.chip.age.margin = m.val ∧ t.chip.age.avs = v ∧ lo ≤ v ∧ v ≤ hi ∧
      (want.val < lo ∨ hi < want.val → t.chip.age.adapt.testBit 0 = true ∧ 0 ∈ t.chip.age.clamped ∧
        (0 ∉ s.chip.age.clamped → quiet → 5 ≤ m.val ∨ s.chip.age.avs < hi → Told s t 240 Cls.limit (pay ([0x0A, 0x05] ++ two 0 ++ two v)))) ∧
      (lo ≤ want.val → want.val ≤ hi → v = want.val ∧ t.chip.age.adapt = s.chip.age.adapt ∧ 0 ∉ t.chip.age.clamped) ∧
      (m.val < 5 → hi ≤ s.chip.age.avs → quiet → Told s t 240 Cls.fault (pay ([4, 0x05] ++ two 0 ++ two m.val))) ∧
      SameBut t (withChip s { s.chip with age := t.chip.age })) ∧
  (∀ (src : Fin 125) (offset gain : Int) (s : State), s.chip.awake = true → s.chip.fwRuns = true → s.chip.sys.halted = false →
    src.val ≠ 90 → src.val ≠ 91 → src.val ≠ 104 →
    let top : Int := clampN 1 50 (bits (s.regs.c Reg.SENSE_ENV) 7 0)
    let x := (clampI (-top) top offset, clampI (-top) top gain)
    ∃ t, exec (.senseTrim src offset gain) s = .next t ∧ UMap.get (0, 0) t.chip.age.trims src.val = x ∧
      (x ≠ (offset, gain) → t.chip.age.adapt.testBit 1 = true) ∧ (x = (offset, gain) → t.chip.age.adapt = s.chip.age.adapt) ∧
      SameBut t (withChip s { s.chip with age := t.chip.age })) ∧
  (∀ (y : Fin 5) (step : Fin 256) (s : State),
    let lo := bits (s.regs.c Reg.EQ_ENV) 3 0
    let hi := max lo (bits (s.regs.c Reg.EQ_ENV) 7 4)
    let v := clampN lo hi step.val
    let d := s.chip.yard y.val
    let bit2 (t : State) : Prop := if v = step.val then t.chip.age.adapt = s.chip.age.adapt else t.chip.age.adapt.testBit 2 = true
    (s.chip.fwRuns = true → s.chip.sys.halted = false →
      ∃ t, exec (.guylineEqualisation y step) s = .next t ∧ bit2 t ∧
        SameBut t (withChip s { s.chip.setYard y.val { d with eqStep := v } with age := t.chip.age })) ∧
    (s.chip.ctlRuns = true →
      ∃ t, exec (.guylineRetraining y step) s = .next t ∧ bit2 t ∧ (t.chip.yard y.val).evq = d.evTx ++ d.evq ∧
        (t.chip.yard y.val).results = d.resTx ++ d.results ∧
        SameBut t (withChip s { s.chip.setYard y.val { d with eqStep := v, mirrorUp := false, evTx := [], resTx := [] } with age := t.chip.age }))) ∧
  (∀ (m : Fin 101) (want : Fin 256) (src : Fin 125) (offset gain : Int) (y : Fin 5) (step : Fin 256) (s : State), s.chip.sys.halted = true →
    ∀ c ∈ [Instr.coreMargin m want, .senseTrim src offset gain, .guylineEqualisation y step], exec c s = .next s)

/-- Self-tests (15 R347 to R349, R351). SELFTEST queues a request with its deadline; a fifth of its unit is BUSY. A request runs in its turn, an
intrusive one holding its unit. It completes with its verdict and value, a FAIL being raised; an RDS test is INVALID unless the stall is
static ON, and a Zth result enters the results of its stall in RUN. An intrusive request that still waits at its deadline completes
DEFERRED_TIMEOUT, which is raised. -/
def Obligations.SelfTests : Prop :=
  (∀ (h : Hdr) (blk : Fin 64) (unit : Fin 16384) (test : Fin 256) (deadline : Fin 65536) (s : State),
    Admitted (descSelftest h blk unit test s) h s → firstFail (checks56 s.regs s.chip blk.val unit.val) = none →
    s.chip.sys.sleepTo = none → (unitYard blk.val unit.val = some 2 → s.chip.ycOff = false) →
    let ms := if deadline.val = 0 then max 1 (bits (s.regs.c Reg.ST_CFG) 15 0) else deadline.val
    ∃ t, exec (.selftest h blk unit test deadline) s = .next t ∧
      ((testsOf s.chip blk.val unit.val).length < 4 →
        SameBut t (withChip s { s.chip with age := { s.chip.age with
          tests := s.chip.age.tests ++ [{ job := s.chip.nextJob, blk := blk.val, unit := unit.val, test := test.val
                                          deadline := s.chip.now + ms * 1000000 }] } })) ∧
      (4 ≤ (testsOf s.chip blk.val unit.val).length → (Answers h s → entryOf s h St.busy 0 ∈ t.chip.out) ∧ SameBut t s)) ∧
  (∀ (x : SelfT) (s : State), s.chip.age.tests = [x] → testMayRun s.chip 0 x = true →
    let c := { s.chip with age := { s.chip.age with tests := [{ x with running := true }] } }
    exec (.selftestRun 0) s = .next (withChip s (if testIntrusive x.test then setTesting x.blk x.unit true c else c))) ∧
  (∀ (x : SelfT) (k : Nat) (s : State), s.chip.age.tests[k]? = some x → testMayRun s.chip k x = false →
    exec (.selftestRun k) s = .next s) ∧
  (∀ (verdict : Fin 3) (value : Fin 65536) (x : SelfT) (j : Job) (s : State), s.chip.age.tests = [x] → x.running = true → x.test ≠ 3 →
    OnlyJob s j → j.turn = none → j.id = x.job → j.held = false → s.chip.sys.sleepTo = none →
    let v := if x.test = 2 ∧ ((s.chip.stall x.unit).st ≠ .on ∨ (s.chip.stall x.unit).pwm = true) then 2 else verdict.val
    let c := { s.chip with age := { s.chip.age with tests := [] } }
    ∃ t, exec (.selftestDone 0 verdict value) s = .next t ∧ Done s t j St.ok (v + value.val * 65536) s.chip.mt.val ∧
      (v = 1 → s.chip.ctlRuns = true → Told s t 241 Cls.fault (pay ([1, x.blk] ++ two x.unit ++ two value.val))) ∧
      SameBut t (withChip s (if testIntrusive x.test then setTesting x.blk x.unit false c else c))) ∧
  (∀ (value : Fin 65536) (x : SelfT) (j : Job) (s : State), s.chip.age.tests = [x] → x.running = true → x.test = 3 → x.blk = 0x10 →
    OnlyJob s j → j.turn = none → j.id = x.job → j.held = false → s.chip.sys.sleepTo = none →
    let hist := addResult (excess value.val (Config.factoryZth x.unit)) s.chip.age.runId (capAt s.chip x.unit).zHist
    ∃ t, exec (.selftestDone 0 0 value) s = .next t ∧ Done s t j St.ok (value.val * 65536) s.chip.mt.val ∧
      t.chip.age.tests = [] ∧ (t.chip.stall x.unit).testing = false ∧
      (s.chip.inRun = true → (capAt t.chip x.unit).zHist = hist) ∧
      (s.chip.inRun = false ∨ agreed 50 hist = false →
        SameBut t (withChip s (setTesting x.blk x.unit false { s.chip with age := t.chip.age })))) ∧
  (∀ (x : SelfT) (j : Job) (s : State), s.chip.age.tests = [x] → x.running = false → testIntrusive x.test = true →
    s.chip.sys.halted = false →
    (x.deadline ≤ s.chip.now → OnlyJob s j → j.turn = none → j.id = x.job →
      ∃ t, exec (.deferredTimeout 0) s = .next t ∧ Done s t j St.deferred 0 s.chip.mt.val ∧
        (s.chip.ctlRuns = true → ∃ v : Fin 65536, Told s t 241 Cls.warning (pay ([4, x.blk] ++ two x.unit ++ two v.val))) ∧
        SameBut t (withChip s { s.chip with age := { s.chip.age with tests := [] } })) ∧
    (s.chip.now < x.deadline → exec (.deferredTimeout 0) s = .next s))
end

