-- ==== Sys2Proof/Laws/State.lean ====
section
/-!
SUPPORT. Sys2Proof/Laws/State.lean: what each update of the state leaves and changes: one lemma for each field and update, true by
unfolding, and the laws of the maps from unit numbers.
-/

namespace Sys2Proof.Machine

-- Maps --------------------------------------------------------------------------------------------------------------------------------------

/-- Reading a unit map after a write. -/
@[simp] theorem UMap.get_put {α : Type} (d : α) (m : UMap α) (k j : Nat) (v : α) :
    UMap.get d (UMap.put m k v) j = if k = j then v else UMap.get d m j := by
  induction m with
  | nil => simp [UMap.put, UMap.get]
  | cons e m ih =>
    obtain ⟨k', v'⟩ := e
    unfold UMap.put
    by_cases h1 : k' = k
    · subst h1; by_cases h : k' = j <;> simp [UMap.get, h]
    · by_cases h2 : k < k'
      · simp only [h1, h2, if_true, if_false]
        by_cases h : k = j <;> simp [UMap.get, h]
      · simp only [h1, h2, if_false]
        by_cases h : k' = j
        · simp [UMap.get, h]; intro h3; omega
        · simp [UMap.get, h, ih]

/-- The last write of a unit is the one that counts. -/
@[simp] theorem UMap.put_put {α : Type} (m : UMap α) (k : Nat) (a b : α) :
    UMap.put (UMap.put m k a) k b = UMap.put m k b := by
  induction m with
  | nil => simp [UMap.put]
  | cons e m ih =>
    obtain ⟨k', v'⟩ := e
    by_cases h1 : k' = k
    · simp [UMap.put, h1]
    · by_cases h2 : k < k'
      · simp [UMap.put, h1, h2]
      · simp [UMap.put, h1, h2, ih]

/-- An absent unit is in its reset state. -/
@[simp] theorem UMap.get_nil {α : Type} (d : α) (j : Nat) : UMap.get d ([] : UMap α) j = d := rfl

-- The state -----------------------------------------------------------------------------------------------------------------------------------

@[simp] theorem State.onChip_pending (f : Regs → Chip → Chip) (s : State) : (s.onChip f).pending = s.pending := rfl
@[simp] theorem State.onChip_mram (f : Regs → Chip → Chip) (s : State) : (s.onChip f).mram = s.mram := rfl
@[simp] theorem State.onChip_regs (f : Regs → Chip → Chip) (s : State) : (s.onChip f).regs = s.regs := rfl
@[simp] theorem State.onChip_chip (f : Regs → Chip → Chip) (s : State) : (s.onChip f).chip = f s.regs s.chip := rfl
@[simp] theorem State.setPending_pending (q : List Instr) (s : State) : (s.setPending q).pending = q := rfl
@[simp] theorem State.setPending_mram (q : List Instr) (s : State) : (s.setPending q).mram = s.mram := rfl
@[simp] theorem State.setPending_regs (q : List Instr) (s : State) : (s.setPending q).regs = s.regs := rfl
@[simp] theorem State.setPending_chip (q : List Instr) (s : State) : (s.setPending q).chip = s.chip := rfl
@[simp] theorem State.setPending_self (s : State) : s.setPending s.pending = s := rfl


-- Stall

@[simp] theorem Chip.setStall_now (c : Chip) (i : Nat) (v : Stall) : (c.setStall i v).now = c.now := rfl
@[simp] theorem Chip.setStall_free (c : Chip) (i : Nat) (v : Stall) : (c.setStall i v).free = c.free := rfl
@[simp] theorem Chip.setStall_sys (c : Chip) (i : Nat) (v : Stall) : (c.setStall i v).sys = c.sys := rfl
@[simp] theorem Chip.setStall_mt (c : Chip) (i : Nat) (v : Stall) : (c.setStall i v).mt = c.mt := rfl
@[simp] theorem Chip.setStall_ring0 (c : Chip) (i : Nat) (v : Stall) : (c.setStall i v).ring0 = c.ring0 := rfl
@[simp] theorem Chip.setStall_ring1 (c : Chip) (i : Nat) (v : Stall) : (c.setStall i v).ring1 = c.ring1 := rfl
@[simp] theorem Chip.setStall_arb (c : Chip) (i : Nat) (v : Stall) : (c.setStall i v).arb = c.arb := rfl
@[simp] theorem Chip.setStall_jobs (c : Chip) (i : Nat) (v : Stall) : (c.setStall i v).jobs = c.jobs := rfl
@[simp] theorem Chip.setStall_nextJob (c : Chip) (i : Nat) (v : Stall) : (c.setStall i v).nextJob = c.nextJob := rfl
@[simp] theorem Chip.setStall_yards (c : Chip) (i : Nat) (v : Stall) : (c.setStall i v).yards = c.yards := rfl
@[simp] theorem Chip.setStall_feeds (c : Chip) (i : Nat) (v : Stall) : (c.setStall i v).feeds = c.feeds := rfl
@[simp] theorem Chip.setStall_budget (c : Chip) (i : Nat) (v : Stall) : (c.setStall i v).budget = c.budget := rfl
@[simp] theorem Chip.setStall_safes (c : Chip) (i : Nat) (v : Stall) : (c.setStall i v).safes = c.safes := rfl
@[simp] theorem Chip.setStall_img (c : Chip) (i : Nat) (v : Stall) : (c.setStall i v).img = c.img := rfl
@[simp] theorem Chip.setStall_copy (c : Chip) (i : Nat) (v : Stall) : (c.setStall i v).copy = c.copy := rfl
@[simp] theorem Chip.setStall_curves (c : Chip) (i : Nat) (v : Stall) : (c.setStall i v).curves = c.curves := rfl
@[simp] theorem Chip.setStall_cross (c : Chip) (i : Nat) (v : Stall) : (c.setStall i v).cross = c.cross := rfl
@[simp] theorem Chip.setStall_seqs (c : Chip) (i : Nat) (v : Stall) : (c.setStall i v).seqs = c.seqs := rfl
@[simp] theorem Chip.setStall_ports (c : Chip) (i : Nat) (v : Stall) : (c.setStall i v).ports = c.ports := rfl
@[simp] theorem Chip.setStall_latches (c : Chip) (i : Nat) (v : Stall) : (c.setStall i v).latches = c.latches := rfl
@[simp] theorem Chip.setStall_timers (c : Chip) (i : Nat) (v : Stall) : (c.setStall i v).timers = c.timers := rfl
@[simp] theorem Chip.setStall_gstart (c : Chip) (i : Nat) (v : Stall) : (c.setStall i v).gstart = c.gstart := rfl
@[simp] theorem Chip.setStall_segs (c : Chip) (i : Nat) (v : Stall) : (c.setStall i v).segs = c.segs := rfl
@[simp] theorem Chip.setStall_cans (c : Chip) (i : Nat) (v : Stall) : (c.setStall i v).cans = c.cans := rfl
@[simp] theorem Chip.setStall_lins (c : Chip) (i : Nat) (v : Stall) : (c.setStall i v).lins = c.lins := rfl
@[simp] theorem Chip.setStall_t1ss (c : Chip) (i : Nat) (v : Stall) : (c.setStall i v).t1ss = c.t1ss := rfl
@[simp] theorem Chip.setStall_bbs (c : Chip) (i : Nat) (v : Stall) : (c.setStall i v).bbs = c.bbs := rfl
@[simp] theorem Chip.setStall_hostPort (c : Chip) (i : Nat) (v : Stall) : (c.setStall i v).hostPort = c.hostPort := rfl
@[simp] theorem Chip.setStall_net (c : Chip) (i : Nat) (v : Stall) : (c.setStall i v).net = c.net := rfl
@[simp] theorem Chip.setStall_acc (c : Chip) (i : Nat) (v : Stall) : (c.setStall i v).acc = c.acc := rfl
@[simp] theorem Chip.setStall_upd (c : Chip) (i : Nat) (v : Stall) : (c.setStall i v).upd = c.upd := rfl
@[simp] theorem Chip.setStall_age (c : Chip) (i : Nat) (v : Stall) : (c.setStall i v).age = c.age := rfl
@[simp] theorem Chip.setStall_out (c : Chip) (i : Nat) (v : Stall) : (c.setStall i v).out = c.out := rfl
@[simp] theorem Chip.setStall_same (c : Chip) (i : Nat) (v : Stall) (j : Nat) : (c.setStall i v).stall j = if i = j then v else c.stall j := UMap.get_put _ _ _ _ _
@[simp] theorem Chip.setStall_twice (c : Chip) (i : Nat) (v : Stall) (w : Stall) : (c.setStall i v).setStall i w = c.setStall i w := by
  simp [Chip.setStall]
@[simp] theorem Chip.setStall_row (c : Chip) (i : Nat) (v : Stall) (j : Nat) : (c.setStall i v).row j = c.row j := rfl
@[simp] theorem Chip.setStall_valve (c : Chip) (i : Nat) (v : Stall) (j : Nat) : (c.setStall i v).valve j = c.valve j := rfl
@[simp] theorem Chip.setStall_vg (c : Chip) (i : Nat) (v : Stall) (j : Nat) : (c.setStall i v).vg j = c.vg j := rfl
@[simp] theorem Chip.setStall_loop (c : Chip) (i : Nat) (v : Stall) (j : Nat) : (c.setStall i v).loop j = c.loop j := rfl
@[simp] theorem Chip.setStall_boost (c : Chip) (i : Nat) (v : Stall) (j : Nat) : (c.setStall i v).boost j = c.boost j := rfl
@[simp] theorem Chip.setStall_sink (c : Chip) (i : Nat) (v : Stall) (j : Nat) : (c.setStall i v).sink j = c.sink j := rfl
@[simp] theorem Chip.setStall_ntc (c : Chip) (i : Nat) (v : Stall) (j : Nat) : (c.setStall i v).ntc j = c.ntc j := rfl
@[simp] theorem Chip.setStall_si (c : Chip) (i : Nat) (v : Stall) (j : Nat) : (c.setStall i v).si j = c.si j := rfl
@[simp] theorem Chip.setStall_ain (c : Chip) (i : Nat) (v : Stall) (j : Nat) : (c.setStall i v).ain j = c.ain j := rfl
@[simp] theorem Chip.setStall_dout (c : Chip) (i : Nat) (v : Stall) (j : Nat) : (c.setStall i v).dout j = c.dout j := rfl
@[simp] theorem Chip.setStall_yard (c : Chip) (i : Nat) (v : Stall) (j : Nat) : (c.setStall i v).yard j = c.yard j := rfl
@[simp] theorem Chip.setStall_feed (c : Chip) (i : Nat) (v : Stall) (j : Nat) : (c.setStall i v).feed j = c.feed j := rfl
@[simp] theorem Chip.setStall_safe (c : Chip) (i : Nat) (v : Stall) (j : Nat) : (c.setStall i v).safe j = c.safe j := rfl
@[simp] theorem Chip.setStall_port (c : Chip) (i : Nat) (v : Stall) (j : Nat) : (c.setStall i v).port j = c.port j := rfl
@[simp] theorem Chip.setStall_timer (c : Chip) (i : Nat) (v : Stall) (j : Nat) : (c.setStall i v).timer j = c.timer j := rfl
@[simp] theorem Chip.setStall_seg (c : Chip) (i : Nat) (v : Stall) (j : Nat) : (c.setStall i v).seg j = c.seg j := rfl
@[simp] theorem Chip.setStall_can (c : Chip) (i : Nat) (v : Stall) (j : Nat) : (c.setStall i v).can j = c.can j := rfl
@[simp] theorem Chip.setStall_lin (c : Chip) (i : Nat) (v : Stall) (j : Nat) : (c.setStall i v).lin j = c.lin j := rfl
@[simp] theorem Chip.setStall_t1s (c : Chip) (i : Nat) (v : Stall) (j : Nat) : (c.setStall i v).t1s j = c.t1s j := rfl
@[simp] theorem Chip.setStall_bb (c : Chip) (i : Nat) (v : Stall) (j : Nat) : (c.setStall i v).bb j = c.bb j := rfl
@[simp] theorem Chip.setStall_ring (c : Chip) (i : Nat) (v : Stall) (pf : Nat) : (c.setStall i v).ring pf = c.ring pf := rfl
@[simp] theorem Chip.setStall_halt_mx (c : Chip) (i : Nat) (v : Stall) : (c.setStall i v).halt.mx = c.halt.mx := rfl
@[simp] theorem Chip.setStall_halt_ovCut (c : Chip) (i : Nat) (v : Stall) : (c.setStall i v).halt.ovCut = c.halt.ovCut := rfl
@[simp] theorem Chip.setStall_halt_curves (c : Chip) (i : Nat) (v : Stall) : (c.setStall i v).halt.curves = c.halt.curves := rfl
@[simp] theorem Chip.setStall_halt_encs (c : Chip) (i : Nat) (v : Stall) : (c.setStall i v).halt.encs = c.halt.encs := rfl
@[simp] theorem Chip.setStall_halt_encLv (c : Chip) (i : Nat) (v : Stall) : (c.setStall i v).halt.encLv = c.halt.encLv := rfl
@[simp] theorem Chip.setStall_halt_snaps (c : Chip) (i : Nat) (v : Stall) : (c.setStall i v).halt.snaps = c.halt.snaps := rfl
@[simp] theorem Chip.modStall_eq (c : Chip) (i : Nat) (f : Stall → Stall) : c.modStall i f = c.setStall i (f (c.stall i)) := rfl

-- Row

@[simp] theorem Chip.setRow_now (c : Chip) (i : Nat) (v : Row) : (c.setRow i v).now = c.now := rfl
@[simp] theorem Chip.setRow_free (c : Chip) (i : Nat) (v : Row) : (c.setRow i v).free = c.free := rfl
@[simp] theorem Chip.setRow_sys (c : Chip) (i : Nat) (v : Row) : (c.setRow i v).sys = c.sys := rfl
@[simp] theorem Chip.setRow_mt (c : Chip) (i : Nat) (v : Row) : (c.setRow i v).mt = c.mt := rfl
@[simp] theorem Chip.setRow_ring0 (c : Chip) (i : Nat) (v : Row) : (c.setRow i v).ring0 = c.ring0 := rfl
@[simp] theorem Chip.setRow_ring1 (c : Chip) (i : Nat) (v : Row) : (c.setRow i v).ring1 = c.ring1 := rfl
@[simp] theorem Chip.setRow_arb (c : Chip) (i : Nat) (v : Row) : (c.setRow i v).arb = c.arb := rfl
@[simp] theorem Chip.setRow_jobs (c : Chip) (i : Nat) (v : Row) : (c.setRow i v).jobs = c.jobs := rfl
@[simp] theorem Chip.setRow_nextJob (c : Chip) (i : Nat) (v : Row) : (c.setRow i v).nextJob = c.nextJob := rfl
@[simp] theorem Chip.setRow_yards (c : Chip) (i : Nat) (v : Row) : (c.setRow i v).yards = c.yards := rfl
@[simp] theorem Chip.setRow_feeds (c : Chip) (i : Nat) (v : Row) : (c.setRow i v).feeds = c.feeds := rfl
@[simp] theorem Chip.setRow_budget (c : Chip) (i : Nat) (v : Row) : (c.setRow i v).budget = c.budget := rfl
@[simp] theorem Chip.setRow_safes (c : Chip) (i : Nat) (v : Row) : (c.setRow i v).safes = c.safes := rfl
@[simp] theorem Chip.setRow_img (c : Chip) (i : Nat) (v : Row) : (c.setRow i v).img = c.img := rfl
@[simp] theorem Chip.setRow_copy (c : Chip) (i : Nat) (v : Row) : (c.setRow i v).copy = c.copy := rfl
@[simp] theorem Chip.setRow_curves (c : Chip) (i : Nat) (v : Row) : (c.setRow i v).curves = c.curves := rfl
@[simp] theorem Chip.setRow_cross (c : Chip) (i : Nat) (v : Row) : (c.setRow i v).cross = c.cross := rfl
@[simp] theorem Chip.setRow_seqs (c : Chip) (i : Nat) (v : Row) : (c.setRow i v).seqs = c.seqs := rfl
@[simp] theorem Chip.setRow_ports (c : Chip) (i : Nat) (v : Row) : (c.setRow i v).ports = c.ports := rfl
@[simp] theorem Chip.setRow_latches (c : Chip) (i : Nat) (v : Row) : (c.setRow i v).latches = c.latches := rfl
@[simp] theorem Chip.setRow_timers (c : Chip) (i : Nat) (v : Row) : (c.setRow i v).timers = c.timers := rfl
@[simp] theorem Chip.setRow_gstart (c : Chip) (i : Nat) (v : Row) : (c.setRow i v).gstart = c.gstart := rfl
@[simp] theorem Chip.setRow_segs (c : Chip) (i : Nat) (v : Row) : (c.setRow i v).segs = c.segs := rfl
@[simp] theorem Chip.setRow_cans (c : Chip) (i : Nat) (v : Row) : (c.setRow i v).cans = c.cans := rfl
@[simp] theorem Chip.setRow_lins (c : Chip) (i : Nat) (v : Row) : (c.setRow i v).lins = c.lins := rfl
@[simp] theorem Chip.setRow_t1ss (c : Chip) (i : Nat) (v : Row) : (c.setRow i v).t1ss = c.t1ss := rfl
@[simp] theorem Chip.setRow_bbs (c : Chip) (i : Nat) (v : Row) : (c.setRow i v).bbs = c.bbs := rfl
@[simp] theorem Chip.setRow_hostPort (c : Chip) (i : Nat) (v : Row) : (c.setRow i v).hostPort = c.hostPort := rfl
@[simp] theorem Chip.setRow_net (c : Chip) (i : Nat) (v : Row) : (c.setRow i v).net = c.net := rfl
@[simp] theorem Chip.setRow_acc (c : Chip) (i : Nat) (v : Row) : (c.setRow i v).acc = c.acc := rfl
@[simp] theorem Chip.setRow_upd (c : Chip) (i : Nat) (v : Row) : (c.setRow i v).upd = c.upd := rfl
@[simp] theorem Chip.setRow_age (c : Chip) (i : Nat) (v : Row) : (c.setRow i v).age = c.age := rfl
@[simp] theorem Chip.setRow_out (c : Chip) (i : Nat) (v : Row) : (c.setRow i v).out = c.out := rfl
@[simp] theorem Chip.setRow_same (c : Chip) (i : Nat) (v : Row) (j : Nat) : (c.setRow i v).row j = if i = j then v else c.row j := UMap.get_put _ _ _ _ _
@[simp] theorem Chip.setRow_twice (c : Chip) (i : Nat) (v : Row) (w : Row) : (c.setRow i v).setRow i w = c.setRow i w := by
  simp [Chip.setRow]
@[simp] theorem Chip.setRow_stall (c : Chip) (i : Nat) (v : Row) (j : Nat) : (c.setRow i v).stall j = c.stall j := rfl
@[simp] theorem Chip.setRow_valve (c : Chip) (i : Nat) (v : Row) (j : Nat) : (c.setRow i v).valve j = c.valve j := rfl
@[simp] theorem Chip.setRow_vg (c : Chip) (i : Nat) (v : Row) (j : Nat) : (c.setRow i v).vg j = c.vg j := rfl
@[simp] theorem Chip.setRow_loop (c : Chip) (i : Nat) (v : Row) (j : Nat) : (c.setRow i v).loop j = c.loop j := rfl
@[simp] theorem Chip.setRow_boost (c : Chip) (i : Nat) (v : Row) (j : Nat) : (c.setRow i v).boost j = c.boost j := rfl
@[simp] theorem Chip.setRow_sink (c : Chip) (i : Nat) (v : Row) (j : Nat) : (c.setRow i v).sink j = c.sink j := rfl
@[simp] theorem Chip.setRow_ntc (c : Chip) (i : Nat) (v : Row) (j : Nat) : (c.setRow i v).ntc j = c.ntc j := rfl
@[simp] theorem Chip.setRow_si (c : Chip) (i : Nat) (v : Row) (j : Nat) : (c.setRow i v).si j = c.si j := rfl
@[simp] theorem Chip.setRow_ain (c : Chip) (i : Nat) (v : Row) (j : Nat) : (c.setRow i v).ain j = c.ain j := rfl
@[simp] theorem Chip.setRow_dout (c : Chip) (i : Nat) (v : Row) (j : Nat) : (c.setRow i v).dout j = c.dout j := rfl
@[simp] theorem Chip.setRow_yard (c : Chip) (i : Nat) (v : Row) (j : Nat) : (c.setRow i v).yard j = c.yard j := rfl
@[simp] theorem Chip.setRow_feed (c : Chip) (i : Nat) (v : Row) (j : Nat) : (c.setRow i v).feed j = c.feed j := rfl
@[simp] theorem Chip.setRow_safe (c : Chip) (i : Nat) (v : Row) (j : Nat) : (c.setRow i v).safe j = c.safe j := rfl
@[simp] theorem Chip.setRow_port (c : Chip) (i : Nat) (v : Row) (j : Nat) : (c.setRow i v).port j = c.port j := rfl
@[simp] theorem Chip.setRow_timer (c : Chip) (i : Nat) (v : Row) (j : Nat) : (c.setRow i v).timer j = c.timer j := rfl
@[simp] theorem Chip.setRow_seg (c : Chip) (i : Nat) (v : Row) (j : Nat) : (c.setRow i v).seg j = c.seg j := rfl
@[simp] theorem Chip.setRow_can (c : Chip) (i : Nat) (v : Row) (j : Nat) : (c.setRow i v).can j = c.can j := rfl
@[simp] theorem Chip.setRow_lin (c : Chip) (i : Nat) (v : Row) (j : Nat) : (c.setRow i v).lin j = c.lin j := rfl
@[simp] theorem Chip.setRow_t1s (c : Chip) (i : Nat) (v : Row) (j : Nat) : (c.setRow i v).t1s j = c.t1s j := rfl
@[simp] theorem Chip.setRow_bb (c : Chip) (i : Nat) (v : Row) (j : Nat) : (c.setRow i v).bb j = c.bb j := rfl
@[simp] theorem Chip.setRow_ring (c : Chip) (i : Nat) (v : Row) (pf : Nat) : (c.setRow i v).ring pf = c.ring pf := rfl
@[simp] theorem Chip.setRow_halt_mx (c : Chip) (i : Nat) (v : Row) : (c.setRow i v).halt.mx = c.halt.mx := rfl
@[simp] theorem Chip.setRow_halt_ovCut (c : Chip) (i : Nat) (v : Row) : (c.setRow i v).halt.ovCut = c.halt.ovCut := rfl
@[simp] theorem Chip.setRow_halt_curves (c : Chip) (i : Nat) (v : Row) : (c.setRow i v).halt.curves = c.halt.curves := rfl
@[simp] theorem Chip.setRow_halt_encs (c : Chip) (i : Nat) (v : Row) : (c.setRow i v).halt.encs = c.halt.encs := rfl
@[simp] theorem Chip.setRow_halt_encLv (c : Chip) (i : Nat) (v : Row) : (c.setRow i v).halt.encLv = c.halt.encLv := rfl
@[simp] theorem Chip.setRow_halt_snaps (c : Chip) (i : Nat) (v : Row) : (c.setRow i v).halt.snaps = c.halt.snaps := rfl
@[simp] theorem Chip.modRow_eq (c : Chip) (i : Nat) (f : Row → Row) : c.modRow i f = c.setRow i (f (c.row i)) := rfl

-- Valve

@[simp] theorem Chip.setValve_now (c : Chip) (i : Nat) (v : Valve) : (c.setValve i v).now = c.now := rfl
@[simp] theorem Chip.setValve_free (c : Chip) (i : Nat) (v : Valve) : (c.setValve i v).free = c.free := rfl
@[simp] theorem Chip.setValve_sys (c : Chip) (i : Nat) (v : Valve) : (c.setValve i v).sys = c.sys := rfl
@[simp] theorem Chip.setValve_mt (c : Chip) (i : Nat) (v : Valve) : (c.setValve i v).mt = c.mt := rfl
@[simp] theorem Chip.setValve_ring0 (c : Chip) (i : Nat) (v : Valve) : (c.setValve i v).ring0 = c.ring0 := rfl
@[simp] theorem Chip.setValve_ring1 (c : Chip) (i : Nat) (v : Valve) : (c.setValve i v).ring1 = c.ring1 := rfl
@[simp] theorem Chip.setValve_arb (c : Chip) (i : Nat) (v : Valve) : (c.setValve i v).arb = c.arb := rfl
@[simp] theorem Chip.setValve_jobs (c : Chip) (i : Nat) (v : Valve) : (c.setValve i v).jobs = c.jobs := rfl
@[simp] theorem Chip.setValve_nextJob (c : Chip) (i : Nat) (v : Valve) : (c.setValve i v).nextJob = c.nextJob := rfl
@[simp] theorem Chip.setValve_yards (c : Chip) (i : Nat) (v : Valve) : (c.setValve i v).yards = c.yards := rfl
@[simp] theorem Chip.setValve_feeds (c : Chip) (i : Nat) (v : Valve) : (c.setValve i v).feeds = c.feeds := rfl
@[simp] theorem Chip.setValve_budget (c : Chip) (i : Nat) (v : Valve) : (c.setValve i v).budget = c.budget := rfl
@[simp] theorem Chip.setValve_safes (c : Chip) (i : Nat) (v : Valve) : (c.setValve i v).safes = c.safes := rfl
@[simp] theorem Chip.setValve_img (c : Chip) (i : Nat) (v : Valve) : (c.setValve i v).img = c.img := rfl
@[simp] theorem Chip.setValve_copy (c : Chip) (i : Nat) (v : Valve) : (c.setValve i v).copy = c.copy := rfl
@[simp] theorem Chip.setValve_curves (c : Chip) (i : Nat) (v : Valve) : (c.setValve i v).curves = c.curves := rfl
@[simp] theorem Chip.setValve_cross (c : Chip) (i : Nat) (v : Valve) : (c.setValve i v).cross = c.cross := rfl
@[simp] theorem Chip.setValve_seqs (c : Chip) (i : Nat) (v : Valve) : (c.setValve i v).seqs = c.seqs := rfl
@[simp] theorem Chip.setValve_ports (c : Chip) (i : Nat) (v : Valve) : (c.setValve i v).ports = c.ports := rfl
@[simp] theorem Chip.setValve_latches (c : Chip) (i : Nat) (v : Valve) : (c.setValve i v).latches = c.latches := rfl
@[simp] theorem Chip.setValve_timers (c : Chip) (i : Nat) (v : Valve) : (c.setValve i v).timers = c.timers := rfl
@[simp] theorem Chip.setValve_gstart (c : Chip) (i : Nat) (v : Valve) : (c.setValve i v).gstart = c.gstart := rfl
@[simp] theorem Chip.setValve_segs (c : Chip) (i : Nat) (v : Valve) : (c.setValve i v).segs = c.segs := rfl
@[simp] theorem Chip.setValve_cans (c : Chip) (i : Nat) (v : Valve) : (c.setValve i v).cans = c.cans := rfl
@[simp] theorem Chip.setValve_lins (c : Chip) (i : Nat) (v : Valve) : (c.setValve i v).lins = c.lins := rfl
@[simp] theorem Chip.setValve_t1ss (c : Chip) (i : Nat) (v : Valve) : (c.setValve i v).t1ss = c.t1ss := rfl
@[simp] theorem Chip.setValve_bbs (c : Chip) (i : Nat) (v : Valve) : (c.setValve i v).bbs = c.bbs := rfl
@[simp] theorem Chip.setValve_hostPort (c : Chip) (i : Nat) (v : Valve) : (c.setValve i v).hostPort = c.hostPort := rfl
@[simp] theorem Chip.setValve_net (c : Chip) (i : Nat) (v : Valve) : (c.setValve i v).net = c.net := rfl
@[simp] theorem Chip.setValve_acc (c : Chip) (i : Nat) (v : Valve) : (c.setValve i v).acc = c.acc := rfl
@[simp] theorem Chip.setValve_upd (c : Chip) (i : Nat) (v : Valve) : (c.setValve i v).upd = c.upd := rfl
@[simp] theorem Chip.setValve_age (c : Chip) (i : Nat) (v : Valve) : (c.setValve i v).age = c.age := rfl
@[simp] theorem Chip.setValve_out (c : Chip) (i : Nat) (v : Valve) : (c.setValve i v).out = c.out := rfl
@[simp] theorem Chip.setValve_same (c : Chip) (i : Nat) (v : Valve) (j : Nat) : (c.setValve i v).valve j = if i = j then v else c.valve j := UMap.get_put _ _ _ _ _
@[simp] theorem Chip.setValve_twice (c : Chip) (i : Nat) (v : Valve) (w : Valve) : (c.setValve i v).setValve i w = c.setValve i w := by
  simp [Chip.setValve]
@[simp] theorem Chip.setValve_stall (c : Chip) (i : Nat) (v : Valve) (j : Nat) : (c.setValve i v).stall j = c.stall j := rfl
@[simp] theorem Chip.setValve_row (c : Chip) (i : Nat) (v : Valve) (j : Nat) : (c.setValve i v).row j = c.row j := rfl
@[simp] theorem Chip.setValve_vg (c : Chip) (i : Nat) (v : Valve) (j : Nat) : (c.setValve i v).vg j = c.vg j := rfl
@[simp] theorem Chip.setValve_loop (c : Chip) (i : Nat) (v : Valve) (j : Nat) : (c.setValve i v).loop j = c.loop j := rfl
@[simp] theorem Chip.setValve_boost (c : Chip) (i : Nat) (v : Valve) (j : Nat) : (c.setValve i v).boost j = c.boost j := rfl
@[simp] theorem Chip.setValve_sink (c : Chip) (i : Nat) (v : Valve) (j : Nat) : (c.setValve i v).sink j = c.sink j := rfl
@[simp] theorem Chip.setValve_ntc (c : Chip) (i : Nat) (v : Valve) (j : Nat) : (c.setValve i v).ntc j = c.ntc j := rfl
@[simp] theorem Chip.setValve_si (c : Chip) (i : Nat) (v : Valve) (j : Nat) : (c.setValve i v).si j = c.si j := rfl
@[simp] theorem Chip.setValve_ain (c : Chip) (i : Nat) (v : Valve) (j : Nat) : (c.setValve i v).ain j = c.ain j := rfl
@[simp] theorem Chip.setValve_dout (c : Chip) (i : Nat) (v : Valve) (j : Nat) : (c.setValve i v).dout j = c.dout j := rfl
@[simp] theorem Chip.setValve_yard (c : Chip) (i : Nat) (v : Valve) (j : Nat) : (c.setValve i v).yard j = c.yard j := rfl
@[simp] theorem Chip.setValve_feed (c : Chip) (i : Nat) (v : Valve) (j : Nat) : (c.setValve i v).feed j = c.feed j := rfl
@[simp] theorem Chip.setValve_safe (c : Chip) (i : Nat) (v : Valve) (j : Nat) : (c.setValve i v).safe j = c.safe j := rfl
@[simp] theorem Chip.setValve_port (c : Chip) (i : Nat) (v : Valve) (j : Nat) : (c.setValve i v).port j = c.port j := rfl
@[simp] theorem Chip.setValve_timer (c : Chip) (i : Nat) (v : Valve) (j : Nat) : (c.setValve i v).timer j = c.timer j := rfl
@[simp] theorem Chip.setValve_seg (c : Chip) (i : Nat) (v : Valve) (j : Nat) : (c.setValve i v).seg j = c.seg j := rfl
@[simp] theorem Chip.setValve_can (c : Chip) (i : Nat) (v : Valve) (j : Nat) : (c.setValve i v).can j = c.can j := rfl
@[simp] theorem Chip.setValve_lin (c : Chip) (i : Nat) (v : Valve) (j : Nat) : (c.setValve i v).lin j = c.lin j := rfl
@[simp] theorem Chip.setValve_t1s (c : Chip) (i : Nat) (v : Valve) (j : Nat) : (c.setValve i v).t1s j = c.t1s j := rfl
@[simp] theorem Chip.setValve_bb (c : Chip) (i : Nat) (v : Valve) (j : Nat) : (c.setValve i v).bb j = c.bb j := rfl
@[simp] theorem Chip.setValve_ring (c : Chip) (i : Nat) (v : Valve) (pf : Nat) : (c.setValve i v).ring pf = c.ring pf := rfl
@[simp] theorem Chip.setValve_halt_mx (c : Chip) (i : Nat) (v : Valve) : (c.setValve i v).halt.mx = c.halt.mx := rfl
@[simp] theorem Chip.setValve_halt_ovCut (c : Chip) (i : Nat) (v : Valve) : (c.setValve i v).halt.ovCut = c.halt.ovCut := rfl
@[simp] theorem Chip.setValve_halt_curves (c : Chip) (i : Nat) (v : Valve) : (c.setValve i v).halt.curves = c.halt.curves := rfl
@[simp] theorem Chip.setValve_halt_encs (c : Chip) (i : Nat) (v : Valve) : (c.setValve i v).halt.encs = c.halt.encs := rfl
@[simp] theorem Chip.setValve_halt_encLv (c : Chip) (i : Nat) (v : Valve) : (c.setValve i v).halt.encLv = c.halt.encLv := rfl
@[simp] theorem Chip.setValve_halt_snaps (c : Chip) (i : Nat) (v : Valve) : (c.setValve i v).halt.snaps = c.halt.snaps := rfl
@[simp] theorem Chip.modValve_eq (c : Chip) (i : Nat) (f : Valve → Valve) : c.modValve i f = c.setValve i (f (c.valve i)) := rfl

-- Vg

@[simp] theorem Chip.setVg_now (c : Chip) (i : Nat) (v : VGroup) : (c.setVg i v).now = c.now := rfl
@[simp] theorem Chip.setVg_free (c : Chip) (i : Nat) (v : VGroup) : (c.setVg i v).free = c.free := rfl
@[simp] theorem Chip.setVg_sys (c : Chip) (i : Nat) (v : VGroup) : (c.setVg i v).sys = c.sys := rfl
@[simp] theorem Chip.setVg_mt (c : Chip) (i : Nat) (v : VGroup) : (c.setVg i v).mt = c.mt := rfl
@[simp] theorem Chip.setVg_ring0 (c : Chip) (i : Nat) (v : VGroup) : (c.setVg i v).ring0 = c.ring0 := rfl
@[simp] theorem Chip.setVg_ring1 (c : Chip) (i : Nat) (v : VGroup) : (c.setVg i v).ring1 = c.ring1 := rfl
@[simp] theorem Chip.setVg_arb (c : Chip) (i : Nat) (v : VGroup) : (c.setVg i v).arb = c.arb := rfl
@[simp] theorem Chip.setVg_jobs (c : Chip) (i : Nat) (v : VGroup) : (c.setVg i v).jobs = c.jobs := rfl
@[simp] theorem Chip.setVg_nextJob (c : Chip) (i : Nat) (v : VGroup) : (c.setVg i v).nextJob = c.nextJob := rfl
@[simp] theorem Chip.setVg_yards (c : Chip) (i : Nat) (v : VGroup) : (c.setVg i v).yards = c.yards := rfl
@[simp] theorem Chip.setVg_feeds (c : Chip) (i : Nat) (v : VGroup) : (c.setVg i v).feeds = c.feeds := rfl
@[simp] theorem Chip.setVg_budget (c : Chip) (i : Nat) (v : VGroup) : (c.setVg i v).budget = c.budget := rfl
@[simp] theorem Chip.setVg_safes (c : Chip) (i : Nat) (v : VGroup) : (c.setVg i v).safes = c.safes := rfl
@[simp] theorem Chip.setVg_img (c : Chip) (i : Nat) (v : VGroup) : (c.setVg i v).img = c.img := rfl
@[simp] theorem Chip.setVg_copy (c : Chip) (i : Nat) (v : VGroup) : (c.setVg i v).copy = c.copy := rfl
@[simp] theorem Chip.setVg_curves (c : Chip) (i : Nat) (v : VGroup) : (c.setVg i v).curves = c.curves := rfl
@[simp] theorem Chip.setVg_cross (c : Chip) (i : Nat) (v : VGroup) : (c.setVg i v).cross = c.cross := rfl
@[simp] theorem Chip.setVg_seqs (c : Chip) (i : Nat) (v : VGroup) : (c.setVg i v).seqs = c.seqs := rfl
@[simp] theorem Chip.setVg_ports (c : Chip) (i : Nat) (v : VGroup) : (c.setVg i v).ports = c.ports := rfl
@[simp] theorem Chip.setVg_latches (c : Chip) (i : Nat) (v : VGroup) : (c.setVg i v).latches = c.latches := rfl
@[simp] theorem Chip.setVg_timers (c : Chip) (i : Nat) (v : VGroup) : (c.setVg i v).timers = c.timers := rfl
@[simp] theorem Chip.setVg_gstart (c : Chip) (i : Nat) (v : VGroup) : (c.setVg i v).gstart = c.gstart := rfl
@[simp] theorem Chip.setVg_segs (c : Chip) (i : Nat) (v : VGroup) : (c.setVg i v).segs = c.segs := rfl
@[simp] theorem Chip.setVg_cans (c : Chip) (i : Nat) (v : VGroup) : (c.setVg i v).cans = c.cans := rfl
@[simp] theorem Chip.setVg_lins (c : Chip) (i : Nat) (v : VGroup) : (c.setVg i v).lins = c.lins := rfl
@[simp] theorem Chip.setVg_t1ss (c : Chip) (i : Nat) (v : VGroup) : (c.setVg i v).t1ss = c.t1ss := rfl
@[simp] theorem Chip.setVg_bbs (c : Chip) (i : Nat) (v : VGroup) : (c.setVg i v).bbs = c.bbs := rfl
@[simp] theorem Chip.setVg_hostPort (c : Chip) (i : Nat) (v : VGroup) : (c.setVg i v).hostPort = c.hostPort := rfl
@[simp] theorem Chip.setVg_net (c : Chip) (i : Nat) (v : VGroup) : (c.setVg i v).net = c.net := rfl
@[simp] theorem Chip.setVg_acc (c : Chip) (i : Nat) (v : VGroup) : (c.setVg i v).acc = c.acc := rfl
@[simp] theorem Chip.setVg_upd (c : Chip) (i : Nat) (v : VGroup) : (c.setVg i v).upd = c.upd := rfl
@[simp] theorem Chip.setVg_age (c : Chip) (i : Nat) (v : VGroup) : (c.setVg i v).age = c.age := rfl
@[simp] theorem Chip.setVg_out (c : Chip) (i : Nat) (v : VGroup) : (c.setVg i v).out = c.out := rfl
@[simp] theorem Chip.setVg_same (c : Chip) (i : Nat) (v : VGroup) (j : Nat) : (c.setVg i v).vg j = if i = j then v else c.vg j := UMap.get_put _ _ _ _ _
@[simp] theorem Chip.setVg_twice (c : Chip) (i : Nat) (v : VGroup) (w : VGroup) : (c.setVg i v).setVg i w = c.setVg i w := by
  simp [Chip.setVg]
@[simp] theorem Chip.setVg_stall (c : Chip) (i : Nat) (v : VGroup) (j : Nat) : (c.setVg i v).stall j = c.stall j := rfl
@[simp] theorem Chip.setVg_row (c : Chip) (i : Nat) (v : VGroup) (j : Nat) : (c.setVg i v).row j = c.row j := rfl
@[simp] theorem Chip.setVg_valve (c : Chip) (i : Nat) (v : VGroup) (j : Nat) : (c.setVg i v).valve j = c.valve j := rfl
@[simp] theorem Chip.setVg_loop (c : Chip) (i : Nat) (v : VGroup) (j : Nat) : (c.setVg i v).loop j = c.loop j := rfl
@[simp] theorem Chip.setVg_boost (c : Chip) (i : Nat) (v : VGroup) (j : Nat) : (c.setVg i v).boost j = c.boost j := rfl
@[simp] theorem Chip.setVg_sink (c : Chip) (i : Nat) (v : VGroup) (j : Nat) : (c.setVg i v).sink j = c.sink j := rfl
@[simp] theorem Chip.setVg_ntc (c : Chip) (i : Nat) (v : VGroup) (j : Nat) : (c.setVg i v).ntc j = c.ntc j := rfl
@[simp] theorem Chip.setVg_si (c : Chip) (i : Nat) (v : VGroup) (j : Nat) : (c.setVg i v).si j = c.si j := rfl
@[simp] theorem Chip.setVg_ain (c : Chip) (i : Nat) (v : VGroup) (j : Nat) : (c.setVg i v).ain j = c.ain j := rfl
@[simp] theorem Chip.setVg_dout (c : Chip) (i : Nat) (v : VGroup) (j : Nat) : (c.setVg i v).dout j = c.dout j := rfl
@[simp] theorem Chip.setVg_yard (c : Chip) (i : Nat) (v : VGroup) (j : Nat) : (c.setVg i v).yard j = c.yard j := rfl
@[simp] theorem Chip.setVg_feed (c : Chip) (i : Nat) (v : VGroup) (j : Nat) : (c.setVg i v).feed j = c.feed j := rfl
@[simp] theorem Chip.setVg_safe (c : Chip) (i : Nat) (v : VGroup) (j : Nat) : (c.setVg i v).safe j = c.safe j := rfl
@[simp] theorem Chip.setVg_port (c : Chip) (i : Nat) (v : VGroup) (j : Nat) : (c.setVg i v).port j = c.port j := rfl
@[simp] theorem Chip.setVg_timer (c : Chip) (i : Nat) (v : VGroup) (j : Nat) : (c.setVg i v).timer j = c.timer j := rfl
@[simp] theorem Chip.setVg_seg (c : Chip) (i : Nat) (v : VGroup) (j : Nat) : (c.setVg i v).seg j = c.seg j := rfl
@[simp] theorem Chip.setVg_can (c : Chip) (i : Nat) (v : VGroup) (j : Nat) : (c.setVg i v).can j = c.can j := rfl
@[simp] theorem Chip.setVg_lin (c : Chip) (i : Nat) (v : VGroup) (j : Nat) : (c.setVg i v).lin j = c.lin j := rfl
@[simp] theorem Chip.setVg_t1s (c : Chip) (i : Nat) (v : VGroup) (j : Nat) : (c.setVg i v).t1s j = c.t1s j := rfl
@[simp] theorem Chip.setVg_bb (c : Chip) (i : Nat) (v : VGroup) (j : Nat) : (c.setVg i v).bb j = c.bb j := rfl
@[simp] theorem Chip.setVg_ring (c : Chip) (i : Nat) (v : VGroup) (pf : Nat) : (c.setVg i v).ring pf = c.ring pf := rfl
@[simp] theorem Chip.setVg_halt_mx (c : Chip) (i : Nat) (v : VGroup) : (c.setVg i v).halt.mx = c.halt.mx := rfl
@[simp] theorem Chip.setVg_halt_ovCut (c : Chip) (i : Nat) (v : VGroup) : (c.setVg i v).halt.ovCut = c.halt.ovCut := rfl
@[simp] theorem Chip.setVg_halt_curves (c : Chip) (i : Nat) (v : VGroup) : (c.setVg i v).halt.curves = c.halt.curves := rfl
@[simp] theorem Chip.setVg_halt_encs (c : Chip) (i : Nat) (v : VGroup) : (c.setVg i v).halt.encs = c.halt.encs := rfl
@[simp] theorem Chip.setVg_halt_encLv (c : Chip) (i : Nat) (v : VGroup) : (c.setVg i v).halt.encLv = c.halt.encLv := rfl
@[simp] theorem Chip.setVg_halt_snaps (c : Chip) (i : Nat) (v : VGroup) : (c.setVg i v).halt.snaps = c.halt.snaps := rfl
@[simp] theorem Chip.modVg_eq (c : Chip) (i : Nat) (f : VGroup → VGroup) : c.modVg i f = c.setVg i (f (c.vg i)) := rfl

-- Loop

@[simp] theorem Chip.setLoop_now (c : Chip) (i : Nat) (v : Loop) : (c.setLoop i v).now = c.now := rfl
@[simp] theorem Chip.setLoop_free (c : Chip) (i : Nat) (v : Loop) : (c.setLoop i v).free = c.free := rfl
@[simp] theorem Chip.setLoop_sys (c : Chip) (i : Nat) (v : Loop) : (c.setLoop i v).sys = c.sys := rfl
@[simp] theorem Chip.setLoop_mt (c : Chip) (i : Nat) (v : Loop) : (c.setLoop i v).mt = c.mt := rfl
@[simp] theorem Chip.setLoop_ring0 (c : Chip) (i : Nat) (v : Loop) : (c.setLoop i v).ring0 = c.ring0 := rfl
@[simp] theorem Chip.setLoop_ring1 (c : Chip) (i : Nat) (v : Loop) : (c.setLoop i v).ring1 = c.ring1 := rfl
@[simp] theorem Chip.setLoop_arb (c : Chip) (i : Nat) (v : Loop) : (c.setLoop i v).arb = c.arb := rfl
@[simp] theorem Chip.setLoop_jobs (c : Chip) (i : Nat) (v : Loop) : (c.setLoop i v).jobs = c.jobs := rfl
@[simp] theorem Chip.setLoop_nextJob (c : Chip) (i : Nat) (v : Loop) : (c.setLoop i v).nextJob = c.nextJob := rfl
@[simp] theorem Chip.setLoop_yards (c : Chip) (i : Nat) (v : Loop) : (c.setLoop i v).yards = c.yards := rfl
@[simp] theorem Chip.setLoop_feeds (c : Chip) (i : Nat) (v : Loop) : (c.setLoop i v).feeds = c.feeds := rfl
@[simp] theorem Chip.setLoop_budget (c : Chip) (i : Nat) (v : Loop) : (c.setLoop i v).budget = c.budget := rfl
@[simp] theorem Chip.setLoop_safes (c : Chip) (i : Nat) (v : Loop) : (c.setLoop i v).safes = c.safes := rfl
@[simp] theorem Chip.setLoop_img (c : Chip) (i : Nat) (v : Loop) : (c.setLoop i v).img = c.img := rfl
@[simp] theorem Chip.setLoop_copy (c : Chip) (i : Nat) (v : Loop) : (c.setLoop i v).copy = c.copy := rfl
@[simp] theorem Chip.setLoop_curves (c : Chip) (i : Nat) (v : Loop) : (c.setLoop i v).curves = c.curves := rfl
@[simp] theorem Chip.setLoop_cross (c : Chip) (i : Nat) (v : Loop) : (c.setLoop i v).cross = c.cross := rfl
@[simp] theorem Chip.setLoop_seqs (c : Chip) (i : Nat) (v : Loop) : (c.setLoop i v).seqs = c.seqs := rfl
@[simp] theorem Chip.setLoop_ports (c : Chip) (i : Nat) (v : Loop) : (c.setLoop i v).ports = c.ports := rfl
@[simp] theorem Chip.setLoop_latches (c : Chip) (i : Nat) (v : Loop) : (c.setLoop i v).latches = c.latches := rfl
@[simp] theorem Chip.setLoop_timers (c : Chip) (i : Nat) (v : Loop) : (c.setLoop i v).timers = c.timers := rfl
@[simp] theorem Chip.setLoop_gstart (c : Chip) (i : Nat) (v : Loop) : (c.setLoop i v).gstart = c.gstart := rfl
@[simp] theorem Chip.setLoop_segs (c : Chip) (i : Nat) (v : Loop) : (c.setLoop i v).segs = c.segs := rfl
@[simp] theorem Chip.setLoop_cans (c : Chip) (i : Nat) (v : Loop) : (c.setLoop i v).cans = c.cans := rfl
@[simp] theorem Chip.setLoop_lins (c : Chip) (i : Nat) (v : Loop) : (c.setLoop i v).lins = c.lins := rfl
@[simp] theorem Chip.setLoop_t1ss (c : Chip) (i : Nat) (v : Loop) : (c.setLoop i v).t1ss = c.t1ss := rfl
@[simp] theorem Chip.setLoop_bbs (c : Chip) (i : Nat) (v : Loop) : (c.setLoop i v).bbs = c.bbs := rfl
@[simp] theorem Chip.setLoop_hostPort (c : Chip) (i : Nat) (v : Loop) : (c.setLoop i v).hostPort = c.hostPort := rfl
@[simp] theorem Chip.setLoop_net (c : Chip) (i : Nat) (v : Loop) : (c.setLoop i v).net = c.net := rfl
@[simp] theorem Chip.setLoop_acc (c : Chip) (i : Nat) (v : Loop) : (c.setLoop i v).acc = c.acc := rfl
@[simp] theorem Chip.setLoop_upd (c : Chip) (i : Nat) (v : Loop) : (c.setLoop i v).upd = c.upd := rfl
@[simp] theorem Chip.setLoop_age (c : Chip) (i : Nat) (v : Loop) : (c.setLoop i v).age = c.age := rfl
@[simp] theorem Chip.setLoop_out (c : Chip) (i : Nat) (v : Loop) : (c.setLoop i v).out = c.out := rfl
@[simp] theorem Chip.setLoop_same (c : Chip) (i : Nat) (v : Loop) (j : Nat) : (c.setLoop i v).loop j = if i = j then v else c.loop j := UMap.get_put _ _ _ _ _
@[simp] theorem Chip.setLoop_twice (c : Chip) (i : Nat) (v : Loop) (w : Loop) : (c.setLoop i v).setLoop i w = c.setLoop i w := by
  simp [Chip.setLoop]
@[simp] theorem Chip.setLoop_stall (c : Chip) (i : Nat) (v : Loop) (j : Nat) : (c.setLoop i v).stall j = c.stall j := rfl
@[simp] theorem Chip.setLoop_row (c : Chip) (i : Nat) (v : Loop) (j : Nat) : (c.setLoop i v).row j = c.row j := rfl
@[simp] theorem Chip.setLoop_valve (c : Chip) (i : Nat) (v : Loop) (j : Nat) : (c.setLoop i v).valve j = c.valve j := rfl
@[simp] theorem Chip.setLoop_vg (c : Chip) (i : Nat) (v : Loop) (j : Nat) : (c.setLoop i v).vg j = c.vg j := rfl
@[simp] theorem Chip.setLoop_boost (c : Chip) (i : Nat) (v : Loop) (j : Nat) : (c.setLoop i v).boost j = c.boost j := rfl
@[simp] theorem Chip.setLoop_sink (c : Chip) (i : Nat) (v : Loop) (j : Nat) : (c.setLoop i v).sink j = c.sink j := rfl
@[simp] theorem Chip.setLoop_ntc (c : Chip) (i : Nat) (v : Loop) (j : Nat) : (c.setLoop i v).ntc j = c.ntc j := rfl
@[simp] theorem Chip.setLoop_si (c : Chip) (i : Nat) (v : Loop) (j : Nat) : (c.setLoop i v).si j = c.si j := rfl
@[simp] theorem Chip.setLoop_ain (c : Chip) (i : Nat) (v : Loop) (j : Nat) : (c.setLoop i v).ain j = c.ain j := rfl
@[simp] theorem Chip.setLoop_dout (c : Chip) (i : Nat) (v : Loop) (j : Nat) : (c.setLoop i v).dout j = c.dout j := rfl
@[simp] theorem Chip.setLoop_yard (c : Chip) (i : Nat) (v : Loop) (j : Nat) : (c.setLoop i v).yard j = c.yard j := rfl
@[simp] theorem Chip.setLoop_feed (c : Chip) (i : Nat) (v : Loop) (j : Nat) : (c.setLoop i v).feed j = c.feed j := rfl
@[simp] theorem Chip.setLoop_safe (c : Chip) (i : Nat) (v : Loop) (j : Nat) : (c.setLoop i v).safe j = c.safe j := rfl
@[simp] theorem Chip.setLoop_port (c : Chip) (i : Nat) (v : Loop) (j : Nat) : (c.setLoop i v).port j = c.port j := rfl
@[simp] theorem Chip.setLoop_timer (c : Chip) (i : Nat) (v : Loop) (j : Nat) : (c.setLoop i v).timer j = c.timer j := rfl
@[simp] theorem Chip.setLoop_seg (c : Chip) (i : Nat) (v : Loop) (j : Nat) : (c.setLoop i v).seg j = c.seg j := rfl
@[simp] theorem Chip.setLoop_can (c : Chip) (i : Nat) (v : Loop) (j : Nat) : (c.setLoop i v).can j = c.can j := rfl
@[simp] theorem Chip.setLoop_lin (c : Chip) (i : Nat) (v : Loop) (j : Nat) : (c.setLoop i v).lin j = c.lin j := rfl
@[simp] theorem Chip.setLoop_t1s (c : Chip) (i : Nat) (v : Loop) (j : Nat) : (c.setLoop i v).t1s j = c.t1s j := rfl
@[simp] theorem Chip.setLoop_bb (c : Chip) (i : Nat) (v : Loop) (j : Nat) : (c.setLoop i v).bb j = c.bb j := rfl
@[simp] theorem Chip.setLoop_ring (c : Chip) (i : Nat) (v : Loop) (pf : Nat) : (c.setLoop i v).ring pf = c.ring pf := rfl
@[simp] theorem Chip.setLoop_halt_mx (c : Chip) (i : Nat) (v : Loop) : (c.setLoop i v).halt.mx = c.halt.mx := rfl
@[simp] theorem Chip.setLoop_halt_ovCut (c : Chip) (i : Nat) (v : Loop) : (c.setLoop i v).halt.ovCut = c.halt.ovCut := rfl
@[simp] theorem Chip.setLoop_halt_curves (c : Chip) (i : Nat) (v : Loop) : (c.setLoop i v).halt.curves = c.halt.curves := rfl
@[simp] theorem Chip.setLoop_halt_encs (c : Chip) (i : Nat) (v : Loop) : (c.setLoop i v).halt.encs = c.halt.encs := rfl
@[simp] theorem Chip.setLoop_halt_encLv (c : Chip) (i : Nat) (v : Loop) : (c.setLoop i v).halt.encLv = c.halt.encLv := rfl
@[simp] theorem Chip.setLoop_halt_snaps (c : Chip) (i : Nat) (v : Loop) : (c.setLoop i v).halt.snaps = c.halt.snaps := rfl
@[simp] theorem Chip.modLoop_eq (c : Chip) (i : Nat) (f : Loop → Loop) : c.modLoop i f = c.setLoop i (f (c.loop i)) := rfl

-- Boost

@[simp] theorem Chip.setBoost_now (c : Chip) (i : Nat) (v : Boost) : (c.setBoost i v).now = c.now := rfl
@[simp] theorem Chip.setBoost_free (c : Chip) (i : Nat) (v : Boost) : (c.setBoost i v).free = c.free := rfl
@[simp] theorem Chip.setBoost_sys (c : Chip) (i : Nat) (v : Boost) : (c.setBoost i v).sys = c.sys := rfl
@[simp] theorem Chip.setBoost_mt (c : Chip) (i : Nat) (v : Boost) : (c.setBoost i v).mt = c.mt := rfl
@[simp] theorem Chip.setBoost_ring0 (c : Chip) (i : Nat) (v : Boost) : (c.setBoost i v).ring0 = c.ring0 := rfl
@[simp] theorem Chip.setBoost_ring1 (c : Chip) (i : Nat) (v : Boost) : (c.setBoost i v).ring1 = c.ring1 := rfl
@[simp] theorem Chip.setBoost_arb (c : Chip) (i : Nat) (v : Boost) : (c.setBoost i v).arb = c.arb := rfl
@[simp] theorem Chip.setBoost_jobs (c : Chip) (i : Nat) (v : Boost) : (c.setBoost i v).jobs = c.jobs := rfl
@[simp] theorem Chip.setBoost_nextJob (c : Chip) (i : Nat) (v : Boost) : (c.setBoost i v).nextJob = c.nextJob := rfl
@[simp] theorem Chip.setBoost_yards (c : Chip) (i : Nat) (v : Boost) : (c.setBoost i v).yards = c.yards := rfl
@[simp] theorem Chip.setBoost_feeds (c : Chip) (i : Nat) (v : Boost) : (c.setBoost i v).feeds = c.feeds := rfl
@[simp] theorem Chip.setBoost_budget (c : Chip) (i : Nat) (v : Boost) : (c.setBoost i v).budget = c.budget := rfl
@[simp] theorem Chip.setBoost_safes (c : Chip) (i : Nat) (v : Boost) : (c.setBoost i v).safes = c.safes := rfl
@[simp] theorem Chip.setBoost_img (c : Chip) (i : Nat) (v : Boost) : (c.setBoost i v).img = c.img := rfl
@[simp] theorem Chip.setBoost_copy (c : Chip) (i : Nat) (v : Boost) : (c.setBoost i v).copy = c.copy := rfl
@[simp] theorem Chip.setBoost_curves (c : Chip) (i : Nat) (v : Boost) : (c.setBoost i v).curves = c.curves := rfl
@[simp] theorem Chip.setBoost_cross (c : Chip) (i : Nat) (v : Boost) : (c.setBoost i v).cross = c.cross := rfl
@[simp] theorem Chip.setBoost_seqs (c : Chip) (i : Nat) (v : Boost) : (c.setBoost i v).seqs = c.seqs := rfl
@[simp] theorem Chip.setBoost_ports (c : Chip) (i : Nat) (v : Boost) : (c.setBoost i v).ports = c.ports := rfl
@[simp] theorem Chip.setBoost_latches (c : Chip) (i : Nat) (v : Boost) : (c.setBoost i v).latches = c.latches := rfl
@[simp] theorem Chip.setBoost_timers (c : Chip) (i : Nat) (v : Boost) : (c.setBoost i v).timers = c.timers := rfl
@[simp] theorem Chip.setBoost_gstart (c : Chip) (i : Nat) (v : Boost) : (c.setBoost i v).gstart = c.gstart := rfl
@[simp] theorem Chip.setBoost_segs (c : Chip) (i : Nat) (v : Boost) : (c.setBoost i v).segs = c.segs := rfl
@[simp] theorem Chip.setBoost_cans (c : Chip) (i : Nat) (v : Boost) : (c.setBoost i v).cans = c.cans := rfl
@[simp] theorem Chip.setBoost_lins (c : Chip) (i : Nat) (v : Boost) : (c.setBoost i v).lins = c.lins := rfl
@[simp] theorem Chip.setBoost_t1ss (c : Chip) (i : Nat) (v : Boost) : (c.setBoost i v).t1ss = c.t1ss := rfl
@[simp] theorem Chip.setBoost_bbs (c : Chip) (i : Nat) (v : Boost) : (c.setBoost i v).bbs = c.bbs := rfl
@[simp] theorem Chip.setBoost_hostPort (c : Chip) (i : Nat) (v : Boost) : (c.setBoost i v).hostPort = c.hostPort := rfl
@[simp] theorem Chip.setBoost_net (c : Chip) (i : Nat) (v : Boost) : (c.setBoost i v).net = c.net := rfl
@[simp] theorem Chip.setBoost_acc (c : Chip) (i : Nat) (v : Boost) : (c.setBoost i v).acc = c.acc := rfl
@[simp] theorem Chip.setBoost_upd (c : Chip) (i : Nat) (v : Boost) : (c.setBoost i v).upd = c.upd := rfl
@[simp] theorem Chip.setBoost_age (c : Chip) (i : Nat) (v : Boost) : (c.setBoost i v).age = c.age := rfl
@[simp] theorem Chip.setBoost_out (c : Chip) (i : Nat) (v : Boost) : (c.setBoost i v).out = c.out := rfl
@[simp] theorem Chip.setBoost_same (c : Chip) (i : Nat) (v : Boost) (j : Nat) : (c.setBoost i v).boost j = if i = j then v else c.boost j := UMap.get_put _ _ _ _ _
@[simp] theorem Chip.setBoost_twice (c : Chip) (i : Nat) (v : Boost) (w : Boost) : (c.setBoost i v).setBoost i w = c.setBoost i w := by
  simp [Chip.setBoost]
@[simp] theorem Chip.setBoost_stall (c : Chip) (i : Nat) (v : Boost) (j : Nat) : (c.setBoost i v).stall j = c.stall j := rfl
@[simp] theorem Chip.setBoost_row (c : Chip) (i : Nat) (v : Boost) (j : Nat) : (c.setBoost i v).row j = c.row j := rfl
@[simp] theorem Chip.setBoost_valve (c : Chip) (i : Nat) (v : Boost) (j : Nat) : (c.setBoost i v).valve j = c.valve j := rfl
@[simp] theorem Chip.setBoost_vg (c : Chip) (i : Nat) (v : Boost) (j : Nat) : (c.setBoost i v).vg j = c.vg j := rfl
@[simp] theorem Chip.setBoost_loop (c : Chip) (i : Nat) (v : Boost) (j : Nat) : (c.setBoost i v).loop j = c.loop j := rfl
@[simp] theorem Chip.setBoost_sink (c : Chip) (i : Nat) (v : Boost) (j : Nat) : (c.setBoost i v).sink j = c.sink j := rfl
@[simp] theorem Chip.setBoost_ntc (c : Chip) (i : Nat) (v : Boost) (j : Nat) : (c.setBoost i v).ntc j = c.ntc j := rfl
@[simp] theorem Chip.setBoost_si (c : Chip) (i : Nat) (v : Boost) (j : Nat) : (c.setBoost i v).si j = c.si j := rfl
@[simp] theorem Chip.setBoost_ain (c : Chip) (i : Nat) (v : Boost) (j : Nat) : (c.setBoost i v).ain j = c.ain j := rfl
@[simp] theorem Chip.setBoost_dout (c : Chip) (i : Nat) (v : Boost) (j : Nat) : (c.setBoost i v).dout j = c.dout j := rfl
@[simp] theorem Chip.setBoost_yard (c : Chip) (i : Nat) (v : Boost) (j : Nat) : (c.setBoost i v).yard j = c.yard j := rfl
@[simp] theorem Chip.setBoost_feed (c : Chip) (i : Nat) (v : Boost) (j : Nat) : (c.setBoost i v).feed j = c.feed j := rfl
@[simp] theorem Chip.setBoost_safe (c : Chip) (i : Nat) (v : Boost) (j : Nat) : (c.setBoost i v).safe j = c.safe j := rfl
@[simp] theorem Chip.setBoost_port (c : Chip) (i : Nat) (v : Boost) (j : Nat) : (c.setBoost i v).port j = c.port j := rfl
@[simp] theorem Chip.setBoost_timer (c : Chip) (i : Nat) (v : Boost) (j : Nat) : (c.setBoost i v).timer j = c.timer j := rfl
@[simp] theorem Chip.setBoost_seg (c : Chip) (i : Nat) (v : Boost) (j : Nat) : (c.setBoost i v).seg j = c.seg j := rfl
@[simp] theorem Chip.setBoost_can (c : Chip) (i : Nat) (v : Boost) (j : Nat) : (c.setBoost i v).can j = c.can j := rfl
@[simp] theorem Chip.setBoost_lin (c : Chip) (i : Nat) (v : Boost) (j : Nat) : (c.setBoost i v).lin j = c.lin j := rfl
@[simp] theorem Chip.setBoost_t1s (c : Chip) (i : Nat) (v : Boost) (j : Nat) : (c.setBoost i v).t1s j = c.t1s j := rfl
@[simp] theorem Chip.setBoost_bb (c : Chip) (i : Nat) (v : Boost) (j : Nat) : (c.setBoost i v).bb j = c.bb j := rfl
@[simp] theorem Chip.setBoost_ring (c : Chip) (i : Nat) (v : Boost) (pf : Nat) : (c.setBoost i v).ring pf = c.ring pf := rfl
@[simp] theorem Chip.setBoost_halt_mx (c : Chip) (i : Nat) (v : Boost) : (c.setBoost i v).halt.mx = c.halt.mx := rfl
@[simp] theorem Chip.setBoost_halt_ovCut (c : Chip) (i : Nat) (v : Boost) : (c.setBoost i v).halt.ovCut = c.halt.ovCut := rfl
@[simp] theorem Chip.setBoost_halt_curves (c : Chip) (i : Nat) (v : Boost) : (c.setBoost i v).halt.curves = c.halt.curves := rfl
@[simp] theorem Chip.setBoost_halt_encs (c : Chip) (i : Nat) (v : Boost) : (c.setBoost i v).halt.encs = c.halt.encs := rfl
@[simp] theorem Chip.setBoost_halt_encLv (c : Chip) (i : Nat) (v : Boost) : (c.setBoost i v).halt.encLv = c.halt.encLv := rfl
@[simp] theorem Chip.setBoost_halt_snaps (c : Chip) (i : Nat) (v : Boost) : (c.setBoost i v).halt.snaps = c.halt.snaps := rfl
@[simp] theorem Chip.modBoost_eq (c : Chip) (i : Nat) (f : Boost → Boost) : c.modBoost i f = c.setBoost i (f (c.boost i)) := rfl

-- Sink

@[simp] theorem Chip.setSink_now (c : Chip) (i : Nat) (v : Sink) : (c.setSink i v).now = c.now := rfl
@[simp] theorem Chip.setSink_free (c : Chip) (i : Nat) (v : Sink) : (c.setSink i v).free = c.free := rfl
@[simp] theorem Chip.setSink_sys (c : Chip) (i : Nat) (v : Sink) : (c.setSink i v).sys = c.sys := rfl
@[simp] theorem Chip.setSink_mt (c : Chip) (i : Nat) (v : Sink) : (c.setSink i v).mt = c.mt := rfl
@[simp] theorem Chip.setSink_ring0 (c : Chip) (i : Nat) (v : Sink) : (c.setSink i v).ring0 = c.ring0 := rfl
@[simp] theorem Chip.setSink_ring1 (c : Chip) (i : Nat) (v : Sink) : (c.setSink i v).ring1 = c.ring1 := rfl
@[simp] theorem Chip.setSink_arb (c : Chip) (i : Nat) (v : Sink) : (c.setSink i v).arb = c.arb := rfl
@[simp] theorem Chip.setSink_jobs (c : Chip) (i : Nat) (v : Sink) : (c.setSink i v).jobs = c.jobs := rfl
@[simp] theorem Chip.setSink_nextJob (c : Chip) (i : Nat) (v : Sink) : (c.setSink i v).nextJob = c.nextJob := rfl
@[simp] theorem Chip.setSink_yards (c : Chip) (i : Nat) (v : Sink) : (c.setSink i v).yards = c.yards := rfl
@[simp] theorem Chip.setSink_feeds (c : Chip) (i : Nat) (v : Sink) : (c.setSink i v).feeds = c.feeds := rfl
@[simp] theorem Chip.setSink_budget (c : Chip) (i : Nat) (v : Sink) : (c.setSink i v).budget = c.budget := rfl
@[simp] theorem Chip.setSink_safes (c : Chip) (i : Nat) (v : Sink) : (c.setSink i v).safes = c.safes := rfl
@[simp] theorem Chip.setSink_img (c : Chip) (i : Nat) (v : Sink) : (c.setSink i v).img = c.img := rfl
@[simp] theorem Chip.setSink_copy (c : Chip) (i : Nat) (v : Sink) : (c.setSink i v).copy = c.copy := rfl
@[simp] theorem Chip.setSink_curves (c : Chip) (i : Nat) (v : Sink) : (c.setSink i v).curves = c.curves := rfl
@[simp] theorem Chip.setSink_cross (c : Chip) (i : Nat) (v : Sink) : (c.setSink i v).cross = c.cross := rfl
@[simp] theorem Chip.setSink_seqs (c : Chip) (i : Nat) (v : Sink) : (c.setSink i v).seqs = c.seqs := rfl
@[simp] theorem Chip.setSink_ports (c : Chip) (i : Nat) (v : Sink) : (c.setSink i v).ports = c.ports := rfl
@[simp] theorem Chip.setSink_latches (c : Chip) (i : Nat) (v : Sink) : (c.setSink i v).latches = c.latches := rfl
@[simp] theorem Chip.setSink_timers (c : Chip) (i : Nat) (v : Sink) : (c.setSink i v).timers = c.timers := rfl
@[simp] theorem Chip.setSink_gstart (c : Chip) (i : Nat) (v : Sink) : (c.setSink i v).gstart = c.gstart := rfl
@[simp] theorem Chip.setSink_segs (c : Chip) (i : Nat) (v : Sink) : (c.setSink i v).segs = c.segs := rfl
@[simp] theorem Chip.setSink_cans (c : Chip) (i : Nat) (v : Sink) : (c.setSink i v).cans = c.cans := rfl
@[simp] theorem Chip.setSink_lins (c : Chip) (i : Nat) (v : Sink) : (c.setSink i v).lins = c.lins := rfl
@[simp] theorem Chip.setSink_t1ss (c : Chip) (i : Nat) (v : Sink) : (c.setSink i v).t1ss = c.t1ss := rfl
@[simp] theorem Chip.setSink_bbs (c : Chip) (i : Nat) (v : Sink) : (c.setSink i v).bbs = c.bbs := rfl
@[simp] theorem Chip.setSink_hostPort (c : Chip) (i : Nat) (v : Sink) : (c.setSink i v).hostPort = c.hostPort := rfl
@[simp] theorem Chip.setSink_net (c : Chip) (i : Nat) (v : Sink) : (c.setSink i v).net = c.net := rfl
@[simp] theorem Chip.setSink_acc (c : Chip) (i : Nat) (v : Sink) : (c.setSink i v).acc = c.acc := rfl
@[simp] theorem Chip.setSink_upd (c : Chip) (i : Nat) (v : Sink) : (c.setSink i v).upd = c.upd := rfl
@[simp] theorem Chip.setSink_age (c : Chip) (i : Nat) (v : Sink) : (c.setSink i v).age = c.age := rfl
@[simp] theorem Chip.setSink_out (c : Chip) (i : Nat) (v : Sink) : (c.setSink i v).out = c.out := rfl
@[simp] theorem Chip.setSink_same (c : Chip) (i : Nat) (v : Sink) (j : Nat) : (c.setSink i v).sink j = if i = j then v else c.sink j := UMap.get_put _ _ _ _ _
@[simp] theorem Chip.setSink_twice (c : Chip) (i : Nat) (v : Sink) (w : Sink) : (c.setSink i v).setSink i w = c.setSink i w := by
  simp [Chip.setSink]
@[simp] theorem Chip.setSink_stall (c : Chip) (i : Nat) (v : Sink) (j : Nat) : (c.setSink i v).stall j = c.stall j := rfl
@[simp] theorem Chip.setSink_row (c : Chip) (i : Nat) (v : Sink) (j : Nat) : (c.setSink i v).row j = c.row j := rfl
@[simp] theorem Chip.setSink_valve (c : Chip) (i : Nat) (v : Sink) (j : Nat) : (c.setSink i v).valve j = c.valve j := rfl
@[simp] theorem Chip.setSink_vg (c : Chip) (i : Nat) (v : Sink) (j : Nat) : (c.setSink i v).vg j = c.vg j := rfl
@[simp] theorem Chip.setSink_loop (c : Chip) (i : Nat) (v : Sink) (j : Nat) : (c.setSink i v).loop j = c.loop j := rfl
@[simp] theorem Chip.setSink_boost (c : Chip) (i : Nat) (v : Sink) (j : Nat) : (c.setSink i v).boost j = c.boost j := rfl
@[simp] theorem Chip.setSink_ntc (c : Chip) (i : Nat) (v : Sink) (j : Nat) : (c.setSink i v).ntc j = c.ntc j := rfl
@[simp] theorem Chip.setSink_si (c : Chip) (i : Nat) (v : Sink) (j : Nat) : (c.setSink i v).si j = c.si j := rfl
@[simp] theorem Chip.setSink_ain (c : Chip) (i : Nat) (v : Sink) (j : Nat) : (c.setSink i v).ain j = c.ain j := rfl
@[simp] theorem Chip.setSink_dout (c : Chip) (i : Nat) (v : Sink) (j : Nat) : (c.setSink i v).dout j = c.dout j := rfl
@[simp] theorem Chip.setSink_yard (c : Chip) (i : Nat) (v : Sink) (j : Nat) : (c.setSink i v).yard j = c.yard j := rfl
@[simp] theorem Chip.setSink_feed (c : Chip) (i : Nat) (v : Sink) (j : Nat) : (c.setSink i v).feed j = c.feed j := rfl
@[simp] theorem Chip.setSink_safe (c : Chip) (i : Nat) (v : Sink) (j : Nat) : (c.setSink i v).safe j = c.safe j := rfl
@[simp] theorem Chip.setSink_port (c : Chip) (i : Nat) (v : Sink) (j : Nat) : (c.setSink i v).port j = c.port j := rfl
@[simp] theorem Chip.setSink_timer (c : Chip) (i : Nat) (v : Sink) (j : Nat) : (c.setSink i v).timer j = c.timer j := rfl
@[simp] theorem Chip.setSink_seg (c : Chip) (i : Nat) (v : Sink) (j : Nat) : (c.setSink i v).seg j = c.seg j := rfl
@[simp] theorem Chip.setSink_can (c : Chip) (i : Nat) (v : Sink) (j : Nat) : (c.setSink i v).can j = c.can j := rfl
@[simp] theorem Chip.setSink_lin (c : Chip) (i : Nat) (v : Sink) (j : Nat) : (c.setSink i v).lin j = c.lin j := rfl
@[simp] theorem Chip.setSink_t1s (c : Chip) (i : Nat) (v : Sink) (j : Nat) : (c.setSink i v).t1s j = c.t1s j := rfl
@[simp] theorem Chip.setSink_bb (c : Chip) (i : Nat) (v : Sink) (j : Nat) : (c.setSink i v).bb j = c.bb j := rfl
@[simp] theorem Chip.setSink_ring (c : Chip) (i : Nat) (v : Sink) (pf : Nat) : (c.setSink i v).ring pf = c.ring pf := rfl
@[simp] theorem Chip.setSink_halt_mx (c : Chip) (i : Nat) (v : Sink) : (c.setSink i v).halt.mx = c.halt.mx := rfl
@[simp] theorem Chip.setSink_halt_ovCut (c : Chip) (i : Nat) (v : Sink) : (c.setSink i v).halt.ovCut = c.halt.ovCut := rfl
@[simp] theorem Chip.setSink_halt_curves (c : Chip) (i : Nat) (v : Sink) : (c.setSink i v).halt.curves = c.halt.curves := rfl
@[simp] theorem Chip.setSink_halt_encs (c : Chip) (i : Nat) (v : Sink) : (c.setSink i v).halt.encs = c.halt.encs := rfl
@[simp] theorem Chip.setSink_halt_encLv (c : Chip) (i : Nat) (v : Sink) : (c.setSink i v).halt.encLv = c.halt.encLv := rfl
@[simp] theorem Chip.setSink_halt_snaps (c : Chip) (i : Nat) (v : Sink) : (c.setSink i v).halt.snaps = c.halt.snaps := rfl
@[simp] theorem Chip.modSink_eq (c : Chip) (i : Nat) (f : Sink → Sink) : c.modSink i f = c.setSink i (f (c.sink i)) := rfl

-- Ntc

@[simp] theorem Chip.setNtc_now (c : Chip) (i : Nat) (v : Ntc) : (c.setNtc i v).now = c.now := rfl
@[simp] theorem Chip.setNtc_free (c : Chip) (i : Nat) (v : Ntc) : (c.setNtc i v).free = c.free := rfl
@[simp] theorem Chip.setNtc_sys (c : Chip) (i : Nat) (v : Ntc) : (c.setNtc i v).sys = c.sys := rfl
@[simp] theorem Chip.setNtc_mt (c : Chip) (i : Nat) (v : Ntc) : (c.setNtc i v).mt = c.mt := rfl
@[simp] theorem Chip.setNtc_ring0 (c : Chip) (i : Nat) (v : Ntc) : (c.setNtc i v).ring0 = c.ring0 := rfl
@[simp] theorem Chip.setNtc_ring1 (c : Chip) (i : Nat) (v : Ntc) : (c.setNtc i v).ring1 = c.ring1 := rfl
@[simp] theorem Chip.setNtc_arb (c : Chip) (i : Nat) (v : Ntc) : (c.setNtc i v).arb = c.arb := rfl
@[simp] theorem Chip.setNtc_jobs (c : Chip) (i : Nat) (v : Ntc) : (c.setNtc i v).jobs = c.jobs := rfl
@[simp] theorem Chip.setNtc_nextJob (c : Chip) (i : Nat) (v : Ntc) : (c.setNtc i v).nextJob = c.nextJob := rfl
@[simp] theorem Chip.setNtc_yards (c : Chip) (i : Nat) (v : Ntc) : (c.setNtc i v).yards = c.yards := rfl
@[simp] theorem Chip.setNtc_feeds (c : Chip) (i : Nat) (v : Ntc) : (c.setNtc i v).feeds = c.feeds := rfl
@[simp] theorem Chip.setNtc_budget (c : Chip) (i : Nat) (v : Ntc) : (c.setNtc i v).budget = c.budget := rfl
@[simp] theorem Chip.setNtc_safes (c : Chip) (i : Nat) (v : Ntc) : (c.setNtc i v).safes = c.safes := rfl
@[simp] theorem Chip.setNtc_img (c : Chip) (i : Nat) (v : Ntc) : (c.setNtc i v).img = c.img := rfl
@[simp] theorem Chip.setNtc_copy (c : Chip) (i : Nat) (v : Ntc) : (c.setNtc i v).copy = c.copy := rfl
@[simp] theorem Chip.setNtc_curves (c : Chip) (i : Nat) (v : Ntc) : (c.setNtc i v).curves = c.curves := rfl
@[simp] theorem Chip.setNtc_cross (c : Chip) (i : Nat) (v : Ntc) : (c.setNtc i v).cross = c.cross := rfl
@[simp] theorem Chip.setNtc_seqs (c : Chip) (i : Nat) (v : Ntc) : (c.setNtc i v).seqs = c.seqs := rfl
@[simp] theorem Chip.setNtc_ports (c : Chip) (i : Nat) (v : Ntc) : (c.setNtc i v).ports = c.ports := rfl
@[simp] theorem Chip.setNtc_latches (c : Chip) (i : Nat) (v : Ntc) : (c.setNtc i v).latches = c.latches := rfl
@[simp] theorem Chip.setNtc_timers (c : Chip) (i : Nat) (v : Ntc) : (c.setNtc i v).timers = c.timers := rfl
@[simp] theorem Chip.setNtc_gstart (c : Chip) (i : Nat) (v : Ntc) : (c.setNtc i v).gstart = c.gstart := rfl
@[simp] theorem Chip.setNtc_segs (c : Chip) (i : Nat) (v : Ntc) : (c.setNtc i v).segs = c.segs := rfl
@[simp] theorem Chip.setNtc_cans (c : Chip) (i : Nat) (v : Ntc) : (c.setNtc i v).cans = c.cans := rfl
@[simp] theorem Chip.setNtc_lins (c : Chip) (i : Nat) (v : Ntc) : (c.setNtc i v).lins = c.lins := rfl
@[simp] theorem Chip.setNtc_t1ss (c : Chip) (i : Nat) (v : Ntc) : (c.setNtc i v).t1ss = c.t1ss := rfl
@[simp] theorem Chip.setNtc_bbs (c : Chip) (i : Nat) (v : Ntc) : (c.setNtc i v).bbs = c.bbs := rfl
@[simp] theorem Chip.setNtc_hostPort (c : Chip) (i : Nat) (v : Ntc) : (c.setNtc i v).hostPort = c.hostPort := rfl
@[simp] theorem Chip.setNtc_net (c : Chip) (i : Nat) (v : Ntc) : (c.setNtc i v).net = c.net := rfl
@[simp] theorem Chip.setNtc_acc (c : Chip) (i : Nat) (v : Ntc) : (c.setNtc i v).acc = c.acc := rfl
@[simp] theorem Chip.setNtc_upd (c : Chip) (i : Nat) (v : Ntc) : (c.setNtc i v).upd = c.upd := rfl
@[simp] theorem Chip.setNtc_age (c : Chip) (i : Nat) (v : Ntc) : (c.setNtc i v).age = c.age := rfl
@[simp] theorem Chip.setNtc_out (c : Chip) (i : Nat) (v : Ntc) : (c.setNtc i v).out = c.out := rfl
@[simp] theorem Chip.setNtc_same (c : Chip) (i : Nat) (v : Ntc) (j : Nat) : (c.setNtc i v).ntc j = if i = j then v else c.ntc j := UMap.get_put _ _ _ _ _
@[simp] theorem Chip.setNtc_twice (c : Chip) (i : Nat) (v : Ntc) (w : Ntc) : (c.setNtc i v).setNtc i w = c.setNtc i w := by
  simp [Chip.setNtc]
@[simp] theorem Chip.setNtc_stall (c : Chip) (i : Nat) (v : Ntc) (j : Nat) : (c.setNtc i v).stall j = c.stall j := rfl
@[simp] theorem Chip.setNtc_row (c : Chip) (i : Nat) (v : Ntc) (j : Nat) : (c.setNtc i v).row j = c.row j := rfl
@[simp] theorem Chip.setNtc_valve (c : Chip) (i : Nat) (v : Ntc) (j : Nat) : (c.setNtc i v).valve j = c.valve j := rfl
@[simp] theorem Chip.setNtc_vg (c : Chip) (i : Nat) (v : Ntc) (j : Nat) : (c.setNtc i v).vg j = c.vg j := rfl
@[simp] theorem Chip.setNtc_loop (c : Chip) (i : Nat) (v : Ntc) (j : Nat) : (c.setNtc i v).loop j = c.loop j := rfl
@[simp] theorem Chip.setNtc_boost (c : Chip) (i : Nat) (v : Ntc) (j : Nat) : (c.setNtc i v).boost j = c.boost j := rfl
@[simp] theorem Chip.setNtc_sink (c : Chip) (i : Nat) (v : Ntc) (j : Nat) : (c.setNtc i v).sink j = c.sink j := rfl
@[simp] theorem Chip.setNtc_si (c : Chip) (i : Nat) (v : Ntc) (j : Nat) : (c.setNtc i v).si j = c.si j := rfl
@[simp] theorem Chip.setNtc_ain (c : Chip) (i : Nat) (v : Ntc) (j : Nat) : (c.setNtc i v).ain j = c.ain j := rfl
@[simp] theorem Chip.setNtc_dout (c : Chip) (i : Nat) (v : Ntc) (j : Nat) : (c.setNtc i v).dout j = c.dout j := rfl
@[simp] theorem Chip.setNtc_yard (c : Chip) (i : Nat) (v : Ntc) (j : Nat) : (c.setNtc i v).yard j = c.yard j := rfl
@[simp] theorem Chip.setNtc_feed (c : Chip) (i : Nat) (v : Ntc) (j : Nat) : (c.setNtc i v).feed j = c.feed j := rfl
@[simp] theorem Chip.setNtc_safe (c : Chip) (i : Nat) (v : Ntc) (j : Nat) : (c.setNtc i v).safe j = c.safe j := rfl
@[simp] theorem Chip.setNtc_port (c : Chip) (i : Nat) (v : Ntc) (j : Nat) : (c.setNtc i v).port j = c.port j := rfl
@[simp] theorem Chip.setNtc_timer (c : Chip) (i : Nat) (v : Ntc) (j : Nat) : (c.setNtc i v).timer j = c.timer j := rfl
@[simp] theorem Chip.setNtc_seg (c : Chip) (i : Nat) (v : Ntc) (j : Nat) : (c.setNtc i v).seg j = c.seg j := rfl
@[simp] theorem Chip.setNtc_can (c : Chip) (i : Nat) (v : Ntc) (j : Nat) : (c.setNtc i v).can j = c.can j := rfl
@[simp] theorem Chip.setNtc_lin (c : Chip) (i : Nat) (v : Ntc) (j : Nat) : (c.setNtc i v).lin j = c.lin j := rfl
@[simp] theorem Chip.setNtc_t1s (c : Chip) (i : Nat) (v : Ntc) (j : Nat) : (c.setNtc i v).t1s j = c.t1s j := rfl
@[simp] theorem Chip.setNtc_bb (c : Chip) (i : Nat) (v : Ntc) (j : Nat) : (c.setNtc i v).bb j = c.bb j := rfl
@[simp] theorem Chip.setNtc_ring (c : Chip) (i : Nat) (v : Ntc) (pf : Nat) : (c.setNtc i v).ring pf = c.ring pf := rfl
@[simp] theorem Chip.setNtc_halt_mx (c : Chip) (i : Nat) (v : Ntc) : (c.setNtc i v).halt.mx = c.halt.mx := rfl
@[simp] theorem Chip.setNtc_halt_ovCut (c : Chip) (i : Nat) (v : Ntc) : (c.setNtc i v).halt.ovCut = c.halt.ovCut := rfl
@[simp] theorem Chip.setNtc_halt_curves (c : Chip) (i : Nat) (v : Ntc) : (c.setNtc i v).halt.curves = c.halt.curves := rfl
@[simp] theorem Chip.setNtc_halt_encs (c : Chip) (i : Nat) (v : Ntc) : (c.setNtc i v).halt.encs = c.halt.encs := rfl
@[simp] theorem Chip.setNtc_halt_encLv (c : Chip) (i : Nat) (v : Ntc) : (c.setNtc i v).halt.encLv = c.halt.encLv := rfl
@[simp] theorem Chip.setNtc_halt_snaps (c : Chip) (i : Nat) (v : Ntc) : (c.setNtc i v).halt.snaps = c.halt.snaps := rfl
@[simp] theorem Chip.modNtc_eq (c : Chip) (i : Nat) (f : Ntc → Ntc) : c.modNtc i f = c.setNtc i (f (c.ntc i)) := rfl

-- Si

@[simp] theorem Chip.setSi_now (c : Chip) (i : Nat) (v : Si) : (c.setSi i v).now = c.now := rfl
@[simp] theorem Chip.setSi_free (c : Chip) (i : Nat) (v : Si) : (c.setSi i v).free = c.free := rfl
@[simp] theorem Chip.setSi_sys (c : Chip) (i : Nat) (v : Si) : (c.setSi i v).sys = c.sys := rfl
@[simp] theorem Chip.setSi_mt (c : Chip) (i : Nat) (v : Si) : (c.setSi i v).mt = c.mt := rfl
@[simp] theorem Chip.setSi_ring0 (c : Chip) (i : Nat) (v : Si) : (c.setSi i v).ring0 = c.ring0 := rfl
@[simp] theorem Chip.setSi_ring1 (c : Chip) (i : Nat) (v : Si) : (c.setSi i v).ring1 = c.ring1 := rfl
@[simp] theorem Chip.setSi_arb (c : Chip) (i : Nat) (v : Si) : (c.setSi i v).arb = c.arb := rfl
@[simp] theorem Chip.setSi_jobs (c : Chip) (i : Nat) (v : Si) : (c.setSi i v).jobs = c.jobs := rfl
@[simp] theorem Chip.setSi_nextJob (c : Chip) (i : Nat) (v : Si) : (c.setSi i v).nextJob = c.nextJob := rfl
@[simp] theorem Chip.setSi_yards (c : Chip) (i : Nat) (v : Si) : (c.setSi i v).yards = c.yards := rfl
@[simp] theorem Chip.setSi_feeds (c : Chip) (i : Nat) (v : Si) : (c.setSi i v).feeds = c.feeds := rfl
@[simp] theorem Chip.setSi_budget (c : Chip) (i : Nat) (v : Si) : (c.setSi i v).budget = c.budget := rfl
@[simp] theorem Chip.setSi_safes (c : Chip) (i : Nat) (v : Si) : (c.setSi i v).safes = c.safes := rfl
@[simp] theorem Chip.setSi_img (c : Chip) (i : Nat) (v : Si) : (c.setSi i v).img = c.img := rfl
@[simp] theorem Chip.setSi_copy (c : Chip) (i : Nat) (v : Si) : (c.setSi i v).copy = c.copy := rfl
@[simp] theorem Chip.setSi_curves (c : Chip) (i : Nat) (v : Si) : (c.setSi i v).curves = c.curves := rfl
@[simp] theorem Chip.setSi_cross (c : Chip) (i : Nat) (v : Si) : (c.setSi i v).cross = c.cross := rfl
@[simp] theorem Chip.setSi_seqs (c : Chip) (i : Nat) (v : Si) : (c.setSi i v).seqs = c.seqs := rfl
@[simp] theorem Chip.setSi_ports (c : Chip) (i : Nat) (v : Si) : (c.setSi i v).ports = c.ports := rfl
@[simp] theorem Chip.setSi_latches (c : Chip) (i : Nat) (v : Si) : (c.setSi i v).latches = c.latches := rfl
@[simp] theorem Chip.setSi_timers (c : Chip) (i : Nat) (v : Si) : (c.setSi i v).timers = c.timers := rfl
@[simp] theorem Chip.setSi_gstart (c : Chip) (i : Nat) (v : Si) : (c.setSi i v).gstart = c.gstart := rfl
@[simp] theorem Chip.setSi_segs (c : Chip) (i : Nat) (v : Si) : (c.setSi i v).segs = c.segs := rfl
@[simp] theorem Chip.setSi_cans (c : Chip) (i : Nat) (v : Si) : (c.setSi i v).cans = c.cans := rfl
@[simp] theorem Chip.setSi_lins (c : Chip) (i : Nat) (v : Si) : (c.setSi i v).lins = c.lins := rfl
@[simp] theorem Chip.setSi_t1ss (c : Chip) (i : Nat) (v : Si) : (c.setSi i v).t1ss = c.t1ss := rfl
@[simp] theorem Chip.setSi_bbs (c : Chip) (i : Nat) (v : Si) : (c.setSi i v).bbs = c.bbs := rfl
@[simp] theorem Chip.setSi_hostPort (c : Chip) (i : Nat) (v : Si) : (c.setSi i v).hostPort = c.hostPort := rfl
@[simp] theorem Chip.setSi_net (c : Chip) (i : Nat) (v : Si) : (c.setSi i v).net = c.net := rfl
@[simp] theorem Chip.setSi_acc (c : Chip) (i : Nat) (v : Si) : (c.setSi i v).acc = c.acc := rfl
@[simp] theorem Chip.setSi_upd (c : Chip) (i : Nat) (v : Si) : (c.setSi i v).upd = c.upd := rfl
@[simp] theorem Chip.setSi_age (c : Chip) (i : Nat) (v : Si) : (c.setSi i v).age = c.age := rfl
@[simp] theorem Chip.setSi_out (c : Chip) (i : Nat) (v : Si) : (c.setSi i v).out = c.out := rfl
@[simp] theorem Chip.setSi_same (c : Chip) (i : Nat) (v : Si) (j : Nat) : (c.setSi i v).si j = if i = j then v else c.si j := UMap.get_put _ _ _ _ _
@[simp] theorem Chip.setSi_twice (c : Chip) (i : Nat) (v : Si) (w : Si) : (c.setSi i v).setSi i w = c.setSi i w := by
  simp [Chip.setSi]
@[simp] theorem Chip.setSi_stall (c : Chip) (i : Nat) (v : Si) (j : Nat) : (c.setSi i v).stall j = c.stall j := rfl
@[simp] theorem Chip.setSi_row (c : Chip) (i : Nat) (v : Si) (j : Nat) : (c.setSi i v).row j = c.row j := rfl
@[simp] theorem Chip.setSi_valve (c : Chip) (i : Nat) (v : Si) (j : Nat) : (c.setSi i v).valve j = c.valve j := rfl
@[simp] theorem Chip.setSi_vg (c : Chip) (i : Nat) (v : Si) (j : Nat) : (c.setSi i v).vg j = c.vg j := rfl
@[simp] theorem Chip.setSi_loop (c : Chip) (i : Nat) (v : Si) (j : Nat) : (c.setSi i v).loop j = c.loop j := rfl
@[simp] theorem Chip.setSi_boost (c : Chip) (i : Nat) (v : Si) (j : Nat) : (c.setSi i v).boost j = c.boost j := rfl
@[simp] theorem Chip.setSi_sink (c : Chip) (i : Nat) (v : Si) (j : Nat) : (c.setSi i v).sink j = c.sink j := rfl
@[simp] theorem Chip.setSi_ntc (c : Chip) (i : Nat) (v : Si) (j : Nat) : (c.setSi i v).ntc j = c.ntc j := rfl
@[simp] theorem Chip.setSi_ain (c : Chip) (i : Nat) (v : Si) (j : Nat) : (c.setSi i v).ain j = c.ain j := rfl
@[simp] theorem Chip.setSi_dout (c : Chip) (i : Nat) (v : Si) (j : Nat) : (c.setSi i v).dout j = c.dout j := rfl
@[simp] theorem Chip.setSi_yard (c : Chip) (i : Nat) (v : Si) (j : Nat) : (c.setSi i v).yard j = c.yard j := rfl
@[simp] theorem Chip.setSi_feed (c : Chip) (i : Nat) (v : Si) (j : Nat) : (c.setSi i v).feed j = c.feed j := rfl
@[simp] theorem Chip.setSi_safe (c : Chip) (i : Nat) (v : Si) (j : Nat) : (c.setSi i v).safe j = c.safe j := rfl
@[simp] theorem Chip.setSi_port (c : Chip) (i : Nat) (v : Si) (j : Nat) : (c.setSi i v).port j = c.port j := rfl
@[simp] theorem Chip.setSi_timer (c : Chip) (i : Nat) (v : Si) (j : Nat) : (c.setSi i v).timer j = c.timer j := rfl
@[simp] theorem Chip.setSi_seg (c : Chip) (i : Nat) (v : Si) (j : Nat) : (c.setSi i v).seg j = c.seg j := rfl
@[simp] theorem Chip.setSi_can (c : Chip) (i : Nat) (v : Si) (j : Nat) : (c.setSi i v).can j = c.can j := rfl
@[simp] theorem Chip.setSi_lin (c : Chip) (i : Nat) (v : Si) (j : Nat) : (c.setSi i v).lin j = c.lin j := rfl
@[simp] theorem Chip.setSi_t1s (c : Chip) (i : Nat) (v : Si) (j : Nat) : (c.setSi i v).t1s j = c.t1s j := rfl
@[simp] theorem Chip.setSi_bb (c : Chip) (i : Nat) (v : Si) (j : Nat) : (c.setSi i v).bb j = c.bb j := rfl
@[simp] theorem Chip.setSi_ring (c : Chip) (i : Nat) (v : Si) (pf : Nat) : (c.setSi i v).ring pf = c.ring pf := rfl
@[simp] theorem Chip.setSi_halt_mx (c : Chip) (i : Nat) (v : Si) : (c.setSi i v).halt.mx = c.halt.mx := rfl
@[simp] theorem Chip.setSi_halt_ovCut (c : Chip) (i : Nat) (v : Si) : (c.setSi i v).halt.ovCut = c.halt.ovCut := rfl
@[simp] theorem Chip.setSi_halt_curves (c : Chip) (i : Nat) (v : Si) : (c.setSi i v).halt.curves = c.halt.curves := rfl
@[simp] theorem Chip.setSi_halt_encs (c : Chip) (i : Nat) (v : Si) : (c.setSi i v).halt.encs = c.halt.encs := rfl
@[simp] theorem Chip.setSi_halt_encLv (c : Chip) (i : Nat) (v : Si) : (c.setSi i v).halt.encLv = c.halt.encLv := rfl
@[simp] theorem Chip.setSi_halt_snaps (c : Chip) (i : Nat) (v : Si) : (c.setSi i v).halt.snaps = c.halt.snaps := rfl
@[simp] theorem Chip.modSi_eq (c : Chip) (i : Nat) (f : Si → Si) : c.modSi i f = c.setSi i (f (c.si i)) := rfl

-- Ain

@[simp] theorem Chip.setAin_now (c : Chip) (i : Nat) (v : Ain) : (c.setAin i v).now = c.now := rfl
@[simp] theorem Chip.setAin_free (c : Chip) (i : Nat) (v : Ain) : (c.setAin i v).free = c.free := rfl
@[simp] theorem Chip.setAin_sys (c : Chip) (i : Nat) (v : Ain) : (c.setAin i v).sys = c.sys := rfl
@[simp] theorem Chip.setAin_mt (c : Chip) (i : Nat) (v : Ain) : (c.setAin i v).mt = c.mt := rfl
@[simp] theorem Chip.setAin_ring0 (c : Chip) (i : Nat) (v : Ain) : (c.setAin i v).ring0 = c.ring0 := rfl
@[simp] theorem Chip.setAin_ring1 (c : Chip) (i : Nat) (v : Ain) : (c.setAin i v).ring1 = c.ring1 := rfl
@[simp] theorem Chip.setAin_arb (c : Chip) (i : Nat) (v : Ain) : (c.setAin i v).arb = c.arb := rfl
@[simp] theorem Chip.setAin_jobs (c : Chip) (i : Nat) (v : Ain) : (c.setAin i v).jobs = c.jobs := rfl
@[simp] theorem Chip.setAin_nextJob (c : Chip) (i : Nat) (v : Ain) : (c.setAin i v).nextJob = c.nextJob := rfl
@[simp] theorem Chip.setAin_yards (c : Chip) (i : Nat) (v : Ain) : (c.setAin i v).yards = c.yards := rfl
@[simp] theorem Chip.setAin_feeds (c : Chip) (i : Nat) (v : Ain) : (c.setAin i v).feeds = c.feeds := rfl
@[simp] theorem Chip.setAin_budget (c : Chip) (i : Nat) (v : Ain) : (c.setAin i v).budget = c.budget := rfl
@[simp] theorem Chip.setAin_safes (c : Chip) (i : Nat) (v : Ain) : (c.setAin i v).safes = c.safes := rfl
@[simp] theorem Chip.setAin_img (c : Chip) (i : Nat) (v : Ain) : (c.setAin i v).img = c.img := rfl
@[simp] theorem Chip.setAin_copy (c : Chip) (i : Nat) (v : Ain) : (c.setAin i v).copy = c.copy := rfl
@[simp] theorem Chip.setAin_curves (c : Chip) (i : Nat) (v : Ain) : (c.setAin i v).curves = c.curves := rfl
@[simp] theorem Chip.setAin_cross (c : Chip) (i : Nat) (v : Ain) : (c.setAin i v).cross = c.cross := rfl
@[simp] theorem Chip.setAin_seqs (c : Chip) (i : Nat) (v : Ain) : (c.setAin i v).seqs = c.seqs := rfl
@[simp] theorem Chip.setAin_ports (c : Chip) (i : Nat) (v : Ain) : (c.setAin i v).ports = c.ports := rfl
@[simp] theorem Chip.setAin_latches (c : Chip) (i : Nat) (v : Ain) : (c.setAin i v).latches = c.latches := rfl
@[simp] theorem Chip.setAin_timers (c : Chip) (i : Nat) (v : Ain) : (c.setAin i v).timers = c.timers := rfl
@[simp] theorem Chip.setAin_gstart (c : Chip) (i : Nat) (v : Ain) : (c.setAin i v).gstart = c.gstart := rfl
@[simp] theorem Chip.setAin_segs (c : Chip) (i : Nat) (v : Ain) : (c.setAin i v).segs = c.segs := rfl
@[simp] theorem Chip.setAin_cans (c : Chip) (i : Nat) (v : Ain) : (c.setAin i v).cans = c.cans := rfl
@[simp] theorem Chip.setAin_lins (c : Chip) (i : Nat) (v : Ain) : (c.setAin i v).lins = c.lins := rfl
@[simp] theorem Chip.setAin_t1ss (c : Chip) (i : Nat) (v : Ain) : (c.setAin i v).t1ss = c.t1ss := rfl
@[simp] theorem Chip.setAin_bbs (c : Chip) (i : Nat) (v : Ain) : (c.setAin i v).bbs = c.bbs := rfl
@[simp] theorem Chip.setAin_hostPort (c : Chip) (i : Nat) (v : Ain) : (c.setAin i v).hostPort = c.hostPort := rfl
@[simp] theorem Chip.setAin_net (c : Chip) (i : Nat) (v : Ain) : (c.setAin i v).net = c.net := rfl
@[simp] theorem Chip.setAin_acc (c : Chip) (i : Nat) (v : Ain) : (c.setAin i v).acc = c.acc := rfl
@[simp] theorem Chip.setAin_upd (c : Chip) (i : Nat) (v : Ain) : (c.setAin i v).upd = c.upd := rfl
@[simp] theorem Chip.setAin_age (c : Chip) (i : Nat) (v : Ain) : (c.setAin i v).age = c.age := rfl
@[simp] theorem Chip.setAin_out (c : Chip) (i : Nat) (v : Ain) : (c.setAin i v).out = c.out := rfl
@[simp] theorem Chip.setAin_same (c : Chip) (i : Nat) (v : Ain) (j : Nat) : (c.setAin i v).ain j = if i = j then v else c.ain j := UMap.get_put _ _ _ _ _
@[simp] theorem Chip.setAin_twice (c : Chip) (i : Nat) (v : Ain) (w : Ain) : (c.setAin i v).setAin i w = c.setAin i w := by
  simp [Chip.setAin]
@[simp] theorem Chip.setAin_stall (c : Chip) (i : Nat) (v : Ain) (j : Nat) : (c.setAin i v).stall j = c.stall j := rfl
@[simp] theorem Chip.setAin_row (c : Chip) (i : Nat) (v : Ain) (j : Nat) : (c.setAin i v).row j = c.row j := rfl
@[simp] theorem Chip.setAin_valve (c : Chip) (i : Nat) (v : Ain) (j : Nat) : (c.setAin i v).valve j = c.valve j := rfl
@[simp] theorem Chip.setAin_vg (c : Chip) (i : Nat) (v : Ain) (j : Nat) : (c.setAin i v).vg j = c.vg j := rfl
@[simp] theorem Chip.setAin_loop (c : Chip) (i : Nat) (v : Ain) (j : Nat) : (c.setAin i v).loop j = c.loop j := rfl
@[simp] theorem Chip.setAin_boost (c : Chip) (i : Nat) (v : Ain) (j : Nat) : (c.setAin i v).boost j = c.boost j := rfl
@[simp] theorem Chip.setAin_sink (c : Chip) (i : Nat) (v : Ain) (j : Nat) : (c.setAin i v).sink j = c.sink j := rfl
@[simp] theorem Chip.setAin_ntc (c : Chip) (i : Nat) (v : Ain) (j : Nat) : (c.setAin i v).ntc j = c.ntc j := rfl
@[simp] theorem Chip.setAin_si (c : Chip) (i : Nat) (v : Ain) (j : Nat) : (c.setAin i v).si j = c.si j := rfl
@[simp] theorem Chip.setAin_dout (c : Chip) (i : Nat) (v : Ain) (j : Nat) : (c.setAin i v).dout j = c.dout j := rfl
@[simp] theorem Chip.setAin_yard (c : Chip) (i : Nat) (v : Ain) (j : Nat) : (c.setAin i v).yard j = c.yard j := rfl
@[simp] theorem Chip.setAin_feed (c : Chip) (i : Nat) (v : Ain) (j : Nat) : (c.setAin i v).feed j = c.feed j := rfl
@[simp] theorem Chip.setAin_safe (c : Chip) (i : Nat) (v : Ain) (j : Nat) : (c.setAin i v).safe j = c.safe j := rfl
@[simp] theorem Chip.setAin_port (c : Chip) (i : Nat) (v : Ain) (j : Nat) : (c.setAin i v).port j = c.port j := rfl
@[simp] theorem Chip.setAin_timer (c : Chip) (i : Nat) (v : Ain) (j : Nat) : (c.setAin i v).timer j = c.timer j := rfl
@[simp] theorem Chip.setAin_seg (c : Chip) (i : Nat) (v : Ain) (j : Nat) : (c.setAin i v).seg j = c.seg j := rfl
@[simp] theorem Chip.setAin_can (c : Chip) (i : Nat) (v : Ain) (j : Nat) : (c.setAin i v).can j = c.can j := rfl
@[simp] theorem Chip.setAin_lin (c : Chip) (i : Nat) (v : Ain) (j : Nat) : (c.setAin i v).lin j = c.lin j := rfl
@[simp] theorem Chip.setAin_t1s (c : Chip) (i : Nat) (v : Ain) (j : Nat) : (c.setAin i v).t1s j = c.t1s j := rfl
@[simp] theorem Chip.setAin_bb (c : Chip) (i : Nat) (v : Ain) (j : Nat) : (c.setAin i v).bb j = c.bb j := rfl
@[simp] theorem Chip.setAin_ring (c : Chip) (i : Nat) (v : Ain) (pf : Nat) : (c.setAin i v).ring pf = c.ring pf := rfl
@[simp] theorem Chip.setAin_halt_mx (c : Chip) (i : Nat) (v : Ain) : (c.setAin i v).halt.mx = c.halt.mx := rfl
@[simp] theorem Chip.setAin_halt_ovCut (c : Chip) (i : Nat) (v : Ain) : (c.setAin i v).halt.ovCut = c.halt.ovCut := rfl
@[simp] theorem Chip.setAin_halt_curves (c : Chip) (i : Nat) (v : Ain) : (c.setAin i v).halt.curves = c.halt.curves := rfl
@[simp] theorem Chip.setAin_halt_encs (c : Chip) (i : Nat) (v : Ain) : (c.setAin i v).halt.encs = c.halt.encs := rfl
@[simp] theorem Chip.setAin_halt_encLv (c : Chip) (i : Nat) (v : Ain) : (c.setAin i v).halt.encLv = c.halt.encLv := rfl
@[simp] theorem Chip.setAin_halt_snaps (c : Chip) (i : Nat) (v : Ain) : (c.setAin i v).halt.snaps = c.halt.snaps := rfl
@[simp] theorem Chip.modAin_eq (c : Chip) (i : Nat) (f : Ain → Ain) : c.modAin i f = c.setAin i (f (c.ain i)) := rfl

-- Dout

@[simp] theorem Chip.setDout_now (c : Chip) (i : Nat) (v : DOut) : (c.setDout i v).now = c.now := rfl
@[simp] theorem Chip.setDout_free (c : Chip) (i : Nat) (v : DOut) : (c.setDout i v).free = c.free := rfl
@[simp] theorem Chip.setDout_sys (c : Chip) (i : Nat) (v : DOut) : (c.setDout i v).sys = c.sys := rfl
@[simp] theorem Chip.setDout_mt (c : Chip) (i : Nat) (v : DOut) : (c.setDout i v).mt = c.mt := rfl
@[simp] theorem Chip.setDout_ring0 (c : Chip) (i : Nat) (v : DOut) : (c.setDout i v).ring0 = c.ring0 := rfl
@[simp] theorem Chip.setDout_ring1 (c : Chip) (i : Nat) (v : DOut) : (c.setDout i v).ring1 = c.ring1 := rfl
@[simp] theorem Chip.setDout_arb (c : Chip) (i : Nat) (v : DOut) : (c.setDout i v).arb = c.arb := rfl
@[simp] theorem Chip.setDout_jobs (c : Chip) (i : Nat) (v : DOut) : (c.setDout i v).jobs = c.jobs := rfl
@[simp] theorem Chip.setDout_nextJob (c : Chip) (i : Nat) (v : DOut) : (c.setDout i v).nextJob = c.nextJob := rfl
@[simp] theorem Chip.setDout_yards (c : Chip) (i : Nat) (v : DOut) : (c.setDout i v).yards = c.yards := rfl
@[simp] theorem Chip.setDout_feeds (c : Chip) (i : Nat) (v : DOut) : (c.setDout i v).feeds = c.feeds := rfl
@[simp] theorem Chip.setDout_budget (c : Chip) (i : Nat) (v : DOut) : (c.setDout i v).budget = c.budget := rfl
@[simp] theorem Chip.setDout_safes (c : Chip) (i : Nat) (v : DOut) : (c.setDout i v).safes = c.safes := rfl
@[simp] theorem Chip.setDout_img (c : Chip) (i : Nat) (v : DOut) : (c.setDout i v).img = c.img := rfl
@[simp] theorem Chip.setDout_copy (c : Chip) (i : Nat) (v : DOut) : (c.setDout i v).copy = c.copy := rfl
@[simp] theorem Chip.setDout_curves (c : Chip) (i : Nat) (v : DOut) : (c.setDout i v).curves = c.curves := rfl
@[simp] theorem Chip.setDout_cross (c : Chip) (i : Nat) (v : DOut) : (c.setDout i v).cross = c.cross := rfl
@[simp] theorem Chip.setDout_seqs (c : Chip) (i : Nat) (v : DOut) : (c.setDout i v).seqs = c.seqs := rfl
@[simp] theorem Chip.setDout_ports (c : Chip) (i : Nat) (v : DOut) : (c.setDout i v).ports = c.ports := rfl
@[simp] theorem Chip.setDout_latches (c : Chip) (i : Nat) (v : DOut) : (c.setDout i v).latches = c.latches := rfl
@[simp] theorem Chip.setDout_timers (c : Chip) (i : Nat) (v : DOut) : (c.setDout i v).timers = c.timers := rfl
@[simp] theorem Chip.setDout_gstart (c : Chip) (i : Nat) (v : DOut) : (c.setDout i v).gstart = c.gstart := rfl
@[simp] theorem Chip.setDout_segs (c : Chip) (i : Nat) (v : DOut) : (c.setDout i v).segs = c.segs := rfl
@[simp] theorem Chip.setDout_cans (c : Chip) (i : Nat) (v : DOut) : (c.setDout i v).cans = c.cans := rfl
@[simp] theorem Chip.setDout_lins (c : Chip) (i : Nat) (v : DOut) : (c.setDout i v).lins = c.lins := rfl
@[simp] theorem Chip.setDout_t1ss (c : Chip) (i : Nat) (v : DOut) : (c.setDout i v).t1ss = c.t1ss := rfl
@[simp] theorem Chip.setDout_bbs (c : Chip) (i : Nat) (v : DOut) : (c.setDout i v).bbs = c.bbs := rfl
@[simp] theorem Chip.setDout_hostPort (c : Chip) (i : Nat) (v : DOut) : (c.setDout i v).hostPort = c.hostPort := rfl
@[simp] theorem Chip.setDout_net (c : Chip) (i : Nat) (v : DOut) : (c.setDout i v).net = c.net := rfl
@[simp] theorem Chip.setDout_acc (c : Chip) (i : Nat) (v : DOut) : (c.setDout i v).acc = c.acc := rfl
@[simp] theorem Chip.setDout_upd (c : Chip) (i : Nat) (v : DOut) : (c.setDout i v).upd = c.upd := rfl
@[simp] theorem Chip.setDout_age (c : Chip) (i : Nat) (v : DOut) : (c.setDout i v).age = c.age := rfl
@[simp] theorem Chip.setDout_out (c : Chip) (i : Nat) (v : DOut) : (c.setDout i v).out = c.out := rfl
@[simp] theorem Chip.setDout_same (c : Chip) (i : Nat) (v : DOut) (j : Nat) : (c.setDout i v).dout j = if i = j then v else c.dout j := UMap.get_put _ _ _ _ _
@[simp] theorem Chip.setDout_twice (c : Chip) (i : Nat) (v : DOut) (w : DOut) : (c.setDout i v).setDout i w = c.setDout i w := by
  simp [Chip.setDout]
@[simp] theorem Chip.setDout_stall (c : Chip) (i : Nat) (v : DOut) (j : Nat) : (c.setDout i v).stall j = c.stall j := rfl
@[simp] theorem Chip.setDout_row (c : Chip) (i : Nat) (v : DOut) (j : Nat) : (c.setDout i v).row j = c.row j := rfl
@[simp] theorem Chip.setDout_valve (c : Chip) (i : Nat) (v : DOut) (j : Nat) : (c.setDout i v).valve j = c.valve j := rfl
@[simp] theorem Chip.setDout_vg (c : Chip) (i : Nat) (v : DOut) (j : Nat) : (c.setDout i v).vg j = c.vg j := rfl
@[simp] theorem Chip.setDout_loop (c : Chip) (i : Nat) (v : DOut) (j : Nat) : (c.setDout i v).loop j = c.loop j := rfl
@[simp] theorem Chip.setDout_boost (c : Chip) (i : Nat) (v : DOut) (j : Nat) : (c.setDout i v).boost j = c.boost j := rfl
@[simp] theorem Chip.setDout_sink (c : Chip) (i : Nat) (v : DOut) (j : Nat) : (c.setDout i v).sink j = c.sink j := rfl
@[simp] theorem Chip.setDout_ntc (c : Chip) (i : Nat) (v : DOut) (j : Nat) : (c.setDout i v).ntc j = c.ntc j := rfl
@[simp] theorem Chip.setDout_si (c : Chip) (i : Nat) (v : DOut) (j : Nat) : (c.setDout i v).si j = c.si j := rfl
@[simp] theorem Chip.setDout_ain (c : Chip) (i : Nat) (v : DOut) (j : Nat) : (c.setDout i v).ain j = c.ain j := rfl
@[simp] theorem Chip.setDout_yard (c : Chip) (i : Nat) (v : DOut) (j : Nat) : (c.setDout i v).yard j = c.yard j := rfl
@[simp] theorem Chip.setDout_feed (c : Chip) (i : Nat) (v : DOut) (j : Nat) : (c.setDout i v).feed j = c.feed j := rfl
@[simp] theorem Chip.setDout_safe (c : Chip) (i : Nat) (v : DOut) (j : Nat) : (c.setDout i v).safe j = c.safe j := rfl
@[simp] theorem Chip.setDout_port (c : Chip) (i : Nat) (v : DOut) (j : Nat) : (c.setDout i v).port j = c.port j := rfl
@[simp] theorem Chip.setDout_timer (c : Chip) (i : Nat) (v : DOut) (j : Nat) : (c.setDout i v).timer j = c.timer j := rfl
@[simp] theorem Chip.setDout_seg (c : Chip) (i : Nat) (v : DOut) (j : Nat) : (c.setDout i v).seg j = c.seg j := rfl
@[simp] theorem Chip.setDout_can (c : Chip) (i : Nat) (v : DOut) (j : Nat) : (c.setDout i v).can j = c.can j := rfl
@[simp] theorem Chip.setDout_lin (c : Chip) (i : Nat) (v : DOut) (j : Nat) : (c.setDout i v).lin j = c.lin j := rfl
@[simp] theorem Chip.setDout_t1s (c : Chip) (i : Nat) (v : DOut) (j : Nat) : (c.setDout i v).t1s j = c.t1s j := rfl
@[simp] theorem Chip.setDout_bb (c : Chip) (i : Nat) (v : DOut) (j : Nat) : (c.setDout i v).bb j = c.bb j := rfl
@[simp] theorem Chip.setDout_ring (c : Chip) (i : Nat) (v : DOut) (pf : Nat) : (c.setDout i v).ring pf = c.ring pf := rfl
@[simp] theorem Chip.setDout_halt_mx (c : Chip) (i : Nat) (v : DOut) : (c.setDout i v).halt.mx = c.halt.mx := rfl
@[simp] theorem Chip.setDout_halt_ovCut (c : Chip) (i : Nat) (v : DOut) : (c.setDout i v).halt.ovCut = c.halt.ovCut := rfl
@[simp] theorem Chip.setDout_halt_curves (c : Chip) (i : Nat) (v : DOut) : (c.setDout i v).halt.curves = c.halt.curves := rfl
@[simp] theorem Chip.setDout_halt_encs (c : Chip) (i : Nat) (v : DOut) : (c.setDout i v).halt.encs = c.halt.encs := rfl
@[simp] theorem Chip.setDout_halt_encLv (c : Chip) (i : Nat) (v : DOut) : (c.setDout i v).halt.encLv = c.halt.encLv := rfl
@[simp] theorem Chip.setDout_halt_snaps (c : Chip) (i : Nat) (v : DOut) : (c.setDout i v).halt.snaps = c.halt.snaps := rfl
@[simp] theorem Chip.modDout_eq (c : Chip) (i : Nat) (f : DOut → DOut) : c.modDout i f = c.setDout i (f (c.dout i)) := rfl

-- Yard

@[simp] theorem Chip.setYard_now (c : Chip) (i : Nat) (v : Yard) : (c.setYard i v).now = c.now := rfl
@[simp] theorem Chip.setYard_free (c : Chip) (i : Nat) (v : Yard) : (c.setYard i v).free = c.free := rfl
@[simp] theorem Chip.setYard_sys (c : Chip) (i : Nat) (v : Yard) : (c.setYard i v).sys = c.sys := rfl
@[simp] theorem Chip.setYard_mt (c : Chip) (i : Nat) (v : Yard) : (c.setYard i v).mt = c.mt := rfl
@[simp] theorem Chip.setYard_ring0 (c : Chip) (i : Nat) (v : Yard) : (c.setYard i v).ring0 = c.ring0 := rfl
@[simp] theorem Chip.setYard_ring1 (c : Chip) (i : Nat) (v : Yard) : (c.setYard i v).ring1 = c.ring1 := rfl
@[simp] theorem Chip.setYard_arb (c : Chip) (i : Nat) (v : Yard) : (c.setYard i v).arb = c.arb := rfl
@[simp] theorem Chip.setYard_jobs (c : Chip) (i : Nat) (v : Yard) : (c.setYard i v).jobs = c.jobs := rfl
@[simp] theorem Chip.setYard_nextJob (c : Chip) (i : Nat) (v : Yard) : (c.setYard i v).nextJob = c.nextJob := rfl
@[simp] theorem Chip.setYard_feeds (c : Chip) (i : Nat) (v : Yard) : (c.setYard i v).feeds = c.feeds := rfl
@[simp] theorem Chip.setYard_budget (c : Chip) (i : Nat) (v : Yard) : (c.setYard i v).budget = c.budget := rfl
@[simp] theorem Chip.setYard_safes (c : Chip) (i : Nat) (v : Yard) : (c.setYard i v).safes = c.safes := rfl
@[simp] theorem Chip.setYard_halt (c : Chip) (i : Nat) (v : Yard) : (c.setYard i v).halt = c.halt := rfl
@[simp] theorem Chip.setYard_img (c : Chip) (i : Nat) (v : Yard) : (c.setYard i v).img = c.img := rfl
@[simp] theorem Chip.setYard_copy (c : Chip) (i : Nat) (v : Yard) : (c.setYard i v).copy = c.copy := rfl
@[simp] theorem Chip.setYard_curves (c : Chip) (i : Nat) (v : Yard) : (c.setYard i v).curves = c.curves := rfl
@[simp] theorem Chip.setYard_cross (c : Chip) (i : Nat) (v : Yard) : (c.setYard i v).cross = c.cross := rfl
@[simp] theorem Chip.setYard_seqs (c : Chip) (i : Nat) (v : Yard) : (c.setYard i v).seqs = c.seqs := rfl
@[simp] theorem Chip.setYard_ports (c : Chip) (i : Nat) (v : Yard) : (c.setYard i v).ports = c.ports := rfl
@[simp] theorem Chip.setYard_latches (c : Chip) (i : Nat) (v : Yard) : (c.setYard i v).latches = c.latches := rfl
@[simp] theorem Chip.setYard_timers (c : Chip) (i : Nat) (v : Yard) : (c.setYard i v).timers = c.timers := rfl
@[simp] theorem Chip.setYard_gstart (c : Chip) (i : Nat) (v : Yard) : (c.setYard i v).gstart = c.gstart := rfl
@[simp] theorem Chip.setYard_segs (c : Chip) (i : Nat) (v : Yard) : (c.setYard i v).segs = c.segs := rfl
@[simp] theorem Chip.setYard_cans (c : Chip) (i : Nat) (v : Yard) : (c.setYard i v).cans = c.cans := rfl
@[simp] theorem Chip.setYard_lins (c : Chip) (i : Nat) (v : Yard) : (c.setYard i v).lins = c.lins := rfl
@[simp] theorem Chip.setYard_t1ss (c : Chip) (i : Nat) (v : Yard) : (c.setYard i v).t1ss = c.t1ss := rfl
@[simp] theorem Chip.setYard_bbs (c : Chip) (i : Nat) (v : Yard) : (c.setYard i v).bbs = c.bbs := rfl
@[simp] theorem Chip.setYard_hostPort (c : Chip) (i : Nat) (v : Yard) : (c.setYard i v).hostPort = c.hostPort := rfl
@[simp] theorem Chip.setYard_net (c : Chip) (i : Nat) (v : Yard) : (c.setYard i v).net = c.net := rfl
@[simp] theorem Chip.setYard_acc (c : Chip) (i : Nat) (v : Yard) : (c.setYard i v).acc = c.acc := rfl
@[simp] theorem Chip.setYard_upd (c : Chip) (i : Nat) (v : Yard) : (c.setYard i v).upd = c.upd := rfl
@[simp] theorem Chip.setYard_age (c : Chip) (i : Nat) (v : Yard) : (c.setYard i v).age = c.age := rfl
@[simp] theorem Chip.setYard_out (c : Chip) (i : Nat) (v : Yard) : (c.setYard i v).out = c.out := rfl
@[simp] theorem Chip.setYard_same (c : Chip) (i : Nat) (v : Yard) (j : Nat) : (c.setYard i v).yard j = if i = j then v else c.yard j := UMap.get_put _ _ _ _ _
@[simp] theorem Chip.setYard_twice (c : Chip) (i : Nat) (v : Yard) (w : Yard) : (c.setYard i v).setYard i w = c.setYard i w := by
  simp [Chip.setYard]
@[simp] theorem Chip.setYard_stall (c : Chip) (i : Nat) (v : Yard) (j : Nat) : (c.setYard i v).stall j = c.stall j := rfl
@[simp] theorem Chip.setYard_row (c : Chip) (i : Nat) (v : Yard) (j : Nat) : (c.setYard i v).row j = c.row j := rfl
@[simp] theorem Chip.setYard_valve (c : Chip) (i : Nat) (v : Yard) (j : Nat) : (c.setYard i v).valve j = c.valve j := rfl
@[simp] theorem Chip.setYard_vg (c : Chip) (i : Nat) (v : Yard) (j : Nat) : (c.setYard i v).vg j = c.vg j := rfl
@[simp] theorem Chip.setYard_loop (c : Chip) (i : Nat) (v : Yard) (j : Nat) : (c.setYard i v).loop j = c.loop j := rfl
@[simp] theorem Chip.setYard_boost (c : Chip) (i : Nat) (v : Yard) (j : Nat) : (c.setYard i v).boost j = c.boost j := rfl
@[simp] theorem Chip.setYard_sink (c : Chip) (i : Nat) (v : Yard) (j : Nat) : (c.setYard i v).sink j = c.sink j := rfl
@[simp] theorem Chip.setYard_ntc (c : Chip) (i : Nat) (v : Yard) (j : Nat) : (c.setYard i v).ntc j = c.ntc j := rfl
@[simp] theorem Chip.setYard_si (c : Chip) (i : Nat) (v : Yard) (j : Nat) : (c.setYard i v).si j = c.si j := rfl
@[simp] theorem Chip.setYard_ain (c : Chip) (i : Nat) (v : Yard) (j : Nat) : (c.setYard i v).ain j = c.ain j := rfl
@[simp] theorem Chip.setYard_dout (c : Chip) (i : Nat) (v : Yard) (j : Nat) : (c.setYard i v).dout j = c.dout j := rfl
@[simp] theorem Chip.setYard_feed (c : Chip) (i : Nat) (v : Yard) (j : Nat) : (c.setYard i v).feed j = c.feed j := rfl
@[simp] theorem Chip.setYard_safe (c : Chip) (i : Nat) (v : Yard) (j : Nat) : (c.setYard i v).safe j = c.safe j := rfl
@[simp] theorem Chip.setYard_port (c : Chip) (i : Nat) (v : Yard) (j : Nat) : (c.setYard i v).port j = c.port j := rfl
@[simp] theorem Chip.setYard_timer (c : Chip) (i : Nat) (v : Yard) (j : Nat) : (c.setYard i v).timer j = c.timer j := rfl
@[simp] theorem Chip.setYard_seg (c : Chip) (i : Nat) (v : Yard) (j : Nat) : (c.setYard i v).seg j = c.seg j := rfl
@[simp] theorem Chip.setYard_can (c : Chip) (i : Nat) (v : Yard) (j : Nat) : (c.setYard i v).can j = c.can j := rfl
@[simp] theorem Chip.setYard_lin (c : Chip) (i : Nat) (v : Yard) (j : Nat) : (c.setYard i v).lin j = c.lin j := rfl
@[simp] theorem Chip.setYard_t1s (c : Chip) (i : Nat) (v : Yard) (j : Nat) : (c.setYard i v).t1s j = c.t1s j := rfl
@[simp] theorem Chip.setYard_bb (c : Chip) (i : Nat) (v : Yard) (j : Nat) : (c.setYard i v).bb j = c.bb j := rfl
@[simp] theorem Chip.setYard_ring (c : Chip) (i : Nat) (v : Yard) (pf : Nat) : (c.setYard i v).ring pf = c.ring pf := rfl
@[simp] theorem Chip.modYard_eq (c : Chip) (i : Nat) (f : Yard → Yard) : c.modYard i f = c.setYard i (f (c.yard i)) := rfl

-- Feed

@[simp] theorem Chip.setFeed_now (c : Chip) (i : Nat) (v : Feed) : (c.setFeed i v).now = c.now := rfl
@[simp] theorem Chip.setFeed_free (c : Chip) (i : Nat) (v : Feed) : (c.setFeed i v).free = c.free := rfl
@[simp] theorem Chip.setFeed_sys (c : Chip) (i : Nat) (v : Feed) : (c.setFeed i v).sys = c.sys := rfl
@[simp] theorem Chip.setFeed_mt (c : Chip) (i : Nat) (v : Feed) : (c.setFeed i v).mt = c.mt := rfl
@[simp] theorem Chip.setFeed_ring0 (c : Chip) (i : Nat) (v : Feed) : (c.setFeed i v).ring0 = c.ring0 := rfl
@[simp] theorem Chip.setFeed_ring1 (c : Chip) (i : Nat) (v : Feed) : (c.setFeed i v).ring1 = c.ring1 := rfl
@[simp] theorem Chip.setFeed_arb (c : Chip) (i : Nat) (v : Feed) : (c.setFeed i v).arb = c.arb := rfl
@[simp] theorem Chip.setFeed_jobs (c : Chip) (i : Nat) (v : Feed) : (c.setFeed i v).jobs = c.jobs := rfl
@[simp] theorem Chip.setFeed_nextJob (c : Chip) (i : Nat) (v : Feed) : (c.setFeed i v).nextJob = c.nextJob := rfl
@[simp] theorem Chip.setFeed_yards (c : Chip) (i : Nat) (v : Feed) : (c.setFeed i v).yards = c.yards := rfl
@[simp] theorem Chip.setFeed_budget (c : Chip) (i : Nat) (v : Feed) : (c.setFeed i v).budget = c.budget := rfl
@[simp] theorem Chip.setFeed_safes (c : Chip) (i : Nat) (v : Feed) : (c.setFeed i v).safes = c.safes := rfl
@[simp] theorem Chip.setFeed_halt (c : Chip) (i : Nat) (v : Feed) : (c.setFeed i v).halt = c.halt := rfl
@[simp] theorem Chip.setFeed_img (c : Chip) (i : Nat) (v : Feed) : (c.setFeed i v).img = c.img := rfl
@[simp] theorem Chip.setFeed_copy (c : Chip) (i : Nat) (v : Feed) : (c.setFeed i v).copy = c.copy := rfl
@[simp] theorem Chip.setFeed_curves (c : Chip) (i : Nat) (v : Feed) : (c.setFeed i v).curves = c.curves := rfl
@[simp] theorem Chip.setFeed_cross (c : Chip) (i : Nat) (v : Feed) : (c.setFeed i v).cross = c.cross := rfl
@[simp] theorem Chip.setFeed_seqs (c : Chip) (i : Nat) (v : Feed) : (c.setFeed i v).seqs = c.seqs := rfl
@[simp] theorem Chip.setFeed_ports (c : Chip) (i : Nat) (v : Feed) : (c.setFeed i v).ports = c.ports := rfl
@[simp] theorem Chip.setFeed_latches (c : Chip) (i : Nat) (v : Feed) : (c.setFeed i v).latches = c.latches := rfl
@[simp] theorem Chip.setFeed_timers (c : Chip) (i : Nat) (v : Feed) : (c.setFeed i v).timers = c.timers := rfl
@[simp] theorem Chip.setFeed_gstart (c : Chip) (i : Nat) (v : Feed) : (c.setFeed i v).gstart = c.gstart := rfl
@[simp] theorem Chip.setFeed_segs (c : Chip) (i : Nat) (v : Feed) : (c.setFeed i v).segs = c.segs := rfl
@[simp] theorem Chip.setFeed_cans (c : Chip) (i : Nat) (v : Feed) : (c.setFeed i v).cans = c.cans := rfl
@[simp] theorem Chip.setFeed_lins (c : Chip) (i : Nat) (v : Feed) : (c.setFeed i v).lins = c.lins := rfl
@[simp] theorem Chip.setFeed_t1ss (c : Chip) (i : Nat) (v : Feed) : (c.setFeed i v).t1ss = c.t1ss := rfl
@[simp] theorem Chip.setFeed_bbs (c : Chip) (i : Nat) (v : Feed) : (c.setFeed i v).bbs = c.bbs := rfl
@[simp] theorem Chip.setFeed_hostPort (c : Chip) (i : Nat) (v : Feed) : (c.setFeed i v).hostPort = c.hostPort := rfl
@[simp] theorem Chip.setFeed_net (c : Chip) (i : Nat) (v : Feed) : (c.setFeed i v).net = c.net := rfl
@[simp] theorem Chip.setFeed_acc (c : Chip) (i : Nat) (v : Feed) : (c.setFeed i v).acc = c.acc := rfl
@[simp] theorem Chip.setFeed_upd (c : Chip) (i : Nat) (v : Feed) : (c.setFeed i v).upd = c.upd := rfl
@[simp] theorem Chip.setFeed_age (c : Chip) (i : Nat) (v : Feed) : (c.setFeed i v).age = c.age := rfl
@[simp] theorem Chip.setFeed_out (c : Chip) (i : Nat) (v : Feed) : (c.setFeed i v).out = c.out := rfl
@[simp] theorem Chip.setFeed_same (c : Chip) (i : Nat) (v : Feed) (j : Nat) : (c.setFeed i v).feed j = if i = j then v else c.feed j := UMap.get_put _ _ _ _ _
@[simp] theorem Chip.setFeed_twice (c : Chip) (i : Nat) (v : Feed) (w : Feed) : (c.setFeed i v).setFeed i w = c.setFeed i w := by
  simp [Chip.setFeed]
@[simp] theorem Chip.setFeed_stall (c : Chip) (i : Nat) (v : Feed) (j : Nat) : (c.setFeed i v).stall j = c.stall j := rfl
@[simp] theorem Chip.setFeed_row (c : Chip) (i : Nat) (v : Feed) (j : Nat) : (c.setFeed i v).row j = c.row j := rfl
@[simp] theorem Chip.setFeed_valve (c : Chip) (i : Nat) (v : Feed) (j : Nat) : (c.setFeed i v).valve j = c.valve j := rfl
@[simp] theorem Chip.setFeed_vg (c : Chip) (i : Nat) (v : Feed) (j : Nat) : (c.setFeed i v).vg j = c.vg j := rfl
@[simp] theorem Chip.setFeed_loop (c : Chip) (i : Nat) (v : Feed) (j : Nat) : (c.setFeed i v).loop j = c.loop j := rfl
@[simp] theorem Chip.setFeed_boost (c : Chip) (i : Nat) (v : Feed) (j : Nat) : (c.setFeed i v).boost j = c.boost j := rfl
@[simp] theorem Chip.setFeed_sink (c : Chip) (i : Nat) (v : Feed) (j : Nat) : (c.setFeed i v).sink j = c.sink j := rfl
@[simp] theorem Chip.setFeed_ntc (c : Chip) (i : Nat) (v : Feed) (j : Nat) : (c.setFeed i v).ntc j = c.ntc j := rfl
@[simp] theorem Chip.setFeed_si (c : Chip) (i : Nat) (v : Feed) (j : Nat) : (c.setFeed i v).si j = c.si j := rfl
@[simp] theorem Chip.setFeed_ain (c : Chip) (i : Nat) (v : Feed) (j : Nat) : (c.setFeed i v).ain j = c.ain j := rfl
@[simp] theorem Chip.setFeed_dout (c : Chip) (i : Nat) (v : Feed) (j : Nat) : (c.setFeed i v).dout j = c.dout j := rfl
@[simp] theorem Chip.setFeed_yard (c : Chip) (i : Nat) (v : Feed) (j : Nat) : (c.setFeed i v).yard j = c.yard j := rfl
@[simp] theorem Chip.setFeed_safe (c : Chip) (i : Nat) (v : Feed) (j : Nat) : (c.setFeed i v).safe j = c.safe j := rfl
@[simp] theorem Chip.setFeed_port (c : Chip) (i : Nat) (v : Feed) (j : Nat) : (c.setFeed i v).port j = c.port j := rfl
@[simp] theorem Chip.setFeed_timer (c : Chip) (i : Nat) (v : Feed) (j : Nat) : (c.setFeed i v).timer j = c.timer j := rfl
@[simp] theorem Chip.setFeed_seg (c : Chip) (i : Nat) (v : Feed) (j : Nat) : (c.setFeed i v).seg j = c.seg j := rfl
@[simp] theorem Chip.setFeed_can (c : Chip) (i : Nat) (v : Feed) (j : Nat) : (c.setFeed i v).can j = c.can j := rfl
@[simp] theorem Chip.setFeed_lin (c : Chip) (i : Nat) (v : Feed) (j : Nat) : (c.setFeed i v).lin j = c.lin j := rfl
@[simp] theorem Chip.setFeed_t1s (c : Chip) (i : Nat) (v : Feed) (j : Nat) : (c.setFeed i v).t1s j = c.t1s j := rfl
@[simp] theorem Chip.setFeed_bb (c : Chip) (i : Nat) (v : Feed) (j : Nat) : (c.setFeed i v).bb j = c.bb j := rfl
@[simp] theorem Chip.setFeed_ring (c : Chip) (i : Nat) (v : Feed) (pf : Nat) : (c.setFeed i v).ring pf = c.ring pf := rfl
@[simp] theorem Chip.modFeed_eq (c : Chip) (i : Nat) (f : Feed → Feed) : c.modFeed i f = c.setFeed i (f (c.feed i)) := rfl

-- Safe

@[simp] theorem Chip.setSafe_now (c : Chip) (i : Nat) (v : Safe) : (c.setSafe i v).now = c.now := rfl
@[simp] theorem Chip.setSafe_free (c : Chip) (i : Nat) (v : Safe) : (c.setSafe i v).free = c.free := rfl
@[simp] theorem Chip.setSafe_sys (c : Chip) (i : Nat) (v : Safe) : (c.setSafe i v).sys = c.sys := rfl
@[simp] theorem Chip.setSafe_mt (c : Chip) (i : Nat) (v : Safe) : (c.setSafe i v).mt = c.mt := rfl
@[simp] theorem Chip.setSafe_ring0 (c : Chip) (i : Nat) (v : Safe) : (c.setSafe i v).ring0 = c.ring0 := rfl
@[simp] theorem Chip.setSafe_ring1 (c : Chip) (i : Nat) (v : Safe) : (c.setSafe i v).ring1 = c.ring1 := rfl
@[simp] theorem Chip.setSafe_arb (c : Chip) (i : Nat) (v : Safe) : (c.setSafe i v).arb = c.arb := rfl
@[simp] theorem Chip.setSafe_jobs (c : Chip) (i : Nat) (v : Safe) : (c.setSafe i v).jobs = c.jobs := rfl
@[simp] theorem Chip.setSafe_nextJob (c : Chip) (i : Nat) (v : Safe) : (c.setSafe i v).nextJob = c.nextJob := rfl
@[simp] theorem Chip.setSafe_yards (c : Chip) (i : Nat) (v : Safe) : (c.setSafe i v).yards = c.yards := rfl
@[simp] theorem Chip.setSafe_feeds (c : Chip) (i : Nat) (v : Safe) : (c.setSafe i v).feeds = c.feeds := rfl
@[simp] theorem Chip.setSafe_budget (c : Chip) (i : Nat) (v : Safe) : (c.setSafe i v).budget = c.budget := rfl
@[simp] theorem Chip.setSafe_halt (c : Chip) (i : Nat) (v : Safe) : (c.setSafe i v).halt = c.halt := rfl
@[simp] theorem Chip.setSafe_img (c : Chip) (i : Nat) (v : Safe) : (c.setSafe i v).img = c.img := rfl
@[simp] theorem Chip.setSafe_copy (c : Chip) (i : Nat) (v : Safe) : (c.setSafe i v).copy = c.copy := rfl
@[simp] theorem Chip.setSafe_curves (c : Chip) (i : Nat) (v : Safe) : (c.setSafe i v).curves = c.curves := rfl
@[simp] theorem Chip.setSafe_cross (c : Chip) (i : Nat) (v : Safe) : (c.setSafe i v).cross = c.cross := rfl
@[simp] theorem Chip.setSafe_seqs (c : Chip) (i : Nat) (v : Safe) : (c.setSafe i v).seqs = c.seqs := rfl
@[simp] theorem Chip.setSafe_ports (c : Chip) (i : Nat) (v : Safe) : (c.setSafe i v).ports = c.ports := rfl
@[simp] theorem Chip.setSafe_latches (c : Chip) (i : Nat) (v : Safe) : (c.setSafe i v).latches = c.latches := rfl
@[simp] theorem Chip.setSafe_timers (c : Chip) (i : Nat) (v : Safe) : (c.setSafe i v).timers = c.timers := rfl
@[simp] theorem Chip.setSafe_gstart (c : Chip) (i : Nat) (v : Safe) : (c.setSafe i v).gstart = c.gstart := rfl
@[simp] theorem Chip.setSafe_segs (c : Chip) (i : Nat) (v : Safe) : (c.setSafe i v).segs = c.segs := rfl
@[simp] theorem Chip.setSafe_cans (c : Chip) (i : Nat) (v : Safe) : (c.setSafe i v).cans = c.cans := rfl
@[simp] theorem Chip.setSafe_lins (c : Chip) (i : Nat) (v : Safe) : (c.setSafe i v).lins = c.lins := rfl
@[simp] theorem Chip.setSafe_t1ss (c : Chip) (i : Nat) (v : Safe) : (c.setSafe i v).t1ss = c.t1ss := rfl
@[simp] theorem Chip.setSafe_bbs (c : Chip) (i : Nat) (v : Safe) : (c.setSafe i v).bbs = c.bbs := rfl
@[simp] theorem Chip.setSafe_hostPort (c : Chip) (i : Nat) (v : Safe) : (c.setSafe i v).hostPort = c.hostPort := rfl
@[simp] theorem Chip.setSafe_net (c : Chip) (i : Nat) (v : Safe) : (c.setSafe i v).net = c.net := rfl
@[simp] theorem Chip.setSafe_acc (c : Chip) (i : Nat) (v : Safe) : (c.setSafe i v).acc = c.acc := rfl
@[simp] theorem Chip.setSafe_upd (c : Chip) (i : Nat) (v : Safe) : (c.setSafe i v).upd = c.upd := rfl
@[simp] theorem Chip.setSafe_age (c : Chip) (i : Nat) (v : Safe) : (c.setSafe i v).age = c.age := rfl
@[simp] theorem Chip.setSafe_out (c : Chip) (i : Nat) (v : Safe) : (c.setSafe i v).out = c.out := rfl
@[simp] theorem Chip.setSafe_same (c : Chip) (i : Nat) (v : Safe) (j : Nat) : (c.setSafe i v).safe j = if i = j then v else c.safe j := UMap.get_put _ _ _ _ _
@[simp] theorem Chip.setSafe_twice (c : Chip) (i : Nat) (v : Safe) (w : Safe) : (c.setSafe i v).setSafe i w = c.setSafe i w := by
  simp [Chip.setSafe]
@[simp] theorem Chip.setSafe_stall (c : Chip) (i : Nat) (v : Safe) (j : Nat) : (c.setSafe i v).stall j = c.stall j := rfl
@[simp] theorem Chip.setSafe_row (c : Chip) (i : Nat) (v : Safe) (j : Nat) : (c.setSafe i v).row j = c.row j := rfl
@[simp] theorem Chip.setSafe_valve (c : Chip) (i : Nat) (v : Safe) (j : Nat) : (c.setSafe i v).valve j = c.valve j := rfl
@[simp] theorem Chip.setSafe_vg (c : Chip) (i : Nat) (v : Safe) (j : Nat) : (c.setSafe i v).vg j = c.vg j := rfl
@[simp] theorem Chip.setSafe_loop (c : Chip) (i : Nat) (v : Safe) (j : Nat) : (c.setSafe i v).loop j = c.loop j := rfl
@[simp] theorem Chip.setSafe_boost (c : Chip) (i : Nat) (v : Safe) (j : Nat) : (c.setSafe i v).boost j = c.boost j := rfl
@[simp] theorem Chip.setSafe_sink (c : Chip) (i : Nat) (v : Safe) (j : Nat) : (c.setSafe i v).sink j = c.sink j := rfl
@[simp] theorem Chip.setSafe_ntc (c : Chip) (i : Nat) (v : Safe) (j : Nat) : (c.setSafe i v).ntc j = c.ntc j := rfl
@[simp] theorem Chip.setSafe_si (c : Chip) (i : Nat) (v : Safe) (j : Nat) : (c.setSafe i v).si j = c.si j := rfl
@[simp] theorem Chip.setSafe_ain (c : Chip) (i : Nat) (v : Safe) (j : Nat) : (c.setSafe i v).ain j = c.ain j := rfl
@[simp] theorem Chip.setSafe_dout (c : Chip) (i : Nat) (v : Safe) (j : Nat) : (c.setSafe i v).dout j = c.dout j := rfl
@[simp] theorem Chip.setSafe_yard (c : Chip) (i : Nat) (v : Safe) (j : Nat) : (c.setSafe i v).yard j = c.yard j := rfl
@[simp] theorem Chip.setSafe_feed (c : Chip) (i : Nat) (v : Safe) (j : Nat) : (c.setSafe i v).feed j = c.feed j := rfl
@[simp] theorem Chip.setSafe_port (c : Chip) (i : Nat) (v : Safe) (j : Nat) : (c.setSafe i v).port j = c.port j := rfl
@[simp] theorem Chip.setSafe_timer (c : Chip) (i : Nat) (v : Safe) (j : Nat) : (c.setSafe i v).timer j = c.timer j := rfl
@[simp] theorem Chip.setSafe_seg (c : Chip) (i : Nat) (v : Safe) (j : Nat) : (c.setSafe i v).seg j = c.seg j := rfl
@[simp] theorem Chip.setSafe_can (c : Chip) (i : Nat) (v : Safe) (j : Nat) : (c.setSafe i v).can j = c.can j := rfl
@[simp] theorem Chip.setSafe_lin (c : Chip) (i : Nat) (v : Safe) (j : Nat) : (c.setSafe i v).lin j = c.lin j := rfl
@[simp] theorem Chip.setSafe_t1s (c : Chip) (i : Nat) (v : Safe) (j : Nat) : (c.setSafe i v).t1s j = c.t1s j := rfl
@[simp] theorem Chip.setSafe_bb (c : Chip) (i : Nat) (v : Safe) (j : Nat) : (c.setSafe i v).bb j = c.bb j := rfl
@[simp] theorem Chip.setSafe_ring (c : Chip) (i : Nat) (v : Safe) (pf : Nat) : (c.setSafe i v).ring pf = c.ring pf := rfl
@[simp] theorem Chip.modSafe_eq (c : Chip) (i : Nat) (f : Safe → Safe) : c.modSafe i f = c.setSafe i (f (c.safe i)) := rfl

-- Port

@[simp] theorem Chip.setPort_now (c : Chip) (i : Nat) (v : Port) : (c.setPort i v).now = c.now := rfl
@[simp] theorem Chip.setPort_free (c : Chip) (i : Nat) (v : Port) : (c.setPort i v).free = c.free := rfl
@[simp] theorem Chip.setPort_sys (c : Chip) (i : Nat) (v : Port) : (c.setPort i v).sys = c.sys := rfl
@[simp] theorem Chip.setPort_mt (c : Chip) (i : Nat) (v : Port) : (c.setPort i v).mt = c.mt := rfl
@[simp] theorem Chip.setPort_ring0 (c : Chip) (i : Nat) (v : Port) : (c.setPort i v).ring0 = c.ring0 := rfl
@[simp] theorem Chip.setPort_ring1 (c : Chip) (i : Nat) (v : Port) : (c.setPort i v).ring1 = c.ring1 := rfl
@[simp] theorem Chip.setPort_arb (c : Chip) (i : Nat) (v : Port) : (c.setPort i v).arb = c.arb := rfl
@[simp] theorem Chip.setPort_jobs (c : Chip) (i : Nat) (v : Port) : (c.setPort i v).jobs = c.jobs := rfl
@[simp] theorem Chip.setPort_nextJob (c : Chip) (i : Nat) (v : Port) : (c.setPort i v).nextJob = c.nextJob := rfl
@[simp] theorem Chip.setPort_yards (c : Chip) (i : Nat) (v : Port) : (c.setPort i v).yards = c.yards := rfl
@[simp] theorem Chip.setPort_feeds (c : Chip) (i : Nat) (v : Port) : (c.setPort i v).feeds = c.feeds := rfl
@[simp] theorem Chip.setPort_budget (c : Chip) (i : Nat) (v : Port) : (c.setPort i v).budget = c.budget := rfl
@[simp] theorem Chip.setPort_safes (c : Chip) (i : Nat) (v : Port) : (c.setPort i v).safes = c.safes := rfl
@[simp] theorem Chip.setPort_halt (c : Chip) (i : Nat) (v : Port) : (c.setPort i v).halt = c.halt := rfl
@[simp] theorem Chip.setPort_img (c : Chip) (i : Nat) (v : Port) : (c.setPort i v).img = c.img := rfl
@[simp] theorem Chip.setPort_copy (c : Chip) (i : Nat) (v : Port) : (c.setPort i v).copy = c.copy := rfl
@[simp] theorem Chip.setPort_curves (c : Chip) (i : Nat) (v : Port) : (c.setPort i v).curves = c.curves := rfl
@[simp] theorem Chip.setPort_cross (c : Chip) (i : Nat) (v : Port) : (c.setPort i v).cross = c.cross := rfl
@[simp] theorem Chip.setPort_seqs (c : Chip) (i : Nat) (v : Port) : (c.setPort i v).seqs = c.seqs := rfl
@[simp] theorem Chip.setPort_latches (c : Chip) (i : Nat) (v : Port) : (c.setPort i v).latches = c.latches := rfl
@[simp] theorem Chip.setPort_timers (c : Chip) (i : Nat) (v : Port) : (c.setPort i v).timers = c.timers := rfl
@[simp] theorem Chip.setPort_gstart (c : Chip) (i : Nat) (v : Port) : (c.setPort i v).gstart = c.gstart := rfl
@[simp] theorem Chip.setPort_segs (c : Chip) (i : Nat) (v : Port) : (c.setPort i v).segs = c.segs := rfl
@[simp] theorem Chip.setPort_cans (c : Chip) (i : Nat) (v : Port) : (c.setPort i v).cans = c.cans := rfl
@[simp] theorem Chip.setPort_lins (c : Chip) (i : Nat) (v : Port) : (c.setPort i v).lins = c.lins := rfl
@[simp] theorem Chip.setPort_t1ss (c : Chip) (i : Nat) (v : Port) : (c.setPort i v).t1ss = c.t1ss := rfl
@[simp] theorem Chip.setPort_bbs (c : Chip) (i : Nat) (v : Port) : (c.setPort i v).bbs = c.bbs := rfl
@[simp] theorem Chip.setPort_hostPort (c : Chip) (i : Nat) (v : Port) : (c.setPort i v).hostPort = c.hostPort := rfl
@[simp] theorem Chip.setPort_net (c : Chip) (i : Nat) (v : Port) : (c.setPort i v).net = c.net := rfl
@[simp] theorem Chip.setPort_acc (c : Chip) (i : Nat) (v : Port) : (c.setPort i v).acc = c.acc := rfl
@[simp] theorem Chip.setPort_upd (c : Chip) (i : Nat) (v : Port) : (c.setPort i v).upd = c.upd := rfl
@[simp] theorem Chip.setPort_age (c : Chip) (i : Nat) (v : Port) : (c.setPort i v).age = c.age := rfl
@[simp] theorem Chip.setPort_out (c : Chip) (i : Nat) (v : Port) : (c.setPort i v).out = c.out := rfl
@[simp] theorem Chip.setPort_same (c : Chip) (i : Nat) (v : Port) (j : Nat) : (c.setPort i v).port j = if i = j then v else c.port j := UMap.get_put _ _ _ _ _
@[simp] theorem Chip.setPort_twice (c : Chip) (i : Nat) (v : Port) (w : Port) : (c.setPort i v).setPort i w = c.setPort i w := by
  simp [Chip.setPort]
@[simp] theorem Chip.setPort_stall (c : Chip) (i : Nat) (v : Port) (j : Nat) : (c.setPort i v).stall j = c.stall j := rfl
@[simp] theorem Chip.setPort_row (c : Chip) (i : Nat) (v : Port) (j : Nat) : (c.setPort i v).row j = c.row j := rfl
@[simp] theorem Chip.setPort_valve (c : Chip) (i : Nat) (v : Port) (j : Nat) : (c.setPort i v).valve j = c.valve j := rfl
@[simp] theorem Chip.setPort_vg (c : Chip) (i : Nat) (v : Port) (j : Nat) : (c.setPort i v).vg j = c.vg j := rfl
@[simp] theorem Chip.setPort_loop (c : Chip) (i : Nat) (v : Port) (j : Nat) : (c.setPort i v).loop j = c.loop j := rfl
@[simp] theorem Chip.setPort_boost (c : Chip) (i : Nat) (v : Port) (j : Nat) : (c.setPort i v).boost j = c.boost j := rfl
@[simp] theorem Chip.setPort_sink (c : Chip) (i : Nat) (v : Port) (j : Nat) : (c.setPort i v).sink j = c.sink j := rfl
@[simp] theorem Chip.setPort_ntc (c : Chip) (i : Nat) (v : Port) (j : Nat) : (c.setPort i v).ntc j = c.ntc j := rfl
@[simp] theorem Chip.setPort_si (c : Chip) (i : Nat) (v : Port) (j : Nat) : (c.setPort i v).si j = c.si j := rfl
@[simp] theorem Chip.setPort_ain (c : Chip) (i : Nat) (v : Port) (j : Nat) : (c.setPort i v).ain j = c.ain j := rfl
@[simp] theorem Chip.setPort_dout (c : Chip) (i : Nat) (v : Port) (j : Nat) : (c.setPort i v).dout j = c.dout j := rfl
@[simp] theorem Chip.setPort_yard (c : Chip) (i : Nat) (v : Port) (j : Nat) : (c.setPort i v).yard j = c.yard j := rfl
@[simp] theorem Chip.setPort_feed (c : Chip) (i : Nat) (v : Port) (j : Nat) : (c.setPort i v).feed j = c.feed j := rfl
@[simp] theorem Chip.setPort_safe (c : Chip) (i : Nat) (v : Port) (j : Nat) : (c.setPort i v).safe j = c.safe j := rfl
@[simp] theorem Chip.setPort_timer (c : Chip) (i : Nat) (v : Port) (j : Nat) : (c.setPort i v).timer j = c.timer j := rfl
@[simp] theorem Chip.setPort_seg (c : Chip) (i : Nat) (v : Port) (j : Nat) : (c.setPort i v).seg j = c.seg j := rfl
@[simp] theorem Chip.setPort_can (c : Chip) (i : Nat) (v : Port) (j : Nat) : (c.setPort i v).can j = c.can j := rfl
@[simp] theorem Chip.setPort_lin (c : Chip) (i : Nat) (v : Port) (j : Nat) : (c.setPort i v).lin j = c.lin j := rfl
@[simp] theorem Chip.setPort_t1s (c : Chip) (i : Nat) (v : Port) (j : Nat) : (c.setPort i v).t1s j = c.t1s j := rfl
@[simp] theorem Chip.setPort_bb (c : Chip) (i : Nat) (v : Port) (j : Nat) : (c.setPort i v).bb j = c.bb j := rfl
@[simp] theorem Chip.setPort_ring (c : Chip) (i : Nat) (v : Port) (pf : Nat) : (c.setPort i v).ring pf = c.ring pf := rfl
@[simp] theorem Chip.modPort_eq (c : Chip) (i : Nat) (f : Port → Port) : c.modPort i f = c.setPort i (f (c.port i)) := rfl

-- Timer

@[simp] theorem Chip.setTimer_now (c : Chip) (i : Nat) (v : Timer) : (c.setTimer i v).now = c.now := rfl
@[simp] theorem Chip.setTimer_free (c : Chip) (i : Nat) (v : Timer) : (c.setTimer i v).free = c.free := rfl
@[simp] theorem Chip.setTimer_sys (c : Chip) (i : Nat) (v : Timer) : (c.setTimer i v).sys = c.sys := rfl
@[simp] theorem Chip.setTimer_mt (c : Chip) (i : Nat) (v : Timer) : (c.setTimer i v).mt = c.mt := rfl
@[simp] theorem Chip.setTimer_ring0 (c : Chip) (i : Nat) (v : Timer) : (c.setTimer i v).ring0 = c.ring0 := rfl
@[simp] theorem Chip.setTimer_ring1 (c : Chip) (i : Nat) (v : Timer) : (c.setTimer i v).ring1 = c.ring1 := rfl
@[simp] theorem Chip.setTimer_arb (c : Chip) (i : Nat) (v : Timer) : (c.setTimer i v).arb = c.arb := rfl
@[simp] theorem Chip.setTimer_jobs (c : Chip) (i : Nat) (v : Timer) : (c.setTimer i v).jobs = c.jobs := rfl
@[simp] theorem Chip.setTimer_nextJob (c : Chip) (i : Nat) (v : Timer) : (c.setTimer i v).nextJob = c.nextJob := rfl
@[simp] theorem Chip.setTimer_yards (c : Chip) (i : Nat) (v : Timer) : (c.setTimer i v).yards = c.yards := rfl
@[simp] theorem Chip.setTimer_feeds (c : Chip) (i : Nat) (v : Timer) : (c.setTimer i v).feeds = c.feeds := rfl
@[simp] theorem Chip.setTimer_budget (c : Chip) (i : Nat) (v : Timer) : (c.setTimer i v).budget = c.budget := rfl
@[simp] theorem Chip.setTimer_safes (c : Chip) (i : Nat) (v : Timer) : (c.setTimer i v).safes = c.safes := rfl
@[simp] theorem Chip.setTimer_halt (c : Chip) (i : Nat) (v : Timer) : (c.setTimer i v).halt = c.halt := rfl
@[simp] theorem Chip.setTimer_img (c : Chip) (i : Nat) (v : Timer) : (c.setTimer i v).img = c.img := rfl
@[simp] theorem Chip.setTimer_copy (c : Chip) (i : Nat) (v : Timer) : (c.setTimer i v).copy = c.copy := rfl
@[simp] theorem Chip.setTimer_curves (c : Chip) (i : Nat) (v : Timer) : (c.setTimer i v).curves = c.curves := rfl
@[simp] theorem Chip.setTimer_cross (c : Chip) (i : Nat) (v : Timer) : (c.setTimer i v).cross = c.cross := rfl
@[simp] theorem Chip.setTimer_seqs (c : Chip) (i : Nat) (v : Timer) : (c.setTimer i v).seqs = c.seqs := rfl
@[simp] theorem Chip.setTimer_ports (c : Chip) (i : Nat) (v : Timer) : (c.setTimer i v).ports = c.ports := rfl
@[simp] theorem Chip.setTimer_latches (c : Chip) (i : Nat) (v : Timer) : (c.setTimer i v).latches = c.latches := rfl
@[simp] theorem Chip.setTimer_gstart (c : Chip) (i : Nat) (v : Timer) : (c.setTimer i v).gstart = c.gstart := rfl
@[simp] theorem Chip.setTimer_segs (c : Chip) (i : Nat) (v : Timer) : (c.setTimer i v).segs = c.segs := rfl
@[simp] theorem Chip.setTimer_cans (c : Chip) (i : Nat) (v : Timer) : (c.setTimer i v).cans = c.cans := rfl
@[simp] theorem Chip.setTimer_lins (c : Chip) (i : Nat) (v : Timer) : (c.setTimer i v).lins = c.lins := rfl
@[simp] theorem Chip.setTimer_t1ss (c : Chip) (i : Nat) (v : Timer) : (c.setTimer i v).t1ss = c.t1ss := rfl
@[simp] theorem Chip.setTimer_bbs (c : Chip) (i : Nat) (v : Timer) : (c.setTimer i v).bbs = c.bbs := rfl
@[simp] theorem Chip.setTimer_hostPort (c : Chip) (i : Nat) (v : Timer) : (c.setTimer i v).hostPort = c.hostPort := rfl
@[simp] theorem Chip.setTimer_net (c : Chip) (i : Nat) (v : Timer) : (c.setTimer i v).net = c.net := rfl
@[simp] theorem Chip.setTimer_acc (c : Chip) (i : Nat) (v : Timer) : (c.setTimer i v).acc = c.acc := rfl
@[simp] theorem Chip.setTimer_upd (c : Chip) (i : Nat) (v : Timer) : (c.setTimer i v).upd = c.upd := rfl
@[simp] theorem Chip.setTimer_age (c : Chip) (i : Nat) (v : Timer) : (c.setTimer i v).age = c.age := rfl
@[simp] theorem Chip.setTimer_out (c : Chip) (i : Nat) (v : Timer) : (c.setTimer i v).out = c.out := rfl
@[simp] theorem Chip.setTimer_same (c : Chip) (i : Nat) (v : Timer) (j : Nat) : (c.setTimer i v).timer j = if i = j then v else c.timer j := UMap.get_put _ _ _ _ _
@[simp] theorem Chip.setTimer_twice (c : Chip) (i : Nat) (v : Timer) (w : Timer) : (c.setTimer i v).setTimer i w = c.setTimer i w := by
  simp [Chip.setTimer]
@[simp] theorem Chip.setTimer_stall (c : Chip) (i : Nat) (v : Timer) (j : Nat) : (c.setTimer i v).stall j = c.stall j := rfl
@[simp] theorem Chip.setTimer_row (c : Chip) (i : Nat) (v : Timer) (j : Nat) : (c.setTimer i v).row j = c.row j := rfl
@[simp] theorem Chip.setTimer_valve (c : Chip) (i : Nat) (v : Timer) (j : Nat) : (c.setTimer i v).valve j = c.valve j := rfl
@[simp] theorem Chip.setTimer_vg (c : Chip) (i : Nat) (v : Timer) (j : Nat) : (c.setTimer i v).vg j = c.vg j := rfl
@[simp] theorem Chip.setTimer_loop (c : Chip) (i : Nat) (v : Timer) (j : Nat) : (c.setTimer i v).loop j = c.loop j := rfl
@[simp] theorem Chip.setTimer_boost (c : Chip) (i : Nat) (v : Timer) (j : Nat) : (c.setTimer i v).boost j = c.boost j := rfl
@[simp] theorem Chip.setTimer_sink (c : Chip) (i : Nat) (v : Timer) (j : Nat) : (c.setTimer i v).sink j = c.sink j := rfl
@[simp] theorem Chip.setTimer_ntc (c : Chip) (i : Nat) (v : Timer) (j : Nat) : (c.setTimer i v).ntc j = c.ntc j := rfl
@[simp] theorem Chip.setTimer_si (c : Chip) (i : Nat) (v : Timer) (j : Nat) : (c.setTimer i v).si j = c.si j := rfl
@[simp] theorem Chip.setTimer_ain (c : Chip) (i : Nat) (v : Timer) (j : Nat) : (c.setTimer i v).ain j = c.ain j := rfl
@[simp] theorem Chip.setTimer_dout (c : Chip) (i : Nat) (v : Timer) (j : Nat) : (c.setTimer i v).dout j = c.dout j := rfl
@[simp] theorem Chip.setTimer_yard (c : Chip) (i : Nat) (v : Timer) (j : Nat) : (c.setTimer i v).yard j = c.yard j := rfl
@[simp] theorem Chip.setTimer_feed (c : Chip) (i : Nat) (v : Timer) (j : Nat) : (c.setTimer i v).feed j = c.feed j := rfl
@[simp] theorem Chip.setTimer_safe (c : Chip) (i : Nat) (v : Timer) (j : Nat) : (c.setTimer i v).safe j = c.safe j := rfl
@[simp] theorem Chip.setTimer_port (c : Chip) (i : Nat) (v : Timer) (j : Nat) : (c.setTimer i v).port j = c.port j := rfl
@[simp] theorem Chip.setTimer_seg (c : Chip) (i : Nat) (v : Timer) (j : Nat) : (c.setTimer i v).seg j = c.seg j := rfl
@[simp] theorem Chip.setTimer_can (c : Chip) (i : Nat) (v : Timer) (j : Nat) : (c.setTimer i v).can j = c.can j := rfl
@[simp] theorem Chip.setTimer_lin (c : Chip) (i : Nat) (v : Timer) (j : Nat) : (c.setTimer i v).lin j = c.lin j := rfl
@[simp] theorem Chip.setTimer_t1s (c : Chip) (i : Nat) (v : Timer) (j : Nat) : (c.setTimer i v).t1s j = c.t1s j := rfl
@[simp] theorem Chip.setTimer_bb (c : Chip) (i : Nat) (v : Timer) (j : Nat) : (c.setTimer i v).bb j = c.bb j := rfl
@[simp] theorem Chip.setTimer_ring (c : Chip) (i : Nat) (v : Timer) (pf : Nat) : (c.setTimer i v).ring pf = c.ring pf := rfl
@[simp] theorem Chip.modTimer_eq (c : Chip) (i : Nat) (f : Timer → Timer) : c.modTimer i f = c.setTimer i (f (c.timer i)) := rfl

-- Seg

@[simp] theorem Chip.setSeg_now (c : Chip) (i : Nat) (v : Seg) : (c.setSeg i v).now = c.now := rfl
@[simp] theorem Chip.setSeg_free (c : Chip) (i : Nat) (v : Seg) : (c.setSeg i v).free = c.free := rfl
@[simp] theorem Chip.setSeg_sys (c : Chip) (i : Nat) (v : Seg) : (c.setSeg i v).sys = c.sys := rfl
@[simp] theorem Chip.setSeg_mt (c : Chip) (i : Nat) (v : Seg) : (c.setSeg i v).mt = c.mt := rfl
@[simp] theorem Chip.setSeg_ring0 (c : Chip) (i : Nat) (v : Seg) : (c.setSeg i v).ring0 = c.ring0 := rfl
@[simp] theorem Chip.setSeg_ring1 (c : Chip) (i : Nat) (v : Seg) : (c.setSeg i v).ring1 = c.ring1 := rfl
@[simp] theorem Chip.setSeg_arb (c : Chip) (i : Nat) (v : Seg) : (c.setSeg i v).arb = c.arb := rfl
@[simp] theorem Chip.setSeg_jobs (c : Chip) (i : Nat) (v : Seg) : (c.setSeg i v).jobs = c.jobs := rfl
@[simp] theorem Chip.setSeg_nextJob (c : Chip) (i : Nat) (v : Seg) : (c.setSeg i v).nextJob = c.nextJob := rfl
@[simp] theorem Chip.setSeg_yards (c : Chip) (i : Nat) (v : Seg) : (c.setSeg i v).yards = c.yards := rfl
@[simp] theorem Chip.setSeg_feeds (c : Chip) (i : Nat) (v : Seg) : (c.setSeg i v).feeds = c.feeds := rfl
@[simp] theorem Chip.setSeg_budget (c : Chip) (i : Nat) (v : Seg) : (c.setSeg i v).budget = c.budget := rfl
@[simp] theorem Chip.setSeg_safes (c : Chip) (i : Nat) (v : Seg) : (c.setSeg i v).safes = c.safes := rfl
@[simp] theorem Chip.setSeg_halt (c : Chip) (i : Nat) (v : Seg) : (c.setSeg i v).halt = c.halt := rfl
@[simp] theorem Chip.setSeg_img (c : Chip) (i : Nat) (v : Seg) : (c.setSeg i v).img = c.img := rfl
@[simp] theorem Chip.setSeg_copy (c : Chip) (i : Nat) (v : Seg) : (c.setSeg i v).copy = c.copy := rfl
@[simp] theorem Chip.setSeg_curves (c : Chip) (i : Nat) (v : Seg) : (c.setSeg i v).curves = c.curves := rfl
@[simp] theorem Chip.setSeg_cross (c : Chip) (i : Nat) (v : Seg) : (c.setSeg i v).cross = c.cross := rfl
@[simp] theorem Chip.setSeg_seqs (c : Chip) (i : Nat) (v : Seg) : (c.setSeg i v).seqs = c.seqs := rfl
@[simp] theorem Chip.setSeg_ports (c : Chip) (i : Nat) (v : Seg) : (c.setSeg i v).ports = c.ports := rfl
@[simp] theorem Chip.setSeg_latches (c : Chip) (i : Nat) (v : Seg) : (c.setSeg i v).latches = c.latches := rfl
@[simp] theorem Chip.setSeg_timers (c : Chip) (i : Nat) (v : Seg) : (c.setSeg i v).timers = c.timers := rfl
@[simp] theorem Chip.setSeg_gstart (c : Chip) (i : Nat) (v : Seg) : (c.setSeg i v).gstart = c.gstart := rfl
@[simp] theorem Chip.setSeg_cans (c : Chip) (i : Nat) (v : Seg) : (c.setSeg i v).cans = c.cans := rfl
@[simp] theorem Chip.setSeg_lins (c : Chip) (i : Nat) (v : Seg) : (c.setSeg i v).lins = c.lins := rfl
@[simp] theorem Chip.setSeg_t1ss (c : Chip) (i : Nat) (v : Seg) : (c.setSeg i v).t1ss = c.t1ss := rfl
@[simp] theorem Chip.setSeg_bbs (c : Chip) (i : Nat) (v : Seg) : (c.setSeg i v).bbs = c.bbs := rfl
@[simp] theorem Chip.setSeg_hostPort (c : Chip) (i : Nat) (v : Seg) : (c.setSeg i v).hostPort = c.hostPort := rfl
@[simp] theorem Chip.setSeg_net (c : Chip) (i : Nat) (v : Seg) : (c.setSeg i v).net = c.net := rfl
@[simp] theorem Chip.setSeg_acc (c : Chip) (i : Nat) (v : Seg) : (c.setSeg i v).acc = c.acc := rfl
@[simp] theorem Chip.setSeg_upd (c : Chip) (i : Nat) (v : Seg) : (c.setSeg i v).upd = c.upd := rfl
@[simp] theorem Chip.setSeg_age (c : Chip) (i : Nat) (v : Seg) : (c.setSeg i v).age = c.age := rfl
@[simp] theorem Chip.setSeg_out (c : Chip) (i : Nat) (v : Seg) : (c.setSeg i v).out = c.out := rfl
@[simp] theorem Chip.setSeg_same (c : Chip) (i : Nat) (v : Seg) (j : Nat) : (c.setSeg i v).seg j = if i = j then v else c.seg j := UMap.get_put _ _ _ _ _
@[simp] theorem Chip.setSeg_twice (c : Chip) (i : Nat) (v : Seg) (w : Seg) : (c.setSeg i v).setSeg i w = c.setSeg i w := by
  simp [Chip.setSeg]
@[simp] theorem Chip.setSeg_stall (c : Chip) (i : Nat) (v : Seg) (j : Nat) : (c.setSeg i v).stall j = c.stall j := rfl
@[simp] theorem Chip.setSeg_row (c : Chip) (i : Nat) (v : Seg) (j : Nat) : (c.setSeg i v).row j = c.row j := rfl
@[simp] theorem Chip.setSeg_valve (c : Chip) (i : Nat) (v : Seg) (j : Nat) : (c.setSeg i v).valve j = c.valve j := rfl
@[simp] theorem Chip.setSeg_vg (c : Chip) (i : Nat) (v : Seg) (j : Nat) : (c.setSeg i v).vg j = c.vg j := rfl
@[simp] theorem Chip.setSeg_loop (c : Chip) (i : Nat) (v : Seg) (j : Nat) : (c.setSeg i v).loop j = c.loop j := rfl
@[simp] theorem Chip.setSeg_boost (c : Chip) (i : Nat) (v : Seg) (j : Nat) : (c.setSeg i v).boost j = c.boost j := rfl
@[simp] theorem Chip.setSeg_sink (c : Chip) (i : Nat) (v : Seg) (j : Nat) : (c.setSeg i v).sink j = c.sink j := rfl
@[simp] theorem Chip.setSeg_ntc (c : Chip) (i : Nat) (v : Seg) (j : Nat) : (c.setSeg i v).ntc j = c.ntc j := rfl
@[simp] theorem Chip.setSeg_si (c : Chip) (i : Nat) (v : Seg) (j : Nat) : (c.setSeg i v).si j = c.si j := rfl
@[simp] theorem Chip.setSeg_ain (c : Chip) (i : Nat) (v : Seg) (j : Nat) : (c.setSeg i v).ain j = c.ain j := rfl
@[simp] theorem Chip.setSeg_dout (c : Chip) (i : Nat) (v : Seg) (j : Nat) : (c.setSeg i v).dout j = c.dout j := rfl
@[simp] theorem Chip.setSeg_yard (c : Chip) (i : Nat) (v : Seg) (j : Nat) : (c.setSeg i v).yard j = c.yard j := rfl
@[simp] theorem Chip.setSeg_feed (c : Chip) (i : Nat) (v : Seg) (j : Nat) : (c.setSeg i v).feed j = c.feed j := rfl
@[simp] theorem Chip.setSeg_safe (c : Chip) (i : Nat) (v : Seg) (j : Nat) : (c.setSeg i v).safe j = c.safe j := rfl
@[simp] theorem Chip.setSeg_port (c : Chip) (i : Nat) (v : Seg) (j : Nat) : (c.setSeg i v).port j = c.port j := rfl
@[simp] theorem Chip.setSeg_timer (c : Chip) (i : Nat) (v : Seg) (j : Nat) : (c.setSeg i v).timer j = c.timer j := rfl
@[simp] theorem Chip.setSeg_can (c : Chip) (i : Nat) (v : Seg) (j : Nat) : (c.setSeg i v).can j = c.can j := rfl
@[simp] theorem Chip.setSeg_lin (c : Chip) (i : Nat) (v : Seg) (j : Nat) : (c.setSeg i v).lin j = c.lin j := rfl
@[simp] theorem Chip.setSeg_t1s (c : Chip) (i : Nat) (v : Seg) (j : Nat) : (c.setSeg i v).t1s j = c.t1s j := rfl
@[simp] theorem Chip.setSeg_bb (c : Chip) (i : Nat) (v : Seg) (j : Nat) : (c.setSeg i v).bb j = c.bb j := rfl
@[simp] theorem Chip.setSeg_ring (c : Chip) (i : Nat) (v : Seg) (pf : Nat) : (c.setSeg i v).ring pf = c.ring pf := rfl
@[simp] theorem Chip.modSeg_eq (c : Chip) (i : Nat) (f : Seg → Seg) : c.modSeg i f = c.setSeg i (f (c.seg i)) := rfl

-- Can

@[simp] theorem Chip.setCan_now (c : Chip) (i : Nat) (v : Can) : (c.setCan i v).now = c.now := rfl
@[simp] theorem Chip.setCan_free (c : Chip) (i : Nat) (v : Can) : (c.setCan i v).free = c.free := rfl
@[simp] theorem Chip.setCan_sys (c : Chip) (i : Nat) (v : Can) : (c.setCan i v).sys = c.sys := rfl
@[simp] theorem Chip.setCan_mt (c : Chip) (i : Nat) (v : Can) : (c.setCan i v).mt = c.mt := rfl
@[simp] theorem Chip.setCan_ring0 (c : Chip) (i : Nat) (v : Can) : (c.setCan i v).ring0 = c.ring0 := rfl
@[simp] theorem Chip.setCan_ring1 (c : Chip) (i : Nat) (v : Can) : (c.setCan i v).ring1 = c.ring1 := rfl
@[simp] theorem Chip.setCan_arb (c : Chip) (i : Nat) (v : Can) : (c.setCan i v).arb = c.arb := rfl
@[simp] theorem Chip.setCan_jobs (c : Chip) (i : Nat) (v : Can) : (c.setCan i v).jobs = c.jobs := rfl
@[simp] theorem Chip.setCan_nextJob (c : Chip) (i : Nat) (v : Can) : (c.setCan i v).nextJob = c.nextJob := rfl
@[simp] theorem Chip.setCan_yards (c : Chip) (i : Nat) (v : Can) : (c.setCan i v).yards = c.yards := rfl
@[simp] theorem Chip.setCan_feeds (c : Chip) (i : Nat) (v : Can) : (c.setCan i v).feeds = c.feeds := rfl
@[simp] theorem Chip.setCan_budget (c : Chip) (i : Nat) (v : Can) : (c.setCan i v).budget = c.budget := rfl
@[simp] theorem Chip.setCan_safes (c : Chip) (i : Nat) (v : Can) : (c.setCan i v).safes = c.safes := rfl
@[simp] theorem Chip.setCan_halt (c : Chip) (i : Nat) (v : Can) : (c.setCan i v).halt = c.halt := rfl
@[simp] theorem Chip.setCan_img (c : Chip) (i : Nat) (v : Can) : (c.setCan i v).img = c.img := rfl
@[simp] theorem Chip.setCan_copy (c : Chip) (i : Nat) (v : Can) : (c.setCan i v).copy = c.copy := rfl
@[simp] theorem Chip.setCan_curves (c : Chip) (i : Nat) (v : Can) : (c.setCan i v).curves = c.curves := rfl
@[simp] theorem Chip.setCan_cross (c : Chip) (i : Nat) (v : Can) : (c.setCan i v).cross = c.cross := rfl
@[simp] theorem Chip.setCan_seqs (c : Chip) (i : Nat) (v : Can) : (c.setCan i v).seqs = c.seqs := rfl
@[simp] theorem Chip.setCan_ports (c : Chip) (i : Nat) (v : Can) : (c.setCan i v).ports = c.ports := rfl
@[simp] theorem Chip.setCan_latches (c : Chip) (i : Nat) (v : Can) : (c.setCan i v).latches = c.latches := rfl
@[simp] theorem Chip.setCan_timers (c : Chip) (i : Nat) (v : Can) : (c.setCan i v).timers = c.timers := rfl
@[simp] theorem Chip.setCan_gstart (c : Chip) (i : Nat) (v : Can) : (c.setCan i v).gstart = c.gstart := rfl
@[simp] theorem Chip.setCan_segs (c : Chip) (i : Nat) (v : Can) : (c.setCan i v).segs = c.segs := rfl
@[simp] theorem Chip.setCan_lins (c : Chip) (i : Nat) (v : Can) : (c.setCan i v).lins = c.lins := rfl
@[simp] theorem Chip.setCan_t1ss (c : Chip) (i : Nat) (v : Can) : (c.setCan i v).t1ss = c.t1ss := rfl
@[simp] theorem Chip.setCan_bbs (c : Chip) (i : Nat) (v : Can) : (c.setCan i v).bbs = c.bbs := rfl
@[simp] theorem Chip.setCan_hostPort (c : Chip) (i : Nat) (v : Can) : (c.setCan i v).hostPort = c.hostPort := rfl
@[simp] theorem Chip.setCan_net (c : Chip) (i : Nat) (v : Can) : (c.setCan i v).net = c.net := rfl
@[simp] theorem Chip.setCan_acc (c : Chip) (i : Nat) (v : Can) : (c.setCan i v).acc = c.acc := rfl
@[simp] theorem Chip.setCan_upd (c : Chip) (i : Nat) (v : Can) : (c.setCan i v).upd = c.upd := rfl
@[simp] theorem Chip.setCan_age (c : Chip) (i : Nat) (v : Can) : (c.setCan i v).age = c.age := rfl
@[simp] theorem Chip.setCan_out (c : Chip) (i : Nat) (v : Can) : (c.setCan i v).out = c.out := rfl
@[simp] theorem Chip.setCan_same (c : Chip) (i : Nat) (v : Can) (j : Nat) : (c.setCan i v).can j = if i = j then v else c.can j := UMap.get_put _ _ _ _ _
@[simp] theorem Chip.setCan_twice (c : Chip) (i : Nat) (v : Can) (w : Can) : (c.setCan i v).setCan i w = c.setCan i w := by
  simp [Chip.setCan]
@[simp] theorem Chip.setCan_stall (c : Chip) (i : Nat) (v : Can) (j : Nat) : (c.setCan i v).stall j = c.stall j := rfl
@[simp] theorem Chip.setCan_row (c : Chip) (i : Nat) (v : Can) (j : Nat) : (c.setCan i v).row j = c.row j := rfl
@[simp] theorem Chip.setCan_valve (c : Chip) (i : Nat) (v : Can) (j : Nat) : (c.setCan i v).valve j = c.valve j := rfl
@[simp] theorem Chip.setCan_vg (c : Chip) (i : Nat) (v : Can) (j : Nat) : (c.setCan i v).vg j = c.vg j := rfl
@[simp] theorem Chip.setCan_loop (c : Chip) (i : Nat) (v : Can) (j : Nat) : (c.setCan i v).loop j = c.loop j := rfl
@[simp] theorem Chip.setCan_boost (c : Chip) (i : Nat) (v : Can) (j : Nat) : (c.setCan i v).boost j = c.boost j := rfl
@[simp] theorem Chip.setCan_sink (c : Chip) (i : Nat) (v : Can) (j : Nat) : (c.setCan i v).sink j = c.sink j := rfl
@[simp] theorem Chip.setCan_ntc (c : Chip) (i : Nat) (v : Can) (j : Nat) : (c.setCan i v).ntc j = c.ntc j := rfl
@[simp] theorem Chip.setCan_si (c : Chip) (i : Nat) (v : Can) (j : Nat) : (c.setCan i v).si j = c.si j := rfl
@[simp] theorem Chip.setCan_ain (c : Chip) (i : Nat) (v : Can) (j : Nat) : (c.setCan i v).ain j = c.ain j := rfl
@[simp] theorem Chip.setCan_dout (c : Chip) (i : Nat) (v : Can) (j : Nat) : (c.setCan i v).dout j = c.dout j := rfl
@[simp] theorem Chip.setCan_yard (c : Chip) (i : Nat) (v : Can) (j : Nat) : (c.setCan i v).yard j = c.yard j := rfl
@[simp] theorem Chip.setCan_feed (c : Chip) (i : Nat) (v : Can) (j : Nat) : (c.setCan i v).feed j = c.feed j := rfl
@[simp] theorem Chip.setCan_safe (c : Chip) (i : Nat) (v : Can) (j : Nat) : (c.setCan i v).safe j = c.safe j := rfl
@[simp] theorem Chip.setCan_port (c : Chip) (i : Nat) (v : Can) (j : Nat) : (c.setCan i v).port j = c.port j := rfl
@[simp] theorem Chip.setCan_timer (c : Chip) (i : Nat) (v : Can) (j : Nat) : (c.setCan i v).timer j = c.timer j := rfl
@[simp] theorem Chip.setCan_seg (c : Chip) (i : Nat) (v : Can) (j : Nat) : (c.setCan i v).seg j = c.seg j := rfl
@[simp] theorem Chip.setCan_lin (c : Chip) (i : Nat) (v : Can) (j : Nat) : (c.setCan i v).lin j = c.lin j := rfl
@[simp] theorem Chip.setCan_t1s (c : Chip) (i : Nat) (v : Can) (j : Nat) : (c.setCan i v).t1s j = c.t1s j := rfl
@[simp] theorem Chip.setCan_bb (c : Chip) (i : Nat) (v : Can) (j : Nat) : (c.setCan i v).bb j = c.bb j := rfl
@[simp] theorem Chip.setCan_ring (c : Chip) (i : Nat) (v : Can) (pf : Nat) : (c.setCan i v).ring pf = c.ring pf := rfl
@[simp] theorem Chip.modCan_eq (c : Chip) (i : Nat) (f : Can → Can) : c.modCan i f = c.setCan i (f (c.can i)) := rfl

-- Lin

@[simp] theorem Chip.setLin_now (c : Chip) (i : Nat) (v : Lin) : (c.setLin i v).now = c.now := rfl
@[simp] theorem Chip.setLin_free (c : Chip) (i : Nat) (v : Lin) : (c.setLin i v).free = c.free := rfl
@[simp] theorem Chip.setLin_sys (c : Chip) (i : Nat) (v : Lin) : (c.setLin i v).sys = c.sys := rfl
@[simp] theorem Chip.setLin_mt (c : Chip) (i : Nat) (v : Lin) : (c.setLin i v).mt = c.mt := rfl
@[simp] theorem Chip.setLin_ring0 (c : Chip) (i : Nat) (v : Lin) : (c.setLin i v).ring0 = c.ring0 := rfl
@[simp] theorem Chip.setLin_ring1 (c : Chip) (i : Nat) (v : Lin) : (c.setLin i v).ring1 = c.ring1 := rfl
@[simp] theorem Chip.setLin_arb (c : Chip) (i : Nat) (v : Lin) : (c.setLin i v).arb = c.arb := rfl
@[simp] theorem Chip.setLin_jobs (c : Chip) (i : Nat) (v : Lin) : (c.setLin i v).jobs = c.jobs := rfl
@[simp] theorem Chip.setLin_nextJob (c : Chip) (i : Nat) (v : Lin) : (c.setLin i v).nextJob = c.nextJob := rfl
@[simp] theorem Chip.setLin_yards (c : Chip) (i : Nat) (v : Lin) : (c.setLin i v).yards = c.yards := rfl
@[simp] theorem Chip.setLin_feeds (c : Chip) (i : Nat) (v : Lin) : (c.setLin i v).feeds = c.feeds := rfl
@[simp] theorem Chip.setLin_budget (c : Chip) (i : Nat) (v : Lin) : (c.setLin i v).budget = c.budget := rfl
@[simp] theorem Chip.setLin_safes (c : Chip) (i : Nat) (v : Lin) : (c.setLin i v).safes = c.safes := rfl
@[simp] theorem Chip.setLin_halt (c : Chip) (i : Nat) (v : Lin) : (c.setLin i v).halt = c.halt := rfl
@[simp] theorem Chip.setLin_img (c : Chip) (i : Nat) (v : Lin) : (c.setLin i v).img = c.img := rfl
@[simp] theorem Chip.setLin_copy (c : Chip) (i : Nat) (v : Lin) : (c.setLin i v).copy = c.copy := rfl
@[simp] theorem Chip.setLin_curves (c : Chip) (i : Nat) (v : Lin) : (c.setLin i v).curves = c.curves := rfl
@[simp] theorem Chip.setLin_cross (c : Chip) (i : Nat) (v : Lin) : (c.setLin i v).cross = c.cross := rfl
@[simp] theorem Chip.setLin_seqs (c : Chip) (i : Nat) (v : Lin) : (c.setLin i v).seqs = c.seqs := rfl
@[simp] theorem Chip.setLin_ports (c : Chip) (i : Nat) (v : Lin) : (c.setLin i v).ports = c.ports := rfl
@[simp] theorem Chip.setLin_latches (c : Chip) (i : Nat) (v : Lin) : (c.setLin i v).latches = c.latches := rfl
@[simp] theorem Chip.setLin_timers (c : Chip) (i : Nat) (v : Lin) : (c.setLin i v).timers = c.timers := rfl
@[simp] theorem Chip.setLin_gstart (c : Chip) (i : Nat) (v : Lin) : (c.setLin i v).gstart = c.gstart := rfl
@[simp] theorem Chip.setLin_segs (c : Chip) (i : Nat) (v : Lin) : (c.setLin i v).segs = c.segs := rfl
@[simp] theorem Chip.setLin_cans (c : Chip) (i : Nat) (v : Lin) : (c.setLin i v).cans = c.cans := rfl
@[simp] theorem Chip.setLin_t1ss (c : Chip) (i : Nat) (v : Lin) : (c.setLin i v).t1ss = c.t1ss := rfl
@[simp] theorem Chip.setLin_bbs (c : Chip) (i : Nat) (v : Lin) : (c.setLin i v).bbs = c.bbs := rfl
@[simp] theorem Chip.setLin_hostPort (c : Chip) (i : Nat) (v : Lin) : (c.setLin i v).hostPort = c.hostPort := rfl
@[simp] theorem Chip.setLin_net (c : Chip) (i : Nat) (v : Lin) : (c.setLin i v).net = c.net := rfl
@[simp] theorem Chip.setLin_acc (c : Chip) (i : Nat) (v : Lin) : (c.setLin i v).acc = c.acc := rfl
@[simp] theorem Chip.setLin_upd (c : Chip) (i : Nat) (v : Lin) : (c.setLin i v).upd = c.upd := rfl
@[simp] theorem Chip.setLin_age (c : Chip) (i : Nat) (v : Lin) : (c.setLin i v).age = c.age := rfl
@[simp] theorem Chip.setLin_out (c : Chip) (i : Nat) (v : Lin) : (c.setLin i v).out = c.out := rfl
@[simp] theorem Chip.setLin_same (c : Chip) (i : Nat) (v : Lin) (j : Nat) : (c.setLin i v).lin j = if i = j then v else c.lin j := UMap.get_put _ _ _ _ _
@[simp] theorem Chip.setLin_twice (c : Chip) (i : Nat) (v : Lin) (w : Lin) : (c.setLin i v).setLin i w = c.setLin i w := by
  simp [Chip.setLin]
@[simp] theorem Chip.setLin_stall (c : Chip) (i : Nat) (v : Lin) (j : Nat) : (c.setLin i v).stall j = c.stall j := rfl
@[simp] theorem Chip.setLin_row (c : Chip) (i : Nat) (v : Lin) (j : Nat) : (c.setLin i v).row j = c.row j := rfl
@[simp] theorem Chip.setLin_valve (c : Chip) (i : Nat) (v : Lin) (j : Nat) : (c.setLin i v).valve j = c.valve j := rfl
@[simp] theorem Chip.setLin_vg (c : Chip) (i : Nat) (v : Lin) (j : Nat) : (c.setLin i v).vg j = c.vg j := rfl
@[simp] theorem Chip.setLin_loop (c : Chip) (i : Nat) (v : Lin) (j : Nat) : (c.setLin i v).loop j = c.loop j := rfl
@[simp] theorem Chip.setLin_boost (c : Chip) (i : Nat) (v : Lin) (j : Nat) : (c.setLin i v).boost j = c.boost j := rfl
@[simp] theorem Chip.setLin_sink (c : Chip) (i : Nat) (v : Lin) (j : Nat) : (c.setLin i v).sink j = c.sink j := rfl
@[simp] theorem Chip.setLin_ntc (c : Chip) (i : Nat) (v : Lin) (j : Nat) : (c.setLin i v).ntc j = c.ntc j := rfl
@[simp] theorem Chip.setLin_si (c : Chip) (i : Nat) (v : Lin) (j : Nat) : (c.setLin i v).si j = c.si j := rfl
@[simp] theorem Chip.setLin_ain (c : Chip) (i : Nat) (v : Lin) (j : Nat) : (c.setLin i v).ain j = c.ain j := rfl
@[simp] theorem Chip.setLin_dout (c : Chip) (i : Nat) (v : Lin) (j : Nat) : (c.setLin i v).dout j = c.dout j := rfl
@[simp] theorem Chip.setLin_yard (c : Chip) (i : Nat) (v : Lin) (j : Nat) : (c.setLin i v).yard j = c.yard j := rfl
@[simp] theorem Chip.setLin_feed (c : Chip) (i : Nat) (v : Lin) (j : Nat) : (c.setLin i v).feed j = c.feed j := rfl
@[simp] theorem Chip.setLin_safe (c : Chip) (i : Nat) (v : Lin) (j : Nat) : (c.setLin i v).safe j = c.safe j := rfl
@[simp] theorem Chip.setLin_port (c : Chip) (i : Nat) (v : Lin) (j : Nat) : (c.setLin i v).port j = c.port j := rfl
@[simp] theorem Chip.setLin_timer (c : Chip) (i : Nat) (v : Lin) (j : Nat) : (c.setLin i v).timer j = c.timer j := rfl
@[simp] theorem Chip.setLin_seg (c : Chip) (i : Nat) (v : Lin) (j : Nat) : (c.setLin i v).seg j = c.seg j := rfl
@[simp] theorem Chip.setLin_can (c : Chip) (i : Nat) (v : Lin) (j : Nat) : (c.setLin i v).can j = c.can j := rfl
@[simp] theorem Chip.setLin_t1s (c : Chip) (i : Nat) (v : Lin) (j : Nat) : (c.setLin i v).t1s j = c.t1s j := rfl
@[simp] theorem Chip.setLin_bb (c : Chip) (i : Nat) (v : Lin) (j : Nat) : (c.setLin i v).bb j = c.bb j := rfl
@[simp] theorem Chip.setLin_ring (c : Chip) (i : Nat) (v : Lin) (pf : Nat) : (c.setLin i v).ring pf = c.ring pf := rfl
@[simp] theorem Chip.modLin_eq (c : Chip) (i : Nat) (f : Lin → Lin) : c.modLin i f = c.setLin i (f (c.lin i)) := rfl

-- T1s

@[simp] theorem Chip.setT1s_now (c : Chip) (i : Nat) (v : T1s) : (c.setT1s i v).now = c.now := rfl
@[simp] theorem Chip.setT1s_free (c : Chip) (i : Nat) (v : T1s) : (c.setT1s i v).free = c.free := rfl
@[simp] theorem Chip.setT1s_sys (c : Chip) (i : Nat) (v : T1s) : (c.setT1s i v).sys = c.sys := rfl
@[simp] theorem Chip.setT1s_mt (c : Chip) (i : Nat) (v : T1s) : (c.setT1s i v).mt = c.mt := rfl
@[simp] theorem Chip.setT1s_ring0 (c : Chip) (i : Nat) (v : T1s) : (c.setT1s i v).ring0 = c.ring0 := rfl
@[simp] theorem Chip.setT1s_ring1 (c : Chip) (i : Nat) (v : T1s) : (c.setT1s i v).ring1 = c.ring1 := rfl
@[simp] theorem Chip.setT1s_arb (c : Chip) (i : Nat) (v : T1s) : (c.setT1s i v).arb = c.arb := rfl
@[simp] theorem Chip.setT1s_jobs (c : Chip) (i : Nat) (v : T1s) : (c.setT1s i v).jobs = c.jobs := rfl
@[simp] theorem Chip.setT1s_nextJob (c : Chip) (i : Nat) (v : T1s) : (c.setT1s i v).nextJob = c.nextJob := rfl
@[simp] theorem Chip.setT1s_yards (c : Chip) (i : Nat) (v : T1s) : (c.setT1s i v).yards = c.yards := rfl
@[simp] theorem Chip.setT1s_feeds (c : Chip) (i : Nat) (v : T1s) : (c.setT1s i v).feeds = c.feeds := rfl
@[simp] theorem Chip.setT1s_budget (c : Chip) (i : Nat) (v : T1s) : (c.setT1s i v).budget = c.budget := rfl
@[simp] theorem Chip.setT1s_safes (c : Chip) (i : Nat) (v : T1s) : (c.setT1s i v).safes = c.safes := rfl
@[simp] theorem Chip.setT1s_halt (c : Chip) (i : Nat) (v : T1s) : (c.setT1s i v).halt = c.halt := rfl
@[simp] theorem Chip.setT1s_img (c : Chip) (i : Nat) (v : T1s) : (c.setT1s i v).img = c.img := rfl
@[simp] theorem Chip.setT1s_copy (c : Chip) (i : Nat) (v : T1s) : (c.setT1s i v).copy = c.copy := rfl
@[simp] theorem Chip.setT1s_curves (c : Chip) (i : Nat) (v : T1s) : (c.setT1s i v).curves = c.curves := rfl
@[simp] theorem Chip.setT1s_cross (c : Chip) (i : Nat) (v : T1s) : (c.setT1s i v).cross = c.cross := rfl
@[simp] theorem Chip.setT1s_seqs (c : Chip) (i : Nat) (v : T1s) : (c.setT1s i v).seqs = c.seqs := rfl
@[simp] theorem Chip.setT1s_ports (c : Chip) (i : Nat) (v : T1s) : (c.setT1s i v).ports = c.ports := rfl
@[simp] theorem Chip.setT1s_latches (c : Chip) (i : Nat) (v : T1s) : (c.setT1s i v).latches = c.latches := rfl
@[simp] theorem Chip.setT1s_timers (c : Chip) (i : Nat) (v : T1s) : (c.setT1s i v).timers = c.timers := rfl
@[simp] theorem Chip.setT1s_gstart (c : Chip) (i : Nat) (v : T1s) : (c.setT1s i v).gstart = c.gstart := rfl
@[simp] theorem Chip.setT1s_segs (c : Chip) (i : Nat) (v : T1s) : (c.setT1s i v).segs = c.segs := rfl
@[simp] theorem Chip.setT1s_cans (c : Chip) (i : Nat) (v : T1s) : (c.setT1s i v).cans = c.cans := rfl
@[simp] theorem Chip.setT1s_lins (c : Chip) (i : Nat) (v : T1s) : (c.setT1s i v).lins = c.lins := rfl
@[simp] theorem Chip.setT1s_bbs (c : Chip) (i : Nat) (v : T1s) : (c.setT1s i v).bbs = c.bbs := rfl
@[simp] theorem Chip.setT1s_hostPort (c : Chip) (i : Nat) (v : T1s) : (c.setT1s i v).hostPort = c.hostPort := rfl
@[simp] theorem Chip.setT1s_net (c : Chip) (i : Nat) (v : T1s) : (c.setT1s i v).net = c.net := rfl
@[simp] theorem Chip.setT1s_acc (c : Chip) (i : Nat) (v : T1s) : (c.setT1s i v).acc = c.acc := rfl
@[simp] theorem Chip.setT1s_upd (c : Chip) (i : Nat) (v : T1s) : (c.setT1s i v).upd = c.upd := rfl
@[simp] theorem Chip.setT1s_age (c : Chip) (i : Nat) (v : T1s) : (c.setT1s i v).age = c.age := rfl
@[simp] theorem Chip.setT1s_out (c : Chip) (i : Nat) (v : T1s) : (c.setT1s i v).out = c.out := rfl
@[simp] theorem Chip.setT1s_same (c : Chip) (i : Nat) (v : T1s) (j : Nat) : (c.setT1s i v).t1s j = if i = j then v else c.t1s j := UMap.get_put _ _ _ _ _
@[simp] theorem Chip.setT1s_twice (c : Chip) (i : Nat) (v : T1s) (w : T1s) : (c.setT1s i v).setT1s i w = c.setT1s i w := by
  simp [Chip.setT1s]
@[simp] theorem Chip.setT1s_stall (c : Chip) (i : Nat) (v : T1s) (j : Nat) : (c.setT1s i v).stall j = c.stall j := rfl
@[simp] theorem Chip.setT1s_row (c : Chip) (i : Nat) (v : T1s) (j : Nat) : (c.setT1s i v).row j = c.row j := rfl
@[simp] theorem Chip.setT1s_valve (c : Chip) (i : Nat) (v : T1s) (j : Nat) : (c.setT1s i v).valve j = c.valve j := rfl
@[simp] theorem Chip.setT1s_vg (c : Chip) (i : Nat) (v : T1s) (j : Nat) : (c.setT1s i v).vg j = c.vg j := rfl
@[simp] theorem Chip.setT1s_loop (c : Chip) (i : Nat) (v : T1s) (j : Nat) : (c.setT1s i v).loop j = c.loop j := rfl
@[simp] theorem Chip.setT1s_boost (c : Chip) (i : Nat) (v : T1s) (j : Nat) : (c.setT1s i v).boost j = c.boost j := rfl
@[simp] theorem Chip.setT1s_sink (c : Chip) (i : Nat) (v : T1s) (j : Nat) : (c.setT1s i v).sink j = c.sink j := rfl
@[simp] theorem Chip.setT1s_ntc (c : Chip) (i : Nat) (v : T1s) (j : Nat) : (c.setT1s i v).ntc j = c.ntc j := rfl
@[simp] theorem Chip.setT1s_si (c : Chip) (i : Nat) (v : T1s) (j : Nat) : (c.setT1s i v).si j = c.si j := rfl
@[simp] theorem Chip.setT1s_ain (c : Chip) (i : Nat) (v : T1s) (j : Nat) : (c.setT1s i v).ain j = c.ain j := rfl
@[simp] theorem Chip.setT1s_dout (c : Chip) (i : Nat) (v : T1s) (j : Nat) : (c.setT1s i v).dout j = c.dout j := rfl
@[simp] theorem Chip.setT1s_yard (c : Chip) (i : Nat) (v : T1s) (j : Nat) : (c.setT1s i v).yard j = c.yard j := rfl
@[simp] theorem Chip.setT1s_feed (c : Chip) (i : Nat) (v : T1s) (j : Nat) : (c.setT1s i v).feed j = c.feed j := rfl
@[simp] theorem Chip.setT1s_safe (c : Chip) (i : Nat) (v : T1s) (j : Nat) : (c.setT1s i v).safe j = c.safe j := rfl
@[simp] theorem Chip.setT1s_port (c : Chip) (i : Nat) (v : T1s) (j : Nat) : (c.setT1s i v).port j = c.port j := rfl
@[simp] theorem Chip.setT1s_timer (c : Chip) (i : Nat) (v : T1s) (j : Nat) : (c.setT1s i v).timer j = c.timer j := rfl
@[simp] theorem Chip.setT1s_seg (c : Chip) (i : Nat) (v : T1s) (j : Nat) : (c.setT1s i v).seg j = c.seg j := rfl
@[simp] theorem Chip.setT1s_can (c : Chip) (i : Nat) (v : T1s) (j : Nat) : (c.setT1s i v).can j = c.can j := rfl
@[simp] theorem Chip.setT1s_lin (c : Chip) (i : Nat) (v : T1s) (j : Nat) : (c.setT1s i v).lin j = c.lin j := rfl
@[simp] theorem Chip.setT1s_bb (c : Chip) (i : Nat) (v : T1s) (j : Nat) : (c.setT1s i v).bb j = c.bb j := rfl
@[simp] theorem Chip.setT1s_ring (c : Chip) (i : Nat) (v : T1s) (pf : Nat) : (c.setT1s i v).ring pf = c.ring pf := rfl
@[simp] theorem Chip.modT1s_eq (c : Chip) (i : Nat) (f : T1s → T1s) : c.modT1s i f = c.setT1s i (f (c.t1s i)) := rfl

-- Bb

@[simp] theorem Chip.setBb_now (c : Chip) (i : Nat) (v : Bb) : (c.setBb i v).now = c.now := rfl
@[simp] theorem Chip.setBb_free (c : Chip) (i : Nat) (v : Bb) : (c.setBb i v).free = c.free := rfl
@[simp] theorem Chip.setBb_sys (c : Chip) (i : Nat) (v : Bb) : (c.setBb i v).sys = c.sys := rfl
@[simp] theorem Chip.setBb_mt (c : Chip) (i : Nat) (v : Bb) : (c.setBb i v).mt = c.mt := rfl
@[simp] theorem Chip.setBb_ring0 (c : Chip) (i : Nat) (v : Bb) : (c.setBb i v).ring0 = c.ring0 := rfl
@[simp] theorem Chip.setBb_ring1 (c : Chip) (i : Nat) (v : Bb) : (c.setBb i v).ring1 = c.ring1 := rfl
@[simp] theorem Chip.setBb_arb (c : Chip) (i : Nat) (v : Bb) : (c.setBb i v).arb = c.arb := rfl
@[simp] theorem Chip.setBb_jobs (c : Chip) (i : Nat) (v : Bb) : (c.setBb i v).jobs = c.jobs := rfl
@[simp] theorem Chip.setBb_nextJob (c : Chip) (i : Nat) (v : Bb) : (c.setBb i v).nextJob = c.nextJob := rfl
@[simp] theorem Chip.setBb_yards (c : Chip) (i : Nat) (v : Bb) : (c.setBb i v).yards = c.yards := rfl
@[simp] theorem Chip.setBb_feeds (c : Chip) (i : Nat) (v : Bb) : (c.setBb i v).feeds = c.feeds := rfl
@[simp] theorem Chip.setBb_budget (c : Chip) (i : Nat) (v : Bb) : (c.setBb i v).budget = c.budget := rfl
@[simp] theorem Chip.setBb_safes (c : Chip) (i : Nat) (v : Bb) : (c.setBb i v).safes = c.safes := rfl
@[simp] theorem Chip.setBb_halt (c : Chip) (i : Nat) (v : Bb) : (c.setBb i v).halt = c.halt := rfl
@[simp] theorem Chip.setBb_img (c : Chip) (i : Nat) (v : Bb) : (c.setBb i v).img = c.img := rfl
@[simp] theorem Chip.setBb_copy (c : Chip) (i : Nat) (v : Bb) : (c.setBb i v).copy = c.copy := rfl
@[simp] theorem Chip.setBb_curves (c : Chip) (i : Nat) (v : Bb) : (c.setBb i v).curves = c.curves := rfl
@[simp] theorem Chip.setBb_cross (c : Chip) (i : Nat) (v : Bb) : (c.setBb i v).cross = c.cross := rfl
@[simp] theorem Chip.setBb_seqs (c : Chip) (i : Nat) (v : Bb) : (c.setBb i v).seqs = c.seqs := rfl
@[simp] theorem Chip.setBb_ports (c : Chip) (i : Nat) (v : Bb) : (c.setBb i v).ports = c.ports := rfl
@[simp] theorem Chip.setBb_latches (c : Chip) (i : Nat) (v : Bb) : (c.setBb i v).latches = c.latches := rfl
@[simp] theorem Chip.setBb_timers (c : Chip) (i : Nat) (v : Bb) : (c.setBb i v).timers = c.timers := rfl
@[simp] theorem Chip.setBb_gstart (c : Chip) (i : Nat) (v : Bb) : (c.setBb i v).gstart = c.gstart := rfl
@[simp] theorem Chip.setBb_segs (c : Chip) (i : Nat) (v : Bb) : (c.setBb i v).segs = c.segs := rfl
@[simp] theorem Chip.setBb_cans (c : Chip) (i : Nat) (v : Bb) : (c.setBb i v).cans = c.cans := rfl
@[simp] theorem Chip.setBb_lins (c : Chip) (i : Nat) (v : Bb) : (c.setBb i v).lins = c.lins := rfl
@[simp] theorem Chip.setBb_t1ss (c : Chip) (i : Nat) (v : Bb) : (c.setBb i v).t1ss = c.t1ss := rfl
@[simp] theorem Chip.setBb_hostPort (c : Chip) (i : Nat) (v : Bb) : (c.setBb i v).hostPort = c.hostPort := rfl
@[simp] theorem Chip.setBb_net (c : Chip) (i : Nat) (v : Bb) : (c.setBb i v).net = c.net := rfl
@[simp] theorem Chip.setBb_acc (c : Chip) (i : Nat) (v : Bb) : (c.setBb i v).acc = c.acc := rfl
@[simp] theorem Chip.setBb_upd (c : Chip) (i : Nat) (v : Bb) : (c.setBb i v).upd = c.upd := rfl
@[simp] theorem Chip.setBb_age (c : Chip) (i : Nat) (v : Bb) : (c.setBb i v).age = c.age := rfl
@[simp] theorem Chip.setBb_out (c : Chip) (i : Nat) (v : Bb) : (c.setBb i v).out = c.out := rfl
@[simp] theorem Chip.setBb_same (c : Chip) (i : Nat) (v : Bb) (j : Nat) : (c.setBb i v).bb j = if i = j then v else c.bb j := UMap.get_put _ _ _ _ _
@[simp] theorem Chip.setBb_twice (c : Chip) (i : Nat) (v : Bb) (w : Bb) : (c.setBb i v).setBb i w = c.setBb i w := by
  simp [Chip.setBb]
@[simp] theorem Chip.setBb_stall (c : Chip) (i : Nat) (v : Bb) (j : Nat) : (c.setBb i v).stall j = c.stall j := rfl
@[simp] theorem Chip.setBb_row (c : Chip) (i : Nat) (v : Bb) (j : Nat) : (c.setBb i v).row j = c.row j := rfl
@[simp] theorem Chip.setBb_valve (c : Chip) (i : Nat) (v : Bb) (j : Nat) : (c.setBb i v).valve j = c.valve j := rfl
@[simp] theorem Chip.setBb_vg (c : Chip) (i : Nat) (v : Bb) (j : Nat) : (c.setBb i v).vg j = c.vg j := rfl
@[simp] theorem Chip.setBb_loop (c : Chip) (i : Nat) (v : Bb) (j : Nat) : (c.setBb i v).loop j = c.loop j := rfl
@[simp] theorem Chip.setBb_boost (c : Chip) (i : Nat) (v : Bb) (j : Nat) : (c.setBb i v).boost j = c.boost j := rfl
@[simp] theorem Chip.setBb_sink (c : Chip) (i : Nat) (v : Bb) (j : Nat) : (c.setBb i v).sink j = c.sink j := rfl
@[simp] theorem Chip.setBb_ntc (c : Chip) (i : Nat) (v : Bb) (j : Nat) : (c.setBb i v).ntc j = c.ntc j := rfl
@[simp] theorem Chip.setBb_si (c : Chip) (i : Nat) (v : Bb) (j : Nat) : (c.setBb i v).si j = c.si j := rfl
@[simp] theorem Chip.setBb_ain (c : Chip) (i : Nat) (v : Bb) (j : Nat) : (c.setBb i v).ain j = c.ain j := rfl
@[simp] theorem Chip.setBb_dout (c : Chip) (i : Nat) (v : Bb) (j : Nat) : (c.setBb i v).dout j = c.dout j := rfl
@[simp] theorem Chip.setBb_yard (c : Chip) (i : Nat) (v : Bb) (j : Nat) : (c.setBb i v).yard j = c.yard j := rfl
@[simp] theorem Chip.setBb_feed (c : Chip) (i : Nat) (v : Bb) (j : Nat) : (c.setBb i v).feed j = c.feed j := rfl
@[simp] theorem Chip.setBb_safe (c : Chip) (i : Nat) (v : Bb) (j : Nat) : (c.setBb i v).safe j = c.safe j := rfl
@[simp] theorem Chip.setBb_port (c : Chip) (i : Nat) (v : Bb) (j : Nat) : (c.setBb i v).port j = c.port j := rfl
@[simp] theorem Chip.setBb_timer (c : Chip) (i : Nat) (v : Bb) (j : Nat) : (c.setBb i v).timer j = c.timer j := rfl
@[simp] theorem Chip.setBb_seg (c : Chip) (i : Nat) (v : Bb) (j : Nat) : (c.setBb i v).seg j = c.seg j := rfl
@[simp] theorem Chip.setBb_can (c : Chip) (i : Nat) (v : Bb) (j : Nat) : (c.setBb i v).can j = c.can j := rfl
@[simp] theorem Chip.setBb_lin (c : Chip) (i : Nat) (v : Bb) (j : Nat) : (c.setBb i v).lin j = c.lin j := rfl
@[simp] theorem Chip.setBb_t1s (c : Chip) (i : Nat) (v : Bb) (j : Nat) : (c.setBb i v).t1s j = c.t1s j := rfl
@[simp] theorem Chip.setBb_ring (c : Chip) (i : Nat) (v : Bb) (pf : Nat) : (c.setBb i v).ring pf = c.ring pf := rfl
@[simp] theorem Chip.modBb_eq (c : Chip) (i : Nat) (f : Bb → Bb) : c.modBb i f = c.setBb i (f (c.bb i)) := rfl

-- Sending

@[simp] theorem Chip.emit_now (o : Out) (c : Chip) : (c.emit o).now = c.now := rfl
@[simp] theorem Chip.emit_free (o : Out) (c : Chip) : (c.emit o).free = c.free := rfl
@[simp] theorem Chip.emit_sys (o : Out) (c : Chip) : (c.emit o).sys = c.sys := rfl
@[simp] theorem Chip.emit_mt (o : Out) (c : Chip) : (c.emit o).mt = c.mt := rfl
@[simp] theorem Chip.emit_ring0 (o : Out) (c : Chip) : (c.emit o).ring0 = c.ring0 := rfl
@[simp] theorem Chip.emit_ring1 (o : Out) (c : Chip) : (c.emit o).ring1 = c.ring1 := rfl
@[simp] theorem Chip.emit_arb (o : Out) (c : Chip) : (c.emit o).arb = c.arb := rfl
@[simp] theorem Chip.emit_jobs (o : Out) (c : Chip) : (c.emit o).jobs = c.jobs := rfl
@[simp] theorem Chip.emit_nextJob (o : Out) (c : Chip) : (c.emit o).nextJob = c.nextJob := rfl
@[simp] theorem Chip.emit_yards (o : Out) (c : Chip) : (c.emit o).yards = c.yards := rfl
@[simp] theorem Chip.emit_feeds (o : Out) (c : Chip) : (c.emit o).feeds = c.feeds := rfl
@[simp] theorem Chip.emit_budget (o : Out) (c : Chip) : (c.emit o).budget = c.budget := rfl
@[simp] theorem Chip.emit_safes (o : Out) (c : Chip) : (c.emit o).safes = c.safes := rfl
@[simp] theorem Chip.emit_halt (o : Out) (c : Chip) : (c.emit o).halt = c.halt := rfl
@[simp] theorem Chip.emit_img (o : Out) (c : Chip) : (c.emit o).img = c.img := rfl
@[simp] theorem Chip.emit_copy (o : Out) (c : Chip) : (c.emit o).copy = c.copy := rfl
@[simp] theorem Chip.emit_curves (o : Out) (c : Chip) : (c.emit o).curves = c.curves := rfl
@[simp] theorem Chip.emit_cross (o : Out) (c : Chip) : (c.emit o).cross = c.cross := rfl
@[simp] theorem Chip.emit_seqs (o : Out) (c : Chip) : (c.emit o).seqs = c.seqs := rfl
@[simp] theorem Chip.emit_ports (o : Out) (c : Chip) : (c.emit o).ports = c.ports := rfl
@[simp] theorem Chip.emit_latches (o : Out) (c : Chip) : (c.emit o).latches = c.latches := rfl
@[simp] theorem Chip.emit_timers (o : Out) (c : Chip) : (c.emit o).timers = c.timers := rfl
@[simp] theorem Chip.emit_gstart (o : Out) (c : Chip) : (c.emit o).gstart = c.gstart := rfl
@[simp] theorem Chip.emit_segs (o : Out) (c : Chip) : (c.emit o).segs = c.segs := rfl
@[simp] theorem Chip.emit_cans (o : Out) (c : Chip) : (c.emit o).cans = c.cans := rfl
@[simp] theorem Chip.emit_lins (o : Out) (c : Chip) : (c.emit o).lins = c.lins := rfl
@[simp] theorem Chip.emit_t1ss (o : Out) (c : Chip) : (c.emit o).t1ss = c.t1ss := rfl
@[simp] theorem Chip.emit_bbs (o : Out) (c : Chip) : (c.emit o).bbs = c.bbs := rfl
@[simp] theorem Chip.emit_hostPort (o : Out) (c : Chip) : (c.emit o).hostPort = c.hostPort := rfl
@[simp] theorem Chip.emit_net (o : Out) (c : Chip) : (c.emit o).net = c.net := rfl
@[simp] theorem Chip.emit_acc (o : Out) (c : Chip) : (c.emit o).acc = c.acc := rfl
@[simp] theorem Chip.emit_upd (o : Out) (c : Chip) : (c.emit o).upd = c.upd := rfl
@[simp] theorem Chip.emit_age (o : Out) (c : Chip) : (c.emit o).age = c.age := rfl
@[simp] theorem Chip.emit_at_stall (o : Out) (c : Chip) (j : Nat) : (c.emit o).stall j = c.stall j := rfl
@[simp] theorem Chip.emit_at_row (o : Out) (c : Chip) (j : Nat) : (c.emit o).row j = c.row j := rfl
@[simp] theorem Chip.emit_at_valve (o : Out) (c : Chip) (j : Nat) : (c.emit o).valve j = c.valve j := rfl
@[simp] theorem Chip.emit_at_vg (o : Out) (c : Chip) (j : Nat) : (c.emit o).vg j = c.vg j := rfl
@[simp] theorem Chip.emit_at_loop (o : Out) (c : Chip) (j : Nat) : (c.emit o).loop j = c.loop j := rfl
@[simp] theorem Chip.emit_at_boost (o : Out) (c : Chip) (j : Nat) : (c.emit o).boost j = c.boost j := rfl
@[simp] theorem Chip.emit_at_sink (o : Out) (c : Chip) (j : Nat) : (c.emit o).sink j = c.sink j := rfl
@[simp] theorem Chip.emit_at_ntc (o : Out) (c : Chip) (j : Nat) : (c.emit o).ntc j = c.ntc j := rfl
@[simp] theorem Chip.emit_at_si (o : Out) (c : Chip) (j : Nat) : (c.emit o).si j = c.si j := rfl
@[simp] theorem Chip.emit_at_ain (o : Out) (c : Chip) (j : Nat) : (c.emit o).ain j = c.ain j := rfl
@[simp] theorem Chip.emit_at_dout (o : Out) (c : Chip) (j : Nat) : (c.emit o).dout j = c.dout j := rfl
@[simp] theorem Chip.emit_at_yard (o : Out) (c : Chip) (j : Nat) : (c.emit o).yard j = c.yard j := rfl
@[simp] theorem Chip.emit_at_feed (o : Out) (c : Chip) (j : Nat) : (c.emit o).feed j = c.feed j := rfl
@[simp] theorem Chip.emit_at_safe (o : Out) (c : Chip) (j : Nat) : (c.emit o).safe j = c.safe j := rfl
@[simp] theorem Chip.emit_at_port (o : Out) (c : Chip) (j : Nat) : (c.emit o).port j = c.port j := rfl
@[simp] theorem Chip.emit_at_timer (o : Out) (c : Chip) (j : Nat) : (c.emit o).timer j = c.timer j := rfl
@[simp] theorem Chip.emit_at_seg (o : Out) (c : Chip) (j : Nat) : (c.emit o).seg j = c.seg j := rfl
@[simp] theorem Chip.emit_at_can (o : Out) (c : Chip) (j : Nat) : (c.emit o).can j = c.can j := rfl
@[simp] theorem Chip.emit_at_lin (o : Out) (c : Chip) (j : Nat) : (c.emit o).lin j = c.lin j := rfl
@[simp] theorem Chip.emit_at_t1s (o : Out) (c : Chip) (j : Nat) : (c.emit o).t1s j = c.t1s j := rfl
@[simp] theorem Chip.emit_at_bb (o : Out) (c : Chip) (j : Nat) : (c.emit o).bb j = c.bb j := rfl
@[simp] theorem Chip.emit_at_ring (o : Out) (c : Chip) (j : Nat) : (c.emit o).ring j = c.ring j := rfl
@[simp] theorem Chip.emit_out (o : Out) (c : Chip) : (c.emit o).out = o :: c.out := rfl

-- Rings

@[simp] theorem Chip.setRing_now (c : Chip) (pf : Nat) (g : Ring) : (c.setRing pf g).now = c.now := by
  unfold Chip.setRing; split <;> rfl
@[simp] theorem Chip.setRing_free (c : Chip) (pf : Nat) (g : Ring) : (c.setRing pf g).free = c.free := by
  unfold Chip.setRing; split <;> rfl
@[simp] theorem Chip.setRing_sys (c : Chip) (pf : Nat) (g : Ring) : (c.setRing pf g).sys = c.sys := by
  unfold Chip.setRing; split <;> rfl
@[simp] theorem Chip.setRing_mt (c : Chip) (pf : Nat) (g : Ring) : (c.setRing pf g).mt = c.mt := by
  unfold Chip.setRing; split <;> rfl
@[simp] theorem Chip.setRing_arb (c : Chip) (pf : Nat) (g : Ring) : (c.setRing pf g).arb = c.arb := by
  unfold Chip.setRing; split <;> rfl
@[simp] theorem Chip.setRing_jobs (c : Chip) (pf : Nat) (g : Ring) : (c.setRing pf g).jobs = c.jobs := by
  unfold Chip.setRing; split <;> rfl
@[simp] theorem Chip.setRing_nextJob (c : Chip) (pf : Nat) (g : Ring) : (c.setRing pf g).nextJob = c.nextJob := by
  unfold Chip.setRing; split <;> rfl
@[simp] theorem Chip.setRing_yards (c : Chip) (pf : Nat) (g : Ring) : (c.setRing pf g).yards = c.yards := by
  unfold Chip.setRing; split <;> rfl
@[simp] theorem Chip.setRing_feeds (c : Chip) (pf : Nat) (g : Ring) : (c.setRing pf g).feeds = c.feeds := by
  unfold Chip.setRing; split <;> rfl
@[simp] theorem Chip.setRing_budget (c : Chip) (pf : Nat) (g : Ring) : (c.setRing pf g).budget = c.budget := by
  unfold Chip.setRing; split <;> rfl
@[simp] theorem Chip.setRing_safes (c : Chip) (pf : Nat) (g : Ring) : (c.setRing pf g).safes = c.safes := by
  unfold Chip.setRing; split <;> rfl
@[simp] theorem Chip.setRing_halt (c : Chip) (pf : Nat) (g : Ring) : (c.setRing pf g).halt = c.halt := by
  unfold Chip.setRing; split <;> rfl
@[simp] theorem Chip.setRing_img (c : Chip) (pf : Nat) (g : Ring) : (c.setRing pf g).img = c.img := by
  unfold Chip.setRing; split <;> rfl
@[simp] theorem Chip.setRing_copy (c : Chip) (pf : Nat) (g : Ring) : (c.setRing pf g).copy = c.copy := by
  unfold Chip.setRing; split <;> rfl
@[simp] theorem Chip.setRing_curves (c : Chip) (pf : Nat) (g : Ring) : (c.setRing pf g).curves = c.curves := by
  unfold Chip.setRing; split <;> rfl
@[simp] theorem Chip.setRing_cross (c : Chip) (pf : Nat) (g : Ring) : (c.setRing pf g).cross = c.cross := by
  unfold Chip.setRing; split <;> rfl
@[simp] theorem Chip.setRing_seqs (c : Chip) (pf : Nat) (g : Ring) : (c.setRing pf g).seqs = c.seqs := by
  unfold Chip.setRing; split <;> rfl
@[simp] theorem Chip.setRing_ports (c : Chip) (pf : Nat) (g : Ring) : (c.setRing pf g).ports = c.ports := by
  unfold Chip.setRing; split <;> rfl
@[simp] theorem Chip.setRing_latches (c : Chip) (pf : Nat) (g : Ring) : (c.setRing pf g).latches = c.latches := by
  unfold Chip.setRing; split <;> rfl
@[simp] theorem Chip.setRing_timers (c : Chip) (pf : Nat) (g : Ring) : (c.setRing pf g).timers = c.timers := by
  unfold Chip.setRing; split <;> rfl
@[simp] theorem Chip.setRing_gstart (c : Chip) (pf : Nat) (g : Ring) : (c.setRing pf g).gstart = c.gstart := by
  unfold Chip.setRing; split <;> rfl
@[simp] theorem Chip.setRing_segs (c : Chip) (pf : Nat) (g : Ring) : (c.setRing pf g).segs = c.segs := by
  unfold Chip.setRing; split <;> rfl
@[simp] theorem Chip.setRing_cans (c : Chip) (pf : Nat) (g : Ring) : (c.setRing pf g).cans = c.cans := by
  unfold Chip.setRing; split <;> rfl
@[simp] theorem Chip.setRing_lins (c : Chip) (pf : Nat) (g : Ring) : (c.setRing pf g).lins = c.lins := by
  unfold Chip.setRing; split <;> rfl
@[simp] theorem Chip.setRing_t1ss (c : Chip) (pf : Nat) (g : Ring) : (c.setRing pf g).t1ss = c.t1ss := by
  unfold Chip.setRing; split <;> rfl
@[simp] theorem Chip.setRing_bbs (c : Chip) (pf : Nat) (g : Ring) : (c.setRing pf g).bbs = c.bbs := by
  unfold Chip.setRing; split <;> rfl
@[simp] theorem Chip.setRing_hostPort (c : Chip) (pf : Nat) (g : Ring) : (c.setRing pf g).hostPort = c.hostPort := by
  unfold Chip.setRing; split <;> rfl
@[simp] theorem Chip.setRing_net (c : Chip) (pf : Nat) (g : Ring) : (c.setRing pf g).net = c.net := by
  unfold Chip.setRing; split <;> rfl
@[simp] theorem Chip.setRing_acc (c : Chip) (pf : Nat) (g : Ring) : (c.setRing pf g).acc = c.acc := by
  unfold Chip.setRing; split <;> rfl
@[simp] theorem Chip.setRing_upd (c : Chip) (pf : Nat) (g : Ring) : (c.setRing pf g).upd = c.upd := by
  unfold Chip.setRing; split <;> rfl
@[simp] theorem Chip.setRing_age (c : Chip) (pf : Nat) (g : Ring) : (c.setRing pf g).age = c.age := by
  unfold Chip.setRing; split <;> rfl
@[simp] theorem Chip.setRing_out (c : Chip) (pf : Nat) (g : Ring) : (c.setRing pf g).out = c.out := by
  unfold Chip.setRing; split <;> rfl
@[simp] theorem Chip.setRing_at_stall (c : Chip) (pf : Nat) (g : Ring) (j : Nat) : (c.setRing pf g).stall j = c.stall j := by
  unfold Chip.setRing; split <;> rfl
@[simp] theorem Chip.setRing_at_row (c : Chip) (pf : Nat) (g : Ring) (j : Nat) : (c.setRing pf g).row j = c.row j := by
  unfold Chip.setRing; split <;> rfl
@[simp] theorem Chip.setRing_at_valve (c : Chip) (pf : Nat) (g : Ring) (j : Nat) : (c.setRing pf g).valve j = c.valve j := by
  unfold Chip.setRing; split <;> rfl
@[simp] theorem Chip.setRing_at_vg (c : Chip) (pf : Nat) (g : Ring) (j : Nat) : (c.setRing pf g).vg j = c.vg j := by
  unfold Chip.setRing; split <;> rfl
@[simp] theorem Chip.setRing_at_loop (c : Chip) (pf : Nat) (g : Ring) (j : Nat) : (c.setRing pf g).loop j = c.loop j := by
  unfold Chip.setRing; split <;> rfl
@[simp] theorem Chip.setRing_at_boost (c : Chip) (pf : Nat) (g : Ring) (j : Nat) : (c.setRing pf g).boost j = c.boost j := by
  unfold Chip.setRing; split <;> rfl
@[simp] theorem Chip.setRing_at_sink (c : Chip) (pf : Nat) (g : Ring) (j : Nat) : (c.setRing pf g).sink j = c.sink j := by
  unfold Chip.setRing; split <;> rfl
@[simp] theorem Chip.setRing_at_ntc (c : Chip) (pf : Nat) (g : Ring) (j : Nat) : (c.setRing pf g).ntc j = c.ntc j := by
  unfold Chip.setRing; split <;> rfl
@[simp] theorem Chip.setRing_at_si (c : Chip) (pf : Nat) (g : Ring) (j : Nat) : (c.setRing pf g).si j = c.si j := by
  unfold Chip.setRing; split <;> rfl
@[simp] theorem Chip.setRing_at_ain (c : Chip) (pf : Nat) (g : Ring) (j : Nat) : (c.setRing pf g).ain j = c.ain j := by
  unfold Chip.setRing; split <;> rfl
@[simp] theorem Chip.setRing_at_dout (c : Chip) (pf : Nat) (g : Ring) (j : Nat) : (c.setRing pf g).dout j = c.dout j := by
  unfold Chip.setRing; split <;> rfl
@[simp] theorem Chip.setRing_at_yard (c : Chip) (pf : Nat) (g : Ring) (j : Nat) : (c.setRing pf g).yard j = c.yard j := by
  unfold Chip.setRing; split <;> rfl
@[simp] theorem Chip.setRing_at_feed (c : Chip) (pf : Nat) (g : Ring) (j : Nat) : (c.setRing pf g).feed j = c.feed j := by
  unfold Chip.setRing; split <;> rfl
@[simp] theorem Chip.setRing_at_safe (c : Chip) (pf : Nat) (g : Ring) (j : Nat) : (c.setRing pf g).safe j = c.safe j := by
  unfold Chip.setRing; split <;> rfl
@[simp] theorem Chip.setRing_at_port (c : Chip) (pf : Nat) (g : Ring) (j : Nat) : (c.setRing pf g).port j = c.port j := by
  unfold Chip.setRing; split <;> rfl
@[simp] theorem Chip.setRing_at_timer (c : Chip) (pf : Nat) (g : Ring) (j : Nat) : (c.setRing pf g).timer j = c.timer j := by
  unfold Chip.setRing; split <;> rfl
@[simp] theorem Chip.setRing_at_seg (c : Chip) (pf : Nat) (g : Ring) (j : Nat) : (c.setRing pf g).seg j = c.seg j := by
  unfold Chip.setRing; split <;> rfl
@[simp] theorem Chip.setRing_at_can (c : Chip) (pf : Nat) (g : Ring) (j : Nat) : (c.setRing pf g).can j = c.can j := by
  unfold Chip.setRing; split <;> rfl
@[simp] theorem Chip.setRing_at_lin (c : Chip) (pf : Nat) (g : Ring) (j : Nat) : (c.setRing pf g).lin j = c.lin j := by
  unfold Chip.setRing; split <;> rfl
@[simp] theorem Chip.setRing_at_t1s (c : Chip) (pf : Nat) (g : Ring) (j : Nat) : (c.setRing pf g).t1s j = c.t1s j := by
  unfold Chip.setRing; split <;> rfl
@[simp] theorem Chip.setRing_at_bb (c : Chip) (pf : Nat) (g : Ring) (j : Nat) : (c.setRing pf g).bb j = c.bb j := by
  unfold Chip.setRing; split <;> rfl
@[simp] theorem Chip.setRing_same (c : Chip) (pf : Nat) (g : Ring) : (c.setRing pf g).ring pf = g := by
  unfold Chip.setRing Chip.ring; split <;> rfl
@[simp] theorem Chip.modRing_eq (c : Chip) (pf : Nat) (f : Ring → Ring) : c.modRing pf f = c.setRing pf (f (c.ring pf)) := rfl
@[simp] theorem Ring.setSq_sqAt (g : Ring) (n : Nat) (v : Sq) (k : Nat) : (g.setSq n v).sqAt k = if n = k then v else g.sqAt k := UMap.get_put _ _ _ _ _
@[simp] theorem Ring.setSq_cqAt (g : Ring) (n : Nat) (v : Sq) (k : Nat) : (g.setSq n v).cqAt k = g.cqAt k := rfl
@[simp] theorem Ring.setCq_cqAt (g : Ring) (n : Nat) (v : Cq) (k : Nat) : (g.setCq n v).cqAt k = if n = k then v else g.cqAt k := UMap.get_put _ _ _ _ _
@[simp] theorem Ring.setCq_sqAt (g : Ring) (n : Nat) (v : Cq) (k : Nat) : (g.setCq n v).sqAt k = g.sqAt k := rfl
@[simp] theorem Ring.setSq_eq (g : Ring) (n : Nat) (v : Sq) : (g.setSq n v).eq = g.eq := rfl
@[simp] theorem Ring.setCq_eq (g : Ring) (n : Nat) (v : Cq) : (g.setCq n v).eq = g.eq := rfl
@[simp] theorem Ring.setSq_dmaOk (g : Ring) (n : Nat) (v : Sq) : (g.setSq n v).dmaOk = g.dmaOk := rfl
@[simp] theorem Ring.setCq_dmaOk (g : Ring) (n : Nat) (v : Cq) : (g.setCq n v).dmaOk = g.dmaOk := rfl
@[simp] theorem Ring.setSq_msgOk (g : Ring) (n : Nat) (v : Sq) : (g.setSq n v).msgOk = g.msgOk := rfl
@[simp] theorem Ring.setCq_msgOk (g : Ring) (n : Nat) (v : Cq) : (g.setCq n v).msgOk = g.msgOk := rfl

end Sys2Proof.Machine
end

