-- ==== Sys2Proof/Laws/Report.lean ====
section
/-!
SUPPORT. Sys2Proof/Laws/Report.lean: what posting an event or a completion changes: the rings, what is sent, and the descriptors in progress,
and nothing else (04 R88, R93, R96, R99). One lemma for each shared operation, and one for each field it leaves.
-/

namespace Sys2Proof.Machine

open Sys2Proof.Safety

/-- What an operation that only reports to CTL's rings may change. -/
structure Posts (c d : Chip) : Prop where
  rest : chipRest d = chipRest c
  yards : d.yards = c.yards
  jobs : d.jobs = c.jobs
  nextJob : d.nextJob = c.nextJob
  free : d.free = c.free
  ring0 : ringRest d.ring0 = ringRest c.ring0
  ring1 : ringRest d.ring1 = ringRest c.ring1
  sent : c.out <:+ d.out

theorem Posts.refl (c : Chip) : Posts c c := ⟨rfl, rfl, rfl, rfl, rfl, rfl, rfl, List.suffix_refl _⟩

theorem Posts.trans {a b c : Chip} (h : Posts a b) (k : Posts b c) : Posts a c :=
  ⟨k.rest.trans h.rest, k.yards.trans h.yards, k.jobs.trans h.jobs, k.nextJob.trans h.nextJob, k.free.trans h.free,
    k.ring0.trans h.ring0, k.ring1.trans h.ring1, h.sent.trans k.sent⟩

theorem posts_emit (o : Out) (c : Chip) : Posts c (c.emit o) := ⟨rfl, rfl, rfl, rfl, rfl, rfl, rfl, List.suffix_cons _ _⟩

theorem posts_setRing (pf : Nat) (g : Ring) (c : Chip) (h : ringRest g = ringRest (c.ring pf)) : Posts c (c.setRing pf g) := by
  unfold Chip.setRing
  unfold Chip.ring at h
  split at h <;> rename_i hp <;> simp only [hp, if_true, if_false] <;>
    refine ⟨?_, rfl, rfl, rfl, rfl, ?_, ?_, List.suffix_refl _⟩ <;> simp [chipRest, h]

theorem posts_msix (r : Regs) (pf vec : Nat) (c : Chip) : Posts c (msix r pf vec c) := by
  unfold msix
  simp only
  split
  · exact posts_emit _ _
  · exact posts_setRing _ _ _ rfl

theorem posts_emitIf (b : Bool) (o : Out) (c : Chip) : Posts c (if b = true then c.emit o else c) := by
  split
  · exact posts_emit _ _
  · exact Posts.refl _

theorem posts_writeRecord (r : Regs) (pf : Nat) (ev : Ev) (c : Chip) : Posts c (writeRecord r pf ev c) := by
  unfold writeRecord
  simp only
  split
  · refine Posts.trans ?_ (posts_msix _ _ _ _)
    refine Posts.trans ?_ (posts_setRing _ _ _ ?_)
    · exact posts_emitIf _ _ _
    · rfl
  · refine Posts.trans ?_ (posts_setRing _ _ _ ?_)
    · exact posts_emitIf _ _ _
    · rfl

theorem posts_drainCollapsed (r : Regs) (pf n : Nat) (c : Chip) : Posts c (drainCollapsed r pf n c) := by
  induction n generalizing c with
  | zero => exact Posts.refl _
  | succ n ih =>
    unfold drainCollapsed
    simp only
    split
    · exact Posts.refl _
    · split
      · exact posts_setRing _ _ _ rfl
      · split
        · refine Posts.trans ?_ (ih _)
          refine Posts.trans ?_ (posts_writeRecord _ _ _ _)
          exact posts_setRing _ _ _ rfl
        · exact Posts.refl _

theorem posts_overflowRecord (r : Regs) (pf t : Nat) (c : Chip) : Posts c (overflowRecord r pf t c) :=
  (posts_writeRecord _ _ _ _).trans (posts_setRing _ _ _ rfl)

theorem posts_postEvent (r : Regs) (pf : Nat) (ev : Ev) (c : Chip) : Posts c (postEvent r pf ev c) := by
  unfold postEvent
  simp only
  split
  · split <;> exact posts_setRing _ _ _ rfl
  · split
    · exact Posts.refl _
    · split
      · refine Posts.trans ?_ (posts_drainCollapsed _ _ _ _)
        exact posts_setRing _ _ _ rfl
      · split
        · exact posts_writeRecord _ _ _ _
        · refine Posts.trans (posts_overflowRecord r pf ev.t c) ?_
          exact posts_setRing _ _ _ rfl

theorem posts_postAll (r : Regs) (ev : Ev) (c : Chip) : Posts c (postAll r ev c) := by
  unfold postAll
  split
  · rename_i hp
    clear hp
    generalize srcFns r ev.src = l
    induction l generalizing c with
    | nil => exact Posts.refl _
    | cons pf l ih => exact (posts_postEvent r pf ev c).trans (ih _)
  · exact Posts.refl _

theorem posts_raise (r : Regs) (src cls pay : Nat) (c : Chip) : Posts c (raise r src cls pay c) := posts_postAll _ _ _

theorem posts_raiseFn (r : Regs) (pf src cls pay : Nat) (c : Chip) : Posts c (raiseFn r pf src cls pay c) := by
  unfold raiseFn
  split
  · exact posts_postEvent _ _ _ _
  · exact Posts.refl _

theorem posts_cqSignal (r : Regs) (pf cq : Nat) (c : Chip) : Posts c (cqSignal r pf cq c) := by
  unfold cqSignal
  simp only
  split
  · exact Posts.refl _
  · split
    · exact posts_setRing _ _ _ rfl
    · split
      · exact posts_msix _ _ _ _
      · exact (posts_msix _ _ _ _).trans (posts_setRing _ _ _ rfl)

theorem posts_postEntry (r : Regs) (h : Hdr) (cq status t result : Nat) (c : Chip) : Posts c (postEntry r h cq status t result c) := by
  unfold postEntry
  simp only
  refine Posts.trans ?_ (posts_cqSignal _ _ _ _)
  refine Posts.trans ?_ (posts_setRing _ _ _ ?_)
  · exact posts_emitIf _ _ _
  · rfl

theorem posts_releaseSlot (pf cq : Nat) (c : Chip) : Posts c (releaseSlot pf cq c) := posts_setRing _ _ _ rfl

theorem posts_dma (pf addr : Nat) (bytes : List Nat) (c : Chip) : Posts c (dma pf addr bytes c) := by
  unfold dma
  split
  · exact posts_emit _ _
  · exact Posts.refl _

theorem posts_dmaJob (id addr : Nat) (bytes : List Nat) (c : Chip) : Posts c (dmaJob id addr bytes c) := by
  unfold dmaJob
  split
  · exact posts_dma _ _ _ _
  · exact Posts.refl _

/-- What an operation that reports and ends descriptors may change. -/
structure Ends (c d : Chip) : Prop where
  rest : chipRest d = chipRest c
  yards : d.yards = c.yards
  free : d.free = c.free
  ring0 : ringRest d.ring0 = ringRest c.ring0
  ring1 : ringRest d.ring1 = ringRest c.ring1
  sent : c.out <:+ d.out

theorem Posts.ends {c d : Chip} (h : Posts c d) : Ends c d := ⟨h.rest, h.yards, h.free, h.ring0, h.ring1, h.sent⟩

theorem Ends.refl (c : Chip) : Ends c c := ⟨rfl, rfl, rfl, rfl, rfl, List.suffix_refl _⟩

theorem Ends.trans {a b c : Chip} (h : Ends a b) (k : Ends b c) : Ends a c :=
  ⟨k.rest.trans h.rest, k.yards.trans h.yards, k.free.trans h.free, k.ring0.trans h.ring0, k.ring1.trans h.ring1, h.sent.trans k.sent⟩

theorem ends_jobs (l : List Job) (c : Chip) : Ends c { c with jobs := l } := ⟨rfl, rfl, rfl, rfl, rfl, List.suffix_refl _⟩

theorem ends_completeAt (r : Regs) (id status result t : Nat) (c : Chip) : Ends c (completeAt r id status result t c) := by
  unfold completeAt
  split
  · exact Ends.refl _
  · rename_i j _
    have h := ends_jobs (c.jobs.filter fun k => !(k.id == id)) c
    simp only
    by_cases ht : j.turn.isSome = true
    · rw [if_pos ht]
      split
      · exact ends_jobs _ _
      · exact Ends.refl _
    · rw [if_neg ht]
      split
      · exact h
      · split
        · exact h.trans (posts_releaseSlot _ _ _).ends
        · exact h.trans (posts_postEntry _ _ _ _ _ _ _).ends

theorem ends_complete (r : Regs) (id status result : Nat) (c : Chip) : Ends c (complete r id status result c) :=
  ends_completeAt _ _ _ _ _ _

theorem ends_completeAll (r : Regs) (ids : List Nat) (status : Nat) (c : Chip) : Ends c (completeAll r ids status c) := by
  unfold completeAll
  induction ids generalizing c with
  | nil => exact Ends.refl _
  | cons id ids ih => exact (ends_complete _ _ _ _ _).trans (ih _)

theorem ends_updJob (id : Nat) (f : Job → Job) (c : Chip) : Ends c (updJob id f c) := ends_jobs _ _

theorem ends_setWaiting (id : Nat) (b : Bool) (c : Chip) : Ends c (setWaiting id b c) := ends_updJob _ _ _

theorem ends_newJob (r : Regs) (d : Desc) (h : Hdr) (op : Instr) (c : Chip) : Ends c (newJob r d h op c) := by
  unfold newJob
  simp only
  have h1 := (posts_setRing h.pf.val ((c.ring h.pf.val).setSq h.sq.val { (c.ring h.pf.val).sqAt h.sq.val with fenceWait := false } |>.setCq
    (sqCq r h.pf.val h.sq.val) { (c.ring h.pf.val).cqAt (sqCq r h.pf.val h.sq.val) with
      reserved := ((c.ring h.pf.val).cqAt (sqCq r h.pf.val h.sq.val)).reserved + 1 }) c rfl).ends
  exact ⟨h1.rest, h1.yards, h1.free, h1.ring0, h1.ring1, h1.sent⟩

theorem ends_jobOutcome (r : Regs) (id st res t : Nat) (c : Chip) : Ends c (jobOutcome r id st res t c) := by
  unfold jobOutcome
  split
  · split
    · exact ends_completeAt _ _ _ _ _ _
    · exact ends_updJob _ _ _
  · exact Ends.refl _

/-- What an operation that reports from a yard may change: as `Ends`, and what waits on a guyline. -/
structure Tells (c d : Chip) : Prop where
  rest : chipRest d = chipRest c
  yard : ∀ y, yardRest (d.yard y) = yardRest (c.yard y)
  ring0 : ringRest d.ring0 = ringRest c.ring0
  ring1 : ringRest d.ring1 = ringRest c.ring1
  sent : c.out <:+ d.out

theorem Ends.tells {c d : Chip} (h : Ends c d) : Tells c d :=
  ⟨h.rest, fun y => by simp [Chip.yard, h.yards], h.ring0, h.ring1, h.sent⟩

theorem Tells.refl (c : Chip) : Tells c c := ⟨rfl, fun _ => rfl, rfl, rfl, List.suffix_refl _⟩

theorem Tells.trans {a b c : Chip} (h : Tells a b) (k : Tells b c) : Tells a c :=
  ⟨k.rest.trans h.rest, fun y => (k.yard y).trans (h.yard y), k.ring0.trans h.ring0, k.ring1.trans h.ring1, h.sent.trans k.sent⟩

theorem tells_setYard (y : Nat) (v : Yard) (c : Chip) (h : yardRest v = yardRest (c.yard y)) : Tells c (c.setYard y v) := by
  refine ⟨rfl, fun k => ?_, rfl, rfl, List.suffix_refl _⟩
  by_cases hk : y = k
  · subst hk; simp [h]
  · simp [hk]

theorem tells_yardEventAt (src cls pay t : Nat) (c : Chip) : Tells c (yardEventAt src cls pay t c) := by
  unfold yardEventAt
  split
  · split
    · exact Tells.refl _
    · exact tells_setYard _ _ _ rfl
  · exact Tells.refl _

theorem tells_yardEvent (src cls pay : Nat) (c : Chip) : Tells c (yardEvent src cls pay c) := tells_yardEventAt _ _ _ _ _

theorem tells_stallEvent (r : Regs) (i cause cls : Nat) (c : Chip) : Tells c (stallEvent r i cause cls c) := tells_yardEvent _ _ _ _

theorem tells_yardResult (y id status result : Nat) (c : Chip) : Tells c (yardResult y id status result c) := tells_setYard _ _ _ rfl

theorem tells_yardResultOpt (y : Nat) (id : Option Nat) (status result : Nat) (c : Chip) : Tells c (yardResultOpt y id status result c) := by
  unfold yardResultOpt
  split
  · exact tells_yardResult _ _ _ _ _
  · exact Tells.refl _

theorem tells_yardResults (y : Nat) (ids : List Nat) (st res : Nat) (c : Chip) :
    Tells c (ids.foldl (fun c id => yardResult y id st res c) c) := by
  induction ids generalizing c with
  | nil => exact Tells.refl _
  | cons id ids ih => exact (tells_yardResult _ _ _ _ _).trans (ih _)

theorem tells_sendFrame (y off val : Nat) (who : Option (Nat × Option Nat)) (done : Bool) (c : Chip) :
    Tells c (sendFrame y off val who done c) := by
  unfold sendFrame
  simp only
  split
  · refine Tells.trans ?_ (posts_emit _ _).ends.tells
    exact tells_setYard _ _ _ rfl
  · exact tells_setYard _ _ _ rfl

/-- A state reached by reporting is the same but for reports. -/
theorem Tells.same {s : State} {d : Chip} (h : Tells s.chip d) : SameBut (withChip s d) s :=
  ⟨rfl, rfl, rfl, h.rest, fun y _ => h.yard y⟩
/-- Fields that a chip with the same rest shares. -/
theorem rest_field {α : Type} (f : Chip → α) (h : ∀ c, f (chipRest c) = f c) {c d : Chip} (k : chipRest d = chipRest c) : f d = f c := by
  rw [← h d, ← h c, k]


-- msix

@[simp] theorem msix_now (r : Regs) (pf vec : Nat) (c : Chip) : (msix r pf vec c).now = c.now := rest_field Chip.now (fun _ => rfl) (posts_msix r pf vec c).rest
@[simp] theorem msix_sys (r : Regs) (pf vec : Nat) (c : Chip) : (msix r pf vec c).sys = c.sys := rest_field Chip.sys (fun _ => rfl) (posts_msix r pf vec c).rest
@[simp] theorem msix_mt (r : Regs) (pf vec : Nat) (c : Chip) : (msix r pf vec c).mt = c.mt := rest_field Chip.mt (fun _ => rfl) (posts_msix r pf vec c).rest
@[simp] theorem msix_arb (r : Regs) (pf vec : Nat) (c : Chip) : (msix r pf vec c).arb = c.arb := rest_field Chip.arb (fun _ => rfl) (posts_msix r pf vec c).rest
@[simp] theorem msix_feeds (r : Regs) (pf vec : Nat) (c : Chip) : (msix r pf vec c).feeds = c.feeds := rest_field Chip.feeds (fun _ => rfl) (posts_msix r pf vec c).rest
@[simp] theorem msix_budget (r : Regs) (pf vec : Nat) (c : Chip) : (msix r pf vec c).budget = c.budget := rest_field Chip.budget (fun _ => rfl) (posts_msix r pf vec c).rest
@[simp] theorem msix_safes (r : Regs) (pf vec : Nat) (c : Chip) : (msix r pf vec c).safes = c.safes := rest_field Chip.safes (fun _ => rfl) (posts_msix r pf vec c).rest
@[simp] theorem msix_halt (r : Regs) (pf vec : Nat) (c : Chip) : (msix r pf vec c).halt = c.halt := rest_field Chip.halt (fun _ => rfl) (posts_msix r pf vec c).rest
@[simp] theorem msix_img (r : Regs) (pf vec : Nat) (c : Chip) : (msix r pf vec c).img = c.img := rest_field Chip.img (fun _ => rfl) (posts_msix r pf vec c).rest
@[simp] theorem msix_copy (r : Regs) (pf vec : Nat) (c : Chip) : (msix r pf vec c).copy = c.copy := rest_field Chip.copy (fun _ => rfl) (posts_msix r pf vec c).rest
@[simp] theorem msix_curves (r : Regs) (pf vec : Nat) (c : Chip) : (msix r pf vec c).curves = c.curves := rest_field Chip.curves (fun _ => rfl) (posts_msix r pf vec c).rest
@[simp] theorem msix_cross (r : Regs) (pf vec : Nat) (c : Chip) : (msix r pf vec c).cross = c.cross := rest_field Chip.cross (fun _ => rfl) (posts_msix r pf vec c).rest
@[simp] theorem msix_seqs (r : Regs) (pf vec : Nat) (c : Chip) : (msix r pf vec c).seqs = c.seqs := rest_field Chip.seqs (fun _ => rfl) (posts_msix r pf vec c).rest
@[simp] theorem msix_ports (r : Regs) (pf vec : Nat) (c : Chip) : (msix r pf vec c).ports = c.ports := rest_field Chip.ports (fun _ => rfl) (posts_msix r pf vec c).rest
@[simp] theorem msix_latches (r : Regs) (pf vec : Nat) (c : Chip) : (msix r pf vec c).latches = c.latches := rest_field Chip.latches (fun _ => rfl) (posts_msix r pf vec c).rest
@[simp] theorem msix_timers (r : Regs) (pf vec : Nat) (c : Chip) : (msix r pf vec c).timers = c.timers := rest_field Chip.timers (fun _ => rfl) (posts_msix r pf vec c).rest
@[simp] theorem msix_gstart (r : Regs) (pf vec : Nat) (c : Chip) : (msix r pf vec c).gstart = c.gstart := rest_field Chip.gstart (fun _ => rfl) (posts_msix r pf vec c).rest
@[simp] theorem msix_segs (r : Regs) (pf vec : Nat) (c : Chip) : (msix r pf vec c).segs = c.segs := rest_field Chip.segs (fun _ => rfl) (posts_msix r pf vec c).rest
@[simp] theorem msix_cans (r : Regs) (pf vec : Nat) (c : Chip) : (msix r pf vec c).cans = c.cans := rest_field Chip.cans (fun _ => rfl) (posts_msix r pf vec c).rest
@[simp] theorem msix_lins (r : Regs) (pf vec : Nat) (c : Chip) : (msix r pf vec c).lins = c.lins := rest_field Chip.lins (fun _ => rfl) (posts_msix r pf vec c).rest
@[simp] theorem msix_t1ss (r : Regs) (pf vec : Nat) (c : Chip) : (msix r pf vec c).t1ss = c.t1ss := rest_field Chip.t1ss (fun _ => rfl) (posts_msix r pf vec c).rest
@[simp] theorem msix_bbs (r : Regs) (pf vec : Nat) (c : Chip) : (msix r pf vec c).bbs = c.bbs := rest_field Chip.bbs (fun _ => rfl) (posts_msix r pf vec c).rest
@[simp] theorem msix_hostPort (r : Regs) (pf vec : Nat) (c : Chip) : (msix r pf vec c).hostPort = c.hostPort := rest_field Chip.hostPort (fun _ => rfl) (posts_msix r pf vec c).rest
@[simp] theorem msix_net (r : Regs) (pf vec : Nat) (c : Chip) : (msix r pf vec c).net = c.net := rest_field Chip.net (fun _ => rfl) (posts_msix r pf vec c).rest
@[simp] theorem msix_acc (r : Regs) (pf vec : Nat) (c : Chip) : (msix r pf vec c).acc = c.acc := rest_field Chip.acc (fun _ => rfl) (posts_msix r pf vec c).rest
@[simp] theorem msix_upd (r : Regs) (pf vec : Nat) (c : Chip) : (msix r pf vec c).upd = c.upd := rest_field Chip.upd (fun _ => rfl) (posts_msix r pf vec c).rest
@[simp] theorem msix_age (r : Regs) (pf vec : Nat) (c : Chip) : (msix r pf vec c).age = c.age := rest_field Chip.age (fun _ => rfl) (posts_msix r pf vec c).rest
@[simp] theorem msix_at_stall (r : Regs) (pf vec : Nat) (c : Chip) (j : Nat) : (msix r pf vec c).stall j = c.stall j := congrFun (rest_field Chip.stall (fun _ => rfl) (posts_msix r pf vec c).rest) j
@[simp] theorem msix_at_row (r : Regs) (pf vec : Nat) (c : Chip) (j : Nat) : (msix r pf vec c).row j = c.row j := congrFun (rest_field Chip.row (fun _ => rfl) (posts_msix r pf vec c).rest) j
@[simp] theorem msix_at_valve (r : Regs) (pf vec : Nat) (c : Chip) (j : Nat) : (msix r pf vec c).valve j = c.valve j := congrFun (rest_field Chip.valve (fun _ => rfl) (posts_msix r pf vec c).rest) j
@[simp] theorem msix_at_vg (r : Regs) (pf vec : Nat) (c : Chip) (j : Nat) : (msix r pf vec c).vg j = c.vg j := congrFun (rest_field Chip.vg (fun _ => rfl) (posts_msix r pf vec c).rest) j
@[simp] theorem msix_at_loop (r : Regs) (pf vec : Nat) (c : Chip) (j : Nat) : (msix r pf vec c).loop j = c.loop j := congrFun (rest_field Chip.loop (fun _ => rfl) (posts_msix r pf vec c).rest) j
@[simp] theorem msix_at_boost (r : Regs) (pf vec : Nat) (c : Chip) (j : Nat) : (msix r pf vec c).boost j = c.boost j := congrFun (rest_field Chip.boost (fun _ => rfl) (posts_msix r pf vec c).rest) j
@[simp] theorem msix_at_sink (r : Regs) (pf vec : Nat) (c : Chip) (j : Nat) : (msix r pf vec c).sink j = c.sink j := congrFun (rest_field Chip.sink (fun _ => rfl) (posts_msix r pf vec c).rest) j
@[simp] theorem msix_at_ntc (r : Regs) (pf vec : Nat) (c : Chip) (j : Nat) : (msix r pf vec c).ntc j = c.ntc j := congrFun (rest_field Chip.ntc (fun _ => rfl) (posts_msix r pf vec c).rest) j
@[simp] theorem msix_at_si (r : Regs) (pf vec : Nat) (c : Chip) (j : Nat) : (msix r pf vec c).si j = c.si j := congrFun (rest_field Chip.si (fun _ => rfl) (posts_msix r pf vec c).rest) j
@[simp] theorem msix_at_ain (r : Regs) (pf vec : Nat) (c : Chip) (j : Nat) : (msix r pf vec c).ain j = c.ain j := congrFun (rest_field Chip.ain (fun _ => rfl) (posts_msix r pf vec c).rest) j
@[simp] theorem msix_at_dout (r : Regs) (pf vec : Nat) (c : Chip) (j : Nat) : (msix r pf vec c).dout j = c.dout j := congrFun (rest_field Chip.dout (fun _ => rfl) (posts_msix r pf vec c).rest) j
@[simp] theorem msix_at_feed (r : Regs) (pf vec : Nat) (c : Chip) (j : Nat) : (msix r pf vec c).feed j = c.feed j := congrFun (rest_field Chip.feed (fun _ => rfl) (posts_msix r pf vec c).rest) j
@[simp] theorem msix_at_safe (r : Regs) (pf vec : Nat) (c : Chip) (j : Nat) : (msix r pf vec c).safe j = c.safe j := congrFun (rest_field Chip.safe (fun _ => rfl) (posts_msix r pf vec c).rest) j
@[simp] theorem msix_at_port (r : Regs) (pf vec : Nat) (c : Chip) (j : Nat) : (msix r pf vec c).port j = c.port j := congrFun (rest_field Chip.port (fun _ => rfl) (posts_msix r pf vec c).rest) j
@[simp] theorem msix_at_timer (r : Regs) (pf vec : Nat) (c : Chip) (j : Nat) : (msix r pf vec c).timer j = c.timer j := congrFun (rest_field Chip.timer (fun _ => rfl) (posts_msix r pf vec c).rest) j
@[simp] theorem msix_at_seg (r : Regs) (pf vec : Nat) (c : Chip) (j : Nat) : (msix r pf vec c).seg j = c.seg j := congrFun (rest_field Chip.seg (fun _ => rfl) (posts_msix r pf vec c).rest) j
@[simp] theorem msix_at_can (r : Regs) (pf vec : Nat) (c : Chip) (j : Nat) : (msix r pf vec c).can j = c.can j := congrFun (rest_field Chip.can (fun _ => rfl) (posts_msix r pf vec c).rest) j
@[simp] theorem msix_at_lin (r : Regs) (pf vec : Nat) (c : Chip) (j : Nat) : (msix r pf vec c).lin j = c.lin j := congrFun (rest_field Chip.lin (fun _ => rfl) (posts_msix r pf vec c).rest) j
@[simp] theorem msix_at_t1s (r : Regs) (pf vec : Nat) (c : Chip) (j : Nat) : (msix r pf vec c).t1s j = c.t1s j := congrFun (rest_field Chip.t1s (fun _ => rfl) (posts_msix r pf vec c).rest) j
@[simp] theorem msix_at_bb (r : Regs) (pf vec : Nat) (c : Chip) (j : Nat) : (msix r pf vec c).bb j = c.bb j := congrFun (rest_field Chip.bb (fun _ => rfl) (posts_msix r pf vec c).rest) j
@[simp] theorem msix_yards (r : Regs) (pf vec : Nat) (c : Chip) : (msix r pf vec c).yards = c.yards := (posts_msix r pf vec c).yards
@[simp] theorem msix_yard (r : Regs) (pf vec : Nat) (c : Chip) (y : Nat) : (msix r pf vec c).yard y = c.yard y := by simp [Chip.yard]
@[simp] theorem msix_jobs (r : Regs) (pf vec : Nat) (c : Chip) : (msix r pf vec c).jobs = c.jobs := (posts_msix r pf vec c).jobs
@[simp] theorem msix_nextJob (r : Regs) (pf vec : Nat) (c : Chip) : (msix r pf vec c).nextJob = c.nextJob := (posts_msix r pf vec c).nextJob

-- postEvent

@[simp] theorem postEvent_now (r : Regs) (pf : Nat) (ev : Ev) (c : Chip) : (postEvent r pf ev c).now = c.now := rest_field Chip.now (fun _ => rfl) (posts_postEvent r pf ev c).rest
@[simp] theorem postEvent_sys (r : Regs) (pf : Nat) (ev : Ev) (c : Chip) : (postEvent r pf ev c).sys = c.sys := rest_field Chip.sys (fun _ => rfl) (posts_postEvent r pf ev c).rest
@[simp] theorem postEvent_mt (r : Regs) (pf : Nat) (ev : Ev) (c : Chip) : (postEvent r pf ev c).mt = c.mt := rest_field Chip.mt (fun _ => rfl) (posts_postEvent r pf ev c).rest
@[simp] theorem postEvent_arb (r : Regs) (pf : Nat) (ev : Ev) (c : Chip) : (postEvent r pf ev c).arb = c.arb := rest_field Chip.arb (fun _ => rfl) (posts_postEvent r pf ev c).rest
@[simp] theorem postEvent_feeds (r : Regs) (pf : Nat) (ev : Ev) (c : Chip) : (postEvent r pf ev c).feeds = c.feeds := rest_field Chip.feeds (fun _ => rfl) (posts_postEvent r pf ev c).rest
@[simp] theorem postEvent_budget (r : Regs) (pf : Nat) (ev : Ev) (c : Chip) : (postEvent r pf ev c).budget = c.budget := rest_field Chip.budget (fun _ => rfl) (posts_postEvent r pf ev c).rest
@[simp] theorem postEvent_safes (r : Regs) (pf : Nat) (ev : Ev) (c : Chip) : (postEvent r pf ev c).safes = c.safes := rest_field Chip.safes (fun _ => rfl) (posts_postEvent r pf ev c).rest
@[simp] theorem postEvent_halt (r : Regs) (pf : Nat) (ev : Ev) (c : Chip) : (postEvent r pf ev c).halt = c.halt := rest_field Chip.halt (fun _ => rfl) (posts_postEvent r pf ev c).rest
@[simp] theorem postEvent_img (r : Regs) (pf : Nat) (ev : Ev) (c : Chip) : (postEvent r pf ev c).img = c.img := rest_field Chip.img (fun _ => rfl) (posts_postEvent r pf ev c).rest
@[simp] theorem postEvent_copy (r : Regs) (pf : Nat) (ev : Ev) (c : Chip) : (postEvent r pf ev c).copy = c.copy := rest_field Chip.copy (fun _ => rfl) (posts_postEvent r pf ev c).rest
@[simp] theorem postEvent_curves (r : Regs) (pf : Nat) (ev : Ev) (c : Chip) : (postEvent r pf ev c).curves = c.curves := rest_field Chip.curves (fun _ => rfl) (posts_postEvent r pf ev c).rest
@[simp] theorem postEvent_cross (r : Regs) (pf : Nat) (ev : Ev) (c : Chip) : (postEvent r pf ev c).cross = c.cross := rest_field Chip.cross (fun _ => rfl) (posts_postEvent r pf ev c).rest
@[simp] theorem postEvent_seqs (r : Regs) (pf : Nat) (ev : Ev) (c : Chip) : (postEvent r pf ev c).seqs = c.seqs := rest_field Chip.seqs (fun _ => rfl) (posts_postEvent r pf ev c).rest
@[simp] theorem postEvent_ports (r : Regs) (pf : Nat) (ev : Ev) (c : Chip) : (postEvent r pf ev c).ports = c.ports := rest_field Chip.ports (fun _ => rfl) (posts_postEvent r pf ev c).rest
@[simp] theorem postEvent_latches (r : Regs) (pf : Nat) (ev : Ev) (c : Chip) : (postEvent r pf ev c).latches = c.latches := rest_field Chip.latches (fun _ => rfl) (posts_postEvent r pf ev c).rest
@[simp] theorem postEvent_timers (r : Regs) (pf : Nat) (ev : Ev) (c : Chip) : (postEvent r pf ev c).timers = c.timers := rest_field Chip.timers (fun _ => rfl) (posts_postEvent r pf ev c).rest
@[simp] theorem postEvent_gstart (r : Regs) (pf : Nat) (ev : Ev) (c : Chip) : (postEvent r pf ev c).gstart = c.gstart := rest_field Chip.gstart (fun _ => rfl) (posts_postEvent r pf ev c).rest
@[simp] theorem postEvent_segs (r : Regs) (pf : Nat) (ev : Ev) (c : Chip) : (postEvent r pf ev c).segs = c.segs := rest_field Chip.segs (fun _ => rfl) (posts_postEvent r pf ev c).rest
@[simp] theorem postEvent_cans (r : Regs) (pf : Nat) (ev : Ev) (c : Chip) : (postEvent r pf ev c).cans = c.cans := rest_field Chip.cans (fun _ => rfl) (posts_postEvent r pf ev c).rest
@[simp] theorem postEvent_lins (r : Regs) (pf : Nat) (ev : Ev) (c : Chip) : (postEvent r pf ev c).lins = c.lins := rest_field Chip.lins (fun _ => rfl) (posts_postEvent r pf ev c).rest
@[simp] theorem postEvent_t1ss (r : Regs) (pf : Nat) (ev : Ev) (c : Chip) : (postEvent r pf ev c).t1ss = c.t1ss := rest_field Chip.t1ss (fun _ => rfl) (posts_postEvent r pf ev c).rest
@[simp] theorem postEvent_bbs (r : Regs) (pf : Nat) (ev : Ev) (c : Chip) : (postEvent r pf ev c).bbs = c.bbs := rest_field Chip.bbs (fun _ => rfl) (posts_postEvent r pf ev c).rest
@[simp] theorem postEvent_hostPort (r : Regs) (pf : Nat) (ev : Ev) (c : Chip) : (postEvent r pf ev c).hostPort = c.hostPort := rest_field Chip.hostPort (fun _ => rfl) (posts_postEvent r pf ev c).rest
@[simp] theorem postEvent_net (r : Regs) (pf : Nat) (ev : Ev) (c : Chip) : (postEvent r pf ev c).net = c.net := rest_field Chip.net (fun _ => rfl) (posts_postEvent r pf ev c).rest
@[simp] theorem postEvent_acc (r : Regs) (pf : Nat) (ev : Ev) (c : Chip) : (postEvent r pf ev c).acc = c.acc := rest_field Chip.acc (fun _ => rfl) (posts_postEvent r pf ev c).rest
@[simp] theorem postEvent_upd (r : Regs) (pf : Nat) (ev : Ev) (c : Chip) : (postEvent r pf ev c).upd = c.upd := rest_field Chip.upd (fun _ => rfl) (posts_postEvent r pf ev c).rest
@[simp] theorem postEvent_age (r : Regs) (pf : Nat) (ev : Ev) (c : Chip) : (postEvent r pf ev c).age = c.age := rest_field Chip.age (fun _ => rfl) (posts_postEvent r pf ev c).rest
@[simp] theorem postEvent_at_stall (r : Regs) (pf : Nat) (ev : Ev) (c : Chip) (j : Nat) : (postEvent r pf ev c).stall j = c.stall j := congrFun (rest_field Chip.stall (fun _ => rfl) (posts_postEvent r pf ev c).rest) j
@[simp] theorem postEvent_at_row (r : Regs) (pf : Nat) (ev : Ev) (c : Chip) (j : Nat) : (postEvent r pf ev c).row j = c.row j := congrFun (rest_field Chip.row (fun _ => rfl) (posts_postEvent r pf ev c).rest) j
@[simp] theorem postEvent_at_valve (r : Regs) (pf : Nat) (ev : Ev) (c : Chip) (j : Nat) : (postEvent r pf ev c).valve j = c.valve j := congrFun (rest_field Chip.valve (fun _ => rfl) (posts_postEvent r pf ev c).rest) j
@[simp] theorem postEvent_at_vg (r : Regs) (pf : Nat) (ev : Ev) (c : Chip) (j : Nat) : (postEvent r pf ev c).vg j = c.vg j := congrFun (rest_field Chip.vg (fun _ => rfl) (posts_postEvent r pf ev c).rest) j
@[simp] theorem postEvent_at_loop (r : Regs) (pf : Nat) (ev : Ev) (c : Chip) (j : Nat) : (postEvent r pf ev c).loop j = c.loop j := congrFun (rest_field Chip.loop (fun _ => rfl) (posts_postEvent r pf ev c).rest) j
@[simp] theorem postEvent_at_boost (r : Regs) (pf : Nat) (ev : Ev) (c : Chip) (j : Nat) : (postEvent r pf ev c).boost j = c.boost j := congrFun (rest_field Chip.boost (fun _ => rfl) (posts_postEvent r pf ev c).rest) j
@[simp] theorem postEvent_at_sink (r : Regs) (pf : Nat) (ev : Ev) (c : Chip) (j : Nat) : (postEvent r pf ev c).sink j = c.sink j := congrFun (rest_field Chip.sink (fun _ => rfl) (posts_postEvent r pf ev c).rest) j
@[simp] theorem postEvent_at_ntc (r : Regs) (pf : Nat) (ev : Ev) (c : Chip) (j : Nat) : (postEvent r pf ev c).ntc j = c.ntc j := congrFun (rest_field Chip.ntc (fun _ => rfl) (posts_postEvent r pf ev c).rest) j
@[simp] theorem postEvent_at_si (r : Regs) (pf : Nat) (ev : Ev) (c : Chip) (j : Nat) : (postEvent r pf ev c).si j = c.si j := congrFun (rest_field Chip.si (fun _ => rfl) (posts_postEvent r pf ev c).rest) j
@[simp] theorem postEvent_at_ain (r : Regs) (pf : Nat) (ev : Ev) (c : Chip) (j : Nat) : (postEvent r pf ev c).ain j = c.ain j := congrFun (rest_field Chip.ain (fun _ => rfl) (posts_postEvent r pf ev c).rest) j
@[simp] theorem postEvent_at_dout (r : Regs) (pf : Nat) (ev : Ev) (c : Chip) (j : Nat) : (postEvent r pf ev c).dout j = c.dout j := congrFun (rest_field Chip.dout (fun _ => rfl) (posts_postEvent r pf ev c).rest) j
@[simp] theorem postEvent_at_feed (r : Regs) (pf : Nat) (ev : Ev) (c : Chip) (j : Nat) : (postEvent r pf ev c).feed j = c.feed j := congrFun (rest_field Chip.feed (fun _ => rfl) (posts_postEvent r pf ev c).rest) j
@[simp] theorem postEvent_at_safe (r : Regs) (pf : Nat) (ev : Ev) (c : Chip) (j : Nat) : (postEvent r pf ev c).safe j = c.safe j := congrFun (rest_field Chip.safe (fun _ => rfl) (posts_postEvent r pf ev c).rest) j
@[simp] theorem postEvent_at_port (r : Regs) (pf : Nat) (ev : Ev) (c : Chip) (j : Nat) : (postEvent r pf ev c).port j = c.port j := congrFun (rest_field Chip.port (fun _ => rfl) (posts_postEvent r pf ev c).rest) j
@[simp] theorem postEvent_at_timer (r : Regs) (pf : Nat) (ev : Ev) (c : Chip) (j : Nat) : (postEvent r pf ev c).timer j = c.timer j := congrFun (rest_field Chip.timer (fun _ => rfl) (posts_postEvent r pf ev c).rest) j
@[simp] theorem postEvent_at_seg (r : Regs) (pf : Nat) (ev : Ev) (c : Chip) (j : Nat) : (postEvent r pf ev c).seg j = c.seg j := congrFun (rest_field Chip.seg (fun _ => rfl) (posts_postEvent r pf ev c).rest) j
@[simp] theorem postEvent_at_can (r : Regs) (pf : Nat) (ev : Ev) (c : Chip) (j : Nat) : (postEvent r pf ev c).can j = c.can j := congrFun (rest_field Chip.can (fun _ => rfl) (posts_postEvent r pf ev c).rest) j
@[simp] theorem postEvent_at_lin (r : Regs) (pf : Nat) (ev : Ev) (c : Chip) (j : Nat) : (postEvent r pf ev c).lin j = c.lin j := congrFun (rest_field Chip.lin (fun _ => rfl) (posts_postEvent r pf ev c).rest) j
@[simp] theorem postEvent_at_t1s (r : Regs) (pf : Nat) (ev : Ev) (c : Chip) (j : Nat) : (postEvent r pf ev c).t1s j = c.t1s j := congrFun (rest_field Chip.t1s (fun _ => rfl) (posts_postEvent r pf ev c).rest) j
@[simp] theorem postEvent_at_bb (r : Regs) (pf : Nat) (ev : Ev) (c : Chip) (j : Nat) : (postEvent r pf ev c).bb j = c.bb j := congrFun (rest_field Chip.bb (fun _ => rfl) (posts_postEvent r pf ev c).rest) j
@[simp] theorem postEvent_yards (r : Regs) (pf : Nat) (ev : Ev) (c : Chip) : (postEvent r pf ev c).yards = c.yards := (posts_postEvent r pf ev c).yards
@[simp] theorem postEvent_yard (r : Regs) (pf : Nat) (ev : Ev) (c : Chip) (y : Nat) : (postEvent r pf ev c).yard y = c.yard y := by simp [Chip.yard]
@[simp] theorem postEvent_jobs (r : Regs) (pf : Nat) (ev : Ev) (c : Chip) : (postEvent r pf ev c).jobs = c.jobs := (posts_postEvent r pf ev c).jobs
@[simp] theorem postEvent_nextJob (r : Regs) (pf : Nat) (ev : Ev) (c : Chip) : (postEvent r pf ev c).nextJob = c.nextJob := (posts_postEvent r pf ev c).nextJob

-- raise

@[simp] theorem raise_now (r : Regs) (src cls pay : Nat) (c : Chip) : (raise r src cls pay c).now = c.now := rest_field Chip.now (fun _ => rfl) (posts_raise r src cls pay c).rest
@[simp] theorem raise_sys (r : Regs) (src cls pay : Nat) (c : Chip) : (raise r src cls pay c).sys = c.sys := rest_field Chip.sys (fun _ => rfl) (posts_raise r src cls pay c).rest
@[simp] theorem raise_mt (r : Regs) (src cls pay : Nat) (c : Chip) : (raise r src cls pay c).mt = c.mt := rest_field Chip.mt (fun _ => rfl) (posts_raise r src cls pay c).rest
@[simp] theorem raise_arb (r : Regs) (src cls pay : Nat) (c : Chip) : (raise r src cls pay c).arb = c.arb := rest_field Chip.arb (fun _ => rfl) (posts_raise r src cls pay c).rest
@[simp] theorem raise_feeds (r : Regs) (src cls pay : Nat) (c : Chip) : (raise r src cls pay c).feeds = c.feeds := rest_field Chip.feeds (fun _ => rfl) (posts_raise r src cls pay c).rest
@[simp] theorem raise_budget (r : Regs) (src cls pay : Nat) (c : Chip) : (raise r src cls pay c).budget = c.budget := rest_field Chip.budget (fun _ => rfl) (posts_raise r src cls pay c).rest
@[simp] theorem raise_safes (r : Regs) (src cls pay : Nat) (c : Chip) : (raise r src cls pay c).safes = c.safes := rest_field Chip.safes (fun _ => rfl) (posts_raise r src cls pay c).rest
@[simp] theorem raise_halt (r : Regs) (src cls pay : Nat) (c : Chip) : (raise r src cls pay c).halt = c.halt := rest_field Chip.halt (fun _ => rfl) (posts_raise r src cls pay c).rest
@[simp] theorem raise_img (r : Regs) (src cls pay : Nat) (c : Chip) : (raise r src cls pay c).img = c.img := rest_field Chip.img (fun _ => rfl) (posts_raise r src cls pay c).rest
@[simp] theorem raise_copy (r : Regs) (src cls pay : Nat) (c : Chip) : (raise r src cls pay c).copy = c.copy := rest_field Chip.copy (fun _ => rfl) (posts_raise r src cls pay c).rest
@[simp] theorem raise_curves (r : Regs) (src cls pay : Nat) (c : Chip) : (raise r src cls pay c).curves = c.curves := rest_field Chip.curves (fun _ => rfl) (posts_raise r src cls pay c).rest
@[simp] theorem raise_cross (r : Regs) (src cls pay : Nat) (c : Chip) : (raise r src cls pay c).cross = c.cross := rest_field Chip.cross (fun _ => rfl) (posts_raise r src cls pay c).rest
@[simp] theorem raise_seqs (r : Regs) (src cls pay : Nat) (c : Chip) : (raise r src cls pay c).seqs = c.seqs := rest_field Chip.seqs (fun _ => rfl) (posts_raise r src cls pay c).rest
@[simp] theorem raise_ports (r : Regs) (src cls pay : Nat) (c : Chip) : (raise r src cls pay c).ports = c.ports := rest_field Chip.ports (fun _ => rfl) (posts_raise r src cls pay c).rest
@[simp] theorem raise_latches (r : Regs) (src cls pay : Nat) (c : Chip) : (raise r src cls pay c).latches = c.latches := rest_field Chip.latches (fun _ => rfl) (posts_raise r src cls pay c).rest
@[simp] theorem raise_timers (r : Regs) (src cls pay : Nat) (c : Chip) : (raise r src cls pay c).timers = c.timers := rest_field Chip.timers (fun _ => rfl) (posts_raise r src cls pay c).rest
@[simp] theorem raise_gstart (r : Regs) (src cls pay : Nat) (c : Chip) : (raise r src cls pay c).gstart = c.gstart := rest_field Chip.gstart (fun _ => rfl) (posts_raise r src cls pay c).rest
@[simp] theorem raise_segs (r : Regs) (src cls pay : Nat) (c : Chip) : (raise r src cls pay c).segs = c.segs := rest_field Chip.segs (fun _ => rfl) (posts_raise r src cls pay c).rest
@[simp] theorem raise_cans (r : Regs) (src cls pay : Nat) (c : Chip) : (raise r src cls pay c).cans = c.cans := rest_field Chip.cans (fun _ => rfl) (posts_raise r src cls pay c).rest
@[simp] theorem raise_lins (r : Regs) (src cls pay : Nat) (c : Chip) : (raise r src cls pay c).lins = c.lins := rest_field Chip.lins (fun _ => rfl) (posts_raise r src cls pay c).rest
@[simp] theorem raise_t1ss (r : Regs) (src cls pay : Nat) (c : Chip) : (raise r src cls pay c).t1ss = c.t1ss := rest_field Chip.t1ss (fun _ => rfl) (posts_raise r src cls pay c).rest
@[simp] theorem raise_bbs (r : Regs) (src cls pay : Nat) (c : Chip) : (raise r src cls pay c).bbs = c.bbs := rest_field Chip.bbs (fun _ => rfl) (posts_raise r src cls pay c).rest
@[simp] theorem raise_hostPort (r : Regs) (src cls pay : Nat) (c : Chip) : (raise r src cls pay c).hostPort = c.hostPort := rest_field Chip.hostPort (fun _ => rfl) (posts_raise r src cls pay c).rest
@[simp] theorem raise_net (r : Regs) (src cls pay : Nat) (c : Chip) : (raise r src cls pay c).net = c.net := rest_field Chip.net (fun _ => rfl) (posts_raise r src cls pay c).rest
@[simp] theorem raise_acc (r : Regs) (src cls pay : Nat) (c : Chip) : (raise r src cls pay c).acc = c.acc := rest_field Chip.acc (fun _ => rfl) (posts_raise r src cls pay c).rest
@[simp] theorem raise_upd (r : Regs) (src cls pay : Nat) (c : Chip) : (raise r src cls pay c).upd = c.upd := rest_field Chip.upd (fun _ => rfl) (posts_raise r src cls pay c).rest
@[simp] theorem raise_age (r : Regs) (src cls pay : Nat) (c : Chip) : (raise r src cls pay c).age = c.age := rest_field Chip.age (fun _ => rfl) (posts_raise r src cls pay c).rest
@[simp] theorem raise_at_stall (r : Regs) (src cls pay : Nat) (c : Chip) (j : Nat) : (raise r src cls pay c).stall j = c.stall j := congrFun (rest_field Chip.stall (fun _ => rfl) (posts_raise r src cls pay c).rest) j
@[simp] theorem raise_at_row (r : Regs) (src cls pay : Nat) (c : Chip) (j : Nat) : (raise r src cls pay c).row j = c.row j := congrFun (rest_field Chip.row (fun _ => rfl) (posts_raise r src cls pay c).rest) j
@[simp] theorem raise_at_valve (r : Regs) (src cls pay : Nat) (c : Chip) (j : Nat) : (raise r src cls pay c).valve j = c.valve j := congrFun (rest_field Chip.valve (fun _ => rfl) (posts_raise r src cls pay c).rest) j
@[simp] theorem raise_at_vg (r : Regs) (src cls pay : Nat) (c : Chip) (j : Nat) : (raise r src cls pay c).vg j = c.vg j := congrFun (rest_field Chip.vg (fun _ => rfl) (posts_raise r src cls pay c).rest) j
@[simp] theorem raise_at_loop (r : Regs) (src cls pay : Nat) (c : Chip) (j : Nat) : (raise r src cls pay c).loop j = c.loop j := congrFun (rest_field Chip.loop (fun _ => rfl) (posts_raise r src cls pay c).rest) j
@[simp] theorem raise_at_boost (r : Regs) (src cls pay : Nat) (c : Chip) (j : Nat) : (raise r src cls pay c).boost j = c.boost j := congrFun (rest_field Chip.boost (fun _ => rfl) (posts_raise r src cls pay c).rest) j
@[simp] theorem raise_at_sink (r : Regs) (src cls pay : Nat) (c : Chip) (j : Nat) : (raise r src cls pay c).sink j = c.sink j := congrFun (rest_field Chip.sink (fun _ => rfl) (posts_raise r src cls pay c).rest) j
@[simp] theorem raise_at_ntc (r : Regs) (src cls pay : Nat) (c : Chip) (j : Nat) : (raise r src cls pay c).ntc j = c.ntc j := congrFun (rest_field Chip.ntc (fun _ => rfl) (posts_raise r src cls pay c).rest) j
@[simp] theorem raise_at_si (r : Regs) (src cls pay : Nat) (c : Chip) (j : Nat) : (raise r src cls pay c).si j = c.si j := congrFun (rest_field Chip.si (fun _ => rfl) (posts_raise r src cls pay c).rest) j
@[simp] theorem raise_at_ain (r : Regs) (src cls pay : Nat) (c : Chip) (j : Nat) : (raise r src cls pay c).ain j = c.ain j := congrFun (rest_field Chip.ain (fun _ => rfl) (posts_raise r src cls pay c).rest) j
@[simp] theorem raise_at_dout (r : Regs) (src cls pay : Nat) (c : Chip) (j : Nat) : (raise r src cls pay c).dout j = c.dout j := congrFun (rest_field Chip.dout (fun _ => rfl) (posts_raise r src cls pay c).rest) j
@[simp] theorem raise_at_feed (r : Regs) (src cls pay : Nat) (c : Chip) (j : Nat) : (raise r src cls pay c).feed j = c.feed j := congrFun (rest_field Chip.feed (fun _ => rfl) (posts_raise r src cls pay c).rest) j
@[simp] theorem raise_at_safe (r : Regs) (src cls pay : Nat) (c : Chip) (j : Nat) : (raise r src cls pay c).safe j = c.safe j := congrFun (rest_field Chip.safe (fun _ => rfl) (posts_raise r src cls pay c).rest) j
@[simp] theorem raise_at_port (r : Regs) (src cls pay : Nat) (c : Chip) (j : Nat) : (raise r src cls pay c).port j = c.port j := congrFun (rest_field Chip.port (fun _ => rfl) (posts_raise r src cls pay c).rest) j
@[simp] theorem raise_at_timer (r : Regs) (src cls pay : Nat) (c : Chip) (j : Nat) : (raise r src cls pay c).timer j = c.timer j := congrFun (rest_field Chip.timer (fun _ => rfl) (posts_raise r src cls pay c).rest) j
@[simp] theorem raise_at_seg (r : Regs) (src cls pay : Nat) (c : Chip) (j : Nat) : (raise r src cls pay c).seg j = c.seg j := congrFun (rest_field Chip.seg (fun _ => rfl) (posts_raise r src cls pay c).rest) j
@[simp] theorem raise_at_can (r : Regs) (src cls pay : Nat) (c : Chip) (j : Nat) : (raise r src cls pay c).can j = c.can j := congrFun (rest_field Chip.can (fun _ => rfl) (posts_raise r src cls pay c).rest) j
@[simp] theorem raise_at_lin (r : Regs) (src cls pay : Nat) (c : Chip) (j : Nat) : (raise r src cls pay c).lin j = c.lin j := congrFun (rest_field Chip.lin (fun _ => rfl) (posts_raise r src cls pay c).rest) j
@[simp] theorem raise_at_t1s (r : Regs) (src cls pay : Nat) (c : Chip) (j : Nat) : (raise r src cls pay c).t1s j = c.t1s j := congrFun (rest_field Chip.t1s (fun _ => rfl) (posts_raise r src cls pay c).rest) j
@[simp] theorem raise_at_bb (r : Regs) (src cls pay : Nat) (c : Chip) (j : Nat) : (raise r src cls pay c).bb j = c.bb j := congrFun (rest_field Chip.bb (fun _ => rfl) (posts_raise r src cls pay c).rest) j
@[simp] theorem raise_yards (r : Regs) (src cls pay : Nat) (c : Chip) : (raise r src cls pay c).yards = c.yards := (posts_raise r src cls pay c).yards
@[simp] theorem raise_yard (r : Regs) (src cls pay : Nat) (c : Chip) (y : Nat) : (raise r src cls pay c).yard y = c.yard y := by simp [Chip.yard]
@[simp] theorem raise_jobs (r : Regs) (src cls pay : Nat) (c : Chip) : (raise r src cls pay c).jobs = c.jobs := (posts_raise r src cls pay c).jobs
@[simp] theorem raise_nextJob (r : Regs) (src cls pay : Nat) (c : Chip) : (raise r src cls pay c).nextJob = c.nextJob := (posts_raise r src cls pay c).nextJob

-- raiseFn

@[simp] theorem raiseFn_now (r : Regs) (pf src cls pay : Nat) (c : Chip) : (raiseFn r pf src cls pay c).now = c.now := rest_field Chip.now (fun _ => rfl) (posts_raiseFn r pf src cls pay c).rest
@[simp] theorem raiseFn_sys (r : Regs) (pf src cls pay : Nat) (c : Chip) : (raiseFn r pf src cls pay c).sys = c.sys := rest_field Chip.sys (fun _ => rfl) (posts_raiseFn r pf src cls pay c).rest
@[simp] theorem raiseFn_mt (r : Regs) (pf src cls pay : Nat) (c : Chip) : (raiseFn r pf src cls pay c).mt = c.mt := rest_field Chip.mt (fun _ => rfl) (posts_raiseFn r pf src cls pay c).rest
@[simp] theorem raiseFn_arb (r : Regs) (pf src cls pay : Nat) (c : Chip) : (raiseFn r pf src cls pay c).arb = c.arb := rest_field Chip.arb (fun _ => rfl) (posts_raiseFn r pf src cls pay c).rest
@[simp] theorem raiseFn_feeds (r : Regs) (pf src cls pay : Nat) (c : Chip) : (raiseFn r pf src cls pay c).feeds = c.feeds := rest_field Chip.feeds (fun _ => rfl) (posts_raiseFn r pf src cls pay c).rest
@[simp] theorem raiseFn_budget (r : Regs) (pf src cls pay : Nat) (c : Chip) : (raiseFn r pf src cls pay c).budget = c.budget := rest_field Chip.budget (fun _ => rfl) (posts_raiseFn r pf src cls pay c).rest
@[simp] theorem raiseFn_safes (r : Regs) (pf src cls pay : Nat) (c : Chip) : (raiseFn r pf src cls pay c).safes = c.safes := rest_field Chip.safes (fun _ => rfl) (posts_raiseFn r pf src cls pay c).rest
@[simp] theorem raiseFn_halt (r : Regs) (pf src cls pay : Nat) (c : Chip) : (raiseFn r pf src cls pay c).halt = c.halt := rest_field Chip.halt (fun _ => rfl) (posts_raiseFn r pf src cls pay c).rest
@[simp] theorem raiseFn_img (r : Regs) (pf src cls pay : Nat) (c : Chip) : (raiseFn r pf src cls pay c).img = c.img := rest_field Chip.img (fun _ => rfl) (posts_raiseFn r pf src cls pay c).rest
@[simp] theorem raiseFn_copy (r : Regs) (pf src cls pay : Nat) (c : Chip) : (raiseFn r pf src cls pay c).copy = c.copy := rest_field Chip.copy (fun _ => rfl) (posts_raiseFn r pf src cls pay c).rest
@[simp] theorem raiseFn_curves (r : Regs) (pf src cls pay : Nat) (c : Chip) : (raiseFn r pf src cls pay c).curves = c.curves := rest_field Chip.curves (fun _ => rfl) (posts_raiseFn r pf src cls pay c).rest
@[simp] theorem raiseFn_cross (r : Regs) (pf src cls pay : Nat) (c : Chip) : (raiseFn r pf src cls pay c).cross = c.cross := rest_field Chip.cross (fun _ => rfl) (posts_raiseFn r pf src cls pay c).rest
@[simp] theorem raiseFn_seqs (r : Regs) (pf src cls pay : Nat) (c : Chip) : (raiseFn r pf src cls pay c).seqs = c.seqs := rest_field Chip.seqs (fun _ => rfl) (posts_raiseFn r pf src cls pay c).rest
@[simp] theorem raiseFn_ports (r : Regs) (pf src cls pay : Nat) (c : Chip) : (raiseFn r pf src cls pay c).ports = c.ports := rest_field Chip.ports (fun _ => rfl) (posts_raiseFn r pf src cls pay c).rest
@[simp] theorem raiseFn_latches (r : Regs) (pf src cls pay : Nat) (c : Chip) : (raiseFn r pf src cls pay c).latches = c.latches := rest_field Chip.latches (fun _ => rfl) (posts_raiseFn r pf src cls pay c).rest
@[simp] theorem raiseFn_timers (r : Regs) (pf src cls pay : Nat) (c : Chip) : (raiseFn r pf src cls pay c).timers = c.timers := rest_field Chip.timers (fun _ => rfl) (posts_raiseFn r pf src cls pay c).rest
@[simp] theorem raiseFn_gstart (r : Regs) (pf src cls pay : Nat) (c : Chip) : (raiseFn r pf src cls pay c).gstart = c.gstart := rest_field Chip.gstart (fun _ => rfl) (posts_raiseFn r pf src cls pay c).rest
@[simp] theorem raiseFn_segs (r : Regs) (pf src cls pay : Nat) (c : Chip) : (raiseFn r pf src cls pay c).segs = c.segs := rest_field Chip.segs (fun _ => rfl) (posts_raiseFn r pf src cls pay c).rest
@[simp] theorem raiseFn_cans (r : Regs) (pf src cls pay : Nat) (c : Chip) : (raiseFn r pf src cls pay c).cans = c.cans := rest_field Chip.cans (fun _ => rfl) (posts_raiseFn r pf src cls pay c).rest
@[simp] theorem raiseFn_lins (r : Regs) (pf src cls pay : Nat) (c : Chip) : (raiseFn r pf src cls pay c).lins = c.lins := rest_field Chip.lins (fun _ => rfl) (posts_raiseFn r pf src cls pay c).rest
@[simp] theorem raiseFn_t1ss (r : Regs) (pf src cls pay : Nat) (c : Chip) : (raiseFn r pf src cls pay c).t1ss = c.t1ss := rest_field Chip.t1ss (fun _ => rfl) (posts_raiseFn r pf src cls pay c).rest
@[simp] theorem raiseFn_bbs (r : Regs) (pf src cls pay : Nat) (c : Chip) : (raiseFn r pf src cls pay c).bbs = c.bbs := rest_field Chip.bbs (fun _ => rfl) (posts_raiseFn r pf src cls pay c).rest
@[simp] theorem raiseFn_hostPort (r : Regs) (pf src cls pay : Nat) (c : Chip) : (raiseFn r pf src cls pay c).hostPort = c.hostPort := rest_field Chip.hostPort (fun _ => rfl) (posts_raiseFn r pf src cls pay c).rest
@[simp] theorem raiseFn_net (r : Regs) (pf src cls pay : Nat) (c : Chip) : (raiseFn r pf src cls pay c).net = c.net := rest_field Chip.net (fun _ => rfl) (posts_raiseFn r pf src cls pay c).rest
@[simp] theorem raiseFn_acc (r : Regs) (pf src cls pay : Nat) (c : Chip) : (raiseFn r pf src cls pay c).acc = c.acc := rest_field Chip.acc (fun _ => rfl) (posts_raiseFn r pf src cls pay c).rest
@[simp] theorem raiseFn_upd (r : Regs) (pf src cls pay : Nat) (c : Chip) : (raiseFn r pf src cls pay c).upd = c.upd := rest_field Chip.upd (fun _ => rfl) (posts_raiseFn r pf src cls pay c).rest
@[simp] theorem raiseFn_age (r : Regs) (pf src cls pay : Nat) (c : Chip) : (raiseFn r pf src cls pay c).age = c.age := rest_field Chip.age (fun _ => rfl) (posts_raiseFn r pf src cls pay c).rest
@[simp] theorem raiseFn_at_stall (r : Regs) (pf src cls pay : Nat) (c : Chip) (j : Nat) : (raiseFn r pf src cls pay c).stall j = c.stall j := congrFun (rest_field Chip.stall (fun _ => rfl) (posts_raiseFn r pf src cls pay c).rest) j
@[simp] theorem raiseFn_at_row (r : Regs) (pf src cls pay : Nat) (c : Chip) (j : Nat) : (raiseFn r pf src cls pay c).row j = c.row j := congrFun (rest_field Chip.row (fun _ => rfl) (posts_raiseFn r pf src cls pay c).rest) j
@[simp] theorem raiseFn_at_valve (r : Regs) (pf src cls pay : Nat) (c : Chip) (j : Nat) : (raiseFn r pf src cls pay c).valve j = c.valve j := congrFun (rest_field Chip.valve (fun _ => rfl) (posts_raiseFn r pf src cls pay c).rest) j
@[simp] theorem raiseFn_at_vg (r : Regs) (pf src cls pay : Nat) (c : Chip) (j : Nat) : (raiseFn r pf src cls pay c).vg j = c.vg j := congrFun (rest_field Chip.vg (fun _ => rfl) (posts_raiseFn r pf src cls pay c).rest) j
@[simp] theorem raiseFn_at_loop (r : Regs) (pf src cls pay : Nat) (c : Chip) (j : Nat) : (raiseFn r pf src cls pay c).loop j = c.loop j := congrFun (rest_field Chip.loop (fun _ => rfl) (posts_raiseFn r pf src cls pay c).rest) j
@[simp] theorem raiseFn_at_boost (r : Regs) (pf src cls pay : Nat) (c : Chip) (j : Nat) : (raiseFn r pf src cls pay c).boost j = c.boost j := congrFun (rest_field Chip.boost (fun _ => rfl) (posts_raiseFn r pf src cls pay c).rest) j
@[simp] theorem raiseFn_at_sink (r : Regs) (pf src cls pay : Nat) (c : Chip) (j : Nat) : (raiseFn r pf src cls pay c).sink j = c.sink j := congrFun (rest_field Chip.sink (fun _ => rfl) (posts_raiseFn r pf src cls pay c).rest) j
@[simp] theorem raiseFn_at_ntc (r : Regs) (pf src cls pay : Nat) (c : Chip) (j : Nat) : (raiseFn r pf src cls pay c).ntc j = c.ntc j := congrFun (rest_field Chip.ntc (fun _ => rfl) (posts_raiseFn r pf src cls pay c).rest) j
@[simp] theorem raiseFn_at_si (r : Regs) (pf src cls pay : Nat) (c : Chip) (j : Nat) : (raiseFn r pf src cls pay c).si j = c.si j := congrFun (rest_field Chip.si (fun _ => rfl) (posts_raiseFn r pf src cls pay c).rest) j
@[simp] theorem raiseFn_at_ain (r : Regs) (pf src cls pay : Nat) (c : Chip) (j : Nat) : (raiseFn r pf src cls pay c).ain j = c.ain j := congrFun (rest_field Chip.ain (fun _ => rfl) (posts_raiseFn r pf src cls pay c).rest) j
@[simp] theorem raiseFn_at_dout (r : Regs) (pf src cls pay : Nat) (c : Chip) (j : Nat) : (raiseFn r pf src cls pay c).dout j = c.dout j := congrFun (rest_field Chip.dout (fun _ => rfl) (posts_raiseFn r pf src cls pay c).rest) j
@[simp] theorem raiseFn_at_feed (r : Regs) (pf src cls pay : Nat) (c : Chip) (j : Nat) : (raiseFn r pf src cls pay c).feed j = c.feed j := congrFun (rest_field Chip.feed (fun _ => rfl) (posts_raiseFn r pf src cls pay c).rest) j
@[simp] theorem raiseFn_at_safe (r : Regs) (pf src cls pay : Nat) (c : Chip) (j : Nat) : (raiseFn r pf src cls pay c).safe j = c.safe j := congrFun (rest_field Chip.safe (fun _ => rfl) (posts_raiseFn r pf src cls pay c).rest) j
@[simp] theorem raiseFn_at_port (r : Regs) (pf src cls pay : Nat) (c : Chip) (j : Nat) : (raiseFn r pf src cls pay c).port j = c.port j := congrFun (rest_field Chip.port (fun _ => rfl) (posts_raiseFn r pf src cls pay c).rest) j
@[simp] theorem raiseFn_at_timer (r : Regs) (pf src cls pay : Nat) (c : Chip) (j : Nat) : (raiseFn r pf src cls pay c).timer j = c.timer j := congrFun (rest_field Chip.timer (fun _ => rfl) (posts_raiseFn r pf src cls pay c).rest) j
@[simp] theorem raiseFn_at_seg (r : Regs) (pf src cls pay : Nat) (c : Chip) (j : Nat) : (raiseFn r pf src cls pay c).seg j = c.seg j := congrFun (rest_field Chip.seg (fun _ => rfl) (posts_raiseFn r pf src cls pay c).rest) j
@[simp] theorem raiseFn_at_can (r : Regs) (pf src cls pay : Nat) (c : Chip) (j : Nat) : (raiseFn r pf src cls pay c).can j = c.can j := congrFun (rest_field Chip.can (fun _ => rfl) (posts_raiseFn r pf src cls pay c).rest) j
@[simp] theorem raiseFn_at_lin (r : Regs) (pf src cls pay : Nat) (c : Chip) (j : Nat) : (raiseFn r pf src cls pay c).lin j = c.lin j := congrFun (rest_field Chip.lin (fun _ => rfl) (posts_raiseFn r pf src cls pay c).rest) j
@[simp] theorem raiseFn_at_t1s (r : Regs) (pf src cls pay : Nat) (c : Chip) (j : Nat) : (raiseFn r pf src cls pay c).t1s j = c.t1s j := congrFun (rest_field Chip.t1s (fun _ => rfl) (posts_raiseFn r pf src cls pay c).rest) j
@[simp] theorem raiseFn_at_bb (r : Regs) (pf src cls pay : Nat) (c : Chip) (j : Nat) : (raiseFn r pf src cls pay c).bb j = c.bb j := congrFun (rest_field Chip.bb (fun _ => rfl) (posts_raiseFn r pf src cls pay c).rest) j
@[simp] theorem raiseFn_yards (r : Regs) (pf src cls pay : Nat) (c : Chip) : (raiseFn r pf src cls pay c).yards = c.yards := (posts_raiseFn r pf src cls pay c).yards
@[simp] theorem raiseFn_yard (r : Regs) (pf src cls pay : Nat) (c : Chip) (y : Nat) : (raiseFn r pf src cls pay c).yard y = c.yard y := by simp [Chip.yard]
@[simp] theorem raiseFn_jobs (r : Regs) (pf src cls pay : Nat) (c : Chip) : (raiseFn r pf src cls pay c).jobs = c.jobs := (posts_raiseFn r pf src cls pay c).jobs
@[simp] theorem raiseFn_nextJob (r : Regs) (pf src cls pay : Nat) (c : Chip) : (raiseFn r pf src cls pay c).nextJob = c.nextJob := (posts_raiseFn r pf src cls pay c).nextJob

-- dma

@[simp] theorem dma_now (pf addr : Nat) (bytes : List Nat) (c : Chip) : (dma pf addr bytes c).now = c.now := rest_field Chip.now (fun _ => rfl) (posts_dma pf addr bytes c).rest
@[simp] theorem dma_sys (pf addr : Nat) (bytes : List Nat) (c : Chip) : (dma pf addr bytes c).sys = c.sys := rest_field Chip.sys (fun _ => rfl) (posts_dma pf addr bytes c).rest
@[simp] theorem dma_mt (pf addr : Nat) (bytes : List Nat) (c : Chip) : (dma pf addr bytes c).mt = c.mt := rest_field Chip.mt (fun _ => rfl) (posts_dma pf addr bytes c).rest
@[simp] theorem dma_arb (pf addr : Nat) (bytes : List Nat) (c : Chip) : (dma pf addr bytes c).arb = c.arb := rest_field Chip.arb (fun _ => rfl) (posts_dma pf addr bytes c).rest
@[simp] theorem dma_feeds (pf addr : Nat) (bytes : List Nat) (c : Chip) : (dma pf addr bytes c).feeds = c.feeds := rest_field Chip.feeds (fun _ => rfl) (posts_dma pf addr bytes c).rest
@[simp] theorem dma_budget (pf addr : Nat) (bytes : List Nat) (c : Chip) : (dma pf addr bytes c).budget = c.budget := rest_field Chip.budget (fun _ => rfl) (posts_dma pf addr bytes c).rest
@[simp] theorem dma_safes (pf addr : Nat) (bytes : List Nat) (c : Chip) : (dma pf addr bytes c).safes = c.safes := rest_field Chip.safes (fun _ => rfl) (posts_dma pf addr bytes c).rest
@[simp] theorem dma_halt (pf addr : Nat) (bytes : List Nat) (c : Chip) : (dma pf addr bytes c).halt = c.halt := rest_field Chip.halt (fun _ => rfl) (posts_dma pf addr bytes c).rest
@[simp] theorem dma_img (pf addr : Nat) (bytes : List Nat) (c : Chip) : (dma pf addr bytes c).img = c.img := rest_field Chip.img (fun _ => rfl) (posts_dma pf addr bytes c).rest
@[simp] theorem dma_copy (pf addr : Nat) (bytes : List Nat) (c : Chip) : (dma pf addr bytes c).copy = c.copy := rest_field Chip.copy (fun _ => rfl) (posts_dma pf addr bytes c).rest
@[simp] theorem dma_curves (pf addr : Nat) (bytes : List Nat) (c : Chip) : (dma pf addr bytes c).curves = c.curves := rest_field Chip.curves (fun _ => rfl) (posts_dma pf addr bytes c).rest
@[simp] theorem dma_cross (pf addr : Nat) (bytes : List Nat) (c : Chip) : (dma pf addr bytes c).cross = c.cross := rest_field Chip.cross (fun _ => rfl) (posts_dma pf addr bytes c).rest
@[simp] theorem dma_seqs (pf addr : Nat) (bytes : List Nat) (c : Chip) : (dma pf addr bytes c).seqs = c.seqs := rest_field Chip.seqs (fun _ => rfl) (posts_dma pf addr bytes c).rest
@[simp] theorem dma_ports (pf addr : Nat) (bytes : List Nat) (c : Chip) : (dma pf addr bytes c).ports = c.ports := rest_field Chip.ports (fun _ => rfl) (posts_dma pf addr bytes c).rest
@[simp] theorem dma_latches (pf addr : Nat) (bytes : List Nat) (c : Chip) : (dma pf addr bytes c).latches = c.latches := rest_field Chip.latches (fun _ => rfl) (posts_dma pf addr bytes c).rest
@[simp] theorem dma_timers (pf addr : Nat) (bytes : List Nat) (c : Chip) : (dma pf addr bytes c).timers = c.timers := rest_field Chip.timers (fun _ => rfl) (posts_dma pf addr bytes c).rest
@[simp] theorem dma_gstart (pf addr : Nat) (bytes : List Nat) (c : Chip) : (dma pf addr bytes c).gstart = c.gstart := rest_field Chip.gstart (fun _ => rfl) (posts_dma pf addr bytes c).rest
@[simp] theorem dma_segs (pf addr : Nat) (bytes : List Nat) (c : Chip) : (dma pf addr bytes c).segs = c.segs := rest_field Chip.segs (fun _ => rfl) (posts_dma pf addr bytes c).rest
@[simp] theorem dma_cans (pf addr : Nat) (bytes : List Nat) (c : Chip) : (dma pf addr bytes c).cans = c.cans := rest_field Chip.cans (fun _ => rfl) (posts_dma pf addr bytes c).rest
@[simp] theorem dma_lins (pf addr : Nat) (bytes : List Nat) (c : Chip) : (dma pf addr bytes c).lins = c.lins := rest_field Chip.lins (fun _ => rfl) (posts_dma pf addr bytes c).rest
@[simp] theorem dma_t1ss (pf addr : Nat) (bytes : List Nat) (c : Chip) : (dma pf addr bytes c).t1ss = c.t1ss := rest_field Chip.t1ss (fun _ => rfl) (posts_dma pf addr bytes c).rest
@[simp] theorem dma_bbs (pf addr : Nat) (bytes : List Nat) (c : Chip) : (dma pf addr bytes c).bbs = c.bbs := rest_field Chip.bbs (fun _ => rfl) (posts_dma pf addr bytes c).rest
@[simp] theorem dma_hostPort (pf addr : Nat) (bytes : List Nat) (c : Chip) : (dma pf addr bytes c).hostPort = c.hostPort := rest_field Chip.hostPort (fun _ => rfl) (posts_dma pf addr bytes c).rest
@[simp] theorem dma_net (pf addr : Nat) (bytes : List Nat) (c : Chip) : (dma pf addr bytes c).net = c.net := rest_field Chip.net (fun _ => rfl) (posts_dma pf addr bytes c).rest
@[simp] theorem dma_acc (pf addr : Nat) (bytes : List Nat) (c : Chip) : (dma pf addr bytes c).acc = c.acc := rest_field Chip.acc (fun _ => rfl) (posts_dma pf addr bytes c).rest
@[simp] theorem dma_upd (pf addr : Nat) (bytes : List Nat) (c : Chip) : (dma pf addr bytes c).upd = c.upd := rest_field Chip.upd (fun _ => rfl) (posts_dma pf addr bytes c).rest
@[simp] theorem dma_age (pf addr : Nat) (bytes : List Nat) (c : Chip) : (dma pf addr bytes c).age = c.age := rest_field Chip.age (fun _ => rfl) (posts_dma pf addr bytes c).rest
@[simp] theorem dma_at_stall (pf addr : Nat) (bytes : List Nat) (c : Chip) (j : Nat) : (dma pf addr bytes c).stall j = c.stall j := congrFun (rest_field Chip.stall (fun _ => rfl) (posts_dma pf addr bytes c).rest) j
@[simp] theorem dma_at_row (pf addr : Nat) (bytes : List Nat) (c : Chip) (j : Nat) : (dma pf addr bytes c).row j = c.row j := congrFun (rest_field Chip.row (fun _ => rfl) (posts_dma pf addr bytes c).rest) j
@[simp] theorem dma_at_valve (pf addr : Nat) (bytes : List Nat) (c : Chip) (j : Nat) : (dma pf addr bytes c).valve j = c.valve j := congrFun (rest_field Chip.valve (fun _ => rfl) (posts_dma pf addr bytes c).rest) j
@[simp] theorem dma_at_vg (pf addr : Nat) (bytes : List Nat) (c : Chip) (j : Nat) : (dma pf addr bytes c).vg j = c.vg j := congrFun (rest_field Chip.vg (fun _ => rfl) (posts_dma pf addr bytes c).rest) j
@[simp] theorem dma_at_loop (pf addr : Nat) (bytes : List Nat) (c : Chip) (j : Nat) : (dma pf addr bytes c).loop j = c.loop j := congrFun (rest_field Chip.loop (fun _ => rfl) (posts_dma pf addr bytes c).rest) j
@[simp] theorem dma_at_boost (pf addr : Nat) (bytes : List Nat) (c : Chip) (j : Nat) : (dma pf addr bytes c).boost j = c.boost j := congrFun (rest_field Chip.boost (fun _ => rfl) (posts_dma pf addr bytes c).rest) j
@[simp] theorem dma_at_sink (pf addr : Nat) (bytes : List Nat) (c : Chip) (j : Nat) : (dma pf addr bytes c).sink j = c.sink j := congrFun (rest_field Chip.sink (fun _ => rfl) (posts_dma pf addr bytes c).rest) j
@[simp] theorem dma_at_ntc (pf addr : Nat) (bytes : List Nat) (c : Chip) (j : Nat) : (dma pf addr bytes c).ntc j = c.ntc j := congrFun (rest_field Chip.ntc (fun _ => rfl) (posts_dma pf addr bytes c).rest) j
@[simp] theorem dma_at_si (pf addr : Nat) (bytes : List Nat) (c : Chip) (j : Nat) : (dma pf addr bytes c).si j = c.si j := congrFun (rest_field Chip.si (fun _ => rfl) (posts_dma pf addr bytes c).rest) j
@[simp] theorem dma_at_ain (pf addr : Nat) (bytes : List Nat) (c : Chip) (j : Nat) : (dma pf addr bytes c).ain j = c.ain j := congrFun (rest_field Chip.ain (fun _ => rfl) (posts_dma pf addr bytes c).rest) j
@[simp] theorem dma_at_dout (pf addr : Nat) (bytes : List Nat) (c : Chip) (j : Nat) : (dma pf addr bytes c).dout j = c.dout j := congrFun (rest_field Chip.dout (fun _ => rfl) (posts_dma pf addr bytes c).rest) j
@[simp] theorem dma_at_feed (pf addr : Nat) (bytes : List Nat) (c : Chip) (j : Nat) : (dma pf addr bytes c).feed j = c.feed j := congrFun (rest_field Chip.feed (fun _ => rfl) (posts_dma pf addr bytes c).rest) j
@[simp] theorem dma_at_safe (pf addr : Nat) (bytes : List Nat) (c : Chip) (j : Nat) : (dma pf addr bytes c).safe j = c.safe j := congrFun (rest_field Chip.safe (fun _ => rfl) (posts_dma pf addr bytes c).rest) j
@[simp] theorem dma_at_port (pf addr : Nat) (bytes : List Nat) (c : Chip) (j : Nat) : (dma pf addr bytes c).port j = c.port j := congrFun (rest_field Chip.port (fun _ => rfl) (posts_dma pf addr bytes c).rest) j
@[simp] theorem dma_at_timer (pf addr : Nat) (bytes : List Nat) (c : Chip) (j : Nat) : (dma pf addr bytes c).timer j = c.timer j := congrFun (rest_field Chip.timer (fun _ => rfl) (posts_dma pf addr bytes c).rest) j
@[simp] theorem dma_at_seg (pf addr : Nat) (bytes : List Nat) (c : Chip) (j : Nat) : (dma pf addr bytes c).seg j = c.seg j := congrFun (rest_field Chip.seg (fun _ => rfl) (posts_dma pf addr bytes c).rest) j
@[simp] theorem dma_at_can (pf addr : Nat) (bytes : List Nat) (c : Chip) (j : Nat) : (dma pf addr bytes c).can j = c.can j := congrFun (rest_field Chip.can (fun _ => rfl) (posts_dma pf addr bytes c).rest) j
@[simp] theorem dma_at_lin (pf addr : Nat) (bytes : List Nat) (c : Chip) (j : Nat) : (dma pf addr bytes c).lin j = c.lin j := congrFun (rest_field Chip.lin (fun _ => rfl) (posts_dma pf addr bytes c).rest) j
@[simp] theorem dma_at_t1s (pf addr : Nat) (bytes : List Nat) (c : Chip) (j : Nat) : (dma pf addr bytes c).t1s j = c.t1s j := congrFun (rest_field Chip.t1s (fun _ => rfl) (posts_dma pf addr bytes c).rest) j
@[simp] theorem dma_at_bb (pf addr : Nat) (bytes : List Nat) (c : Chip) (j : Nat) : (dma pf addr bytes c).bb j = c.bb j := congrFun (rest_field Chip.bb (fun _ => rfl) (posts_dma pf addr bytes c).rest) j
@[simp] theorem dma_yards (pf addr : Nat) (bytes : List Nat) (c : Chip) : (dma pf addr bytes c).yards = c.yards := (posts_dma pf addr bytes c).yards
@[simp] theorem dma_yard (pf addr : Nat) (bytes : List Nat) (c : Chip) (y : Nat) : (dma pf addr bytes c).yard y = c.yard y := by simp [Chip.yard]
@[simp] theorem dma_jobs (pf addr : Nat) (bytes : List Nat) (c : Chip) : (dma pf addr bytes c).jobs = c.jobs := (posts_dma pf addr bytes c).jobs
@[simp] theorem dma_nextJob (pf addr : Nat) (bytes : List Nat) (c : Chip) : (dma pf addr bytes c).nextJob = c.nextJob := (posts_dma pf addr bytes c).nextJob

-- dmaJob

@[simp] theorem dmaJob_now (id addr : Nat) (bytes : List Nat) (c : Chip) : (dmaJob id addr bytes c).now = c.now := rest_field Chip.now (fun _ => rfl) (posts_dmaJob id addr bytes c).rest
@[simp] theorem dmaJob_sys (id addr : Nat) (bytes : List Nat) (c : Chip) : (dmaJob id addr bytes c).sys = c.sys := rest_field Chip.sys (fun _ => rfl) (posts_dmaJob id addr bytes c).rest
@[simp] theorem dmaJob_mt (id addr : Nat) (bytes : List Nat) (c : Chip) : (dmaJob id addr bytes c).mt = c.mt := rest_field Chip.mt (fun _ => rfl) (posts_dmaJob id addr bytes c).rest
@[simp] theorem dmaJob_arb (id addr : Nat) (bytes : List Nat) (c : Chip) : (dmaJob id addr bytes c).arb = c.arb := rest_field Chip.arb (fun _ => rfl) (posts_dmaJob id addr bytes c).rest
@[simp] theorem dmaJob_feeds (id addr : Nat) (bytes : List Nat) (c : Chip) : (dmaJob id addr bytes c).feeds = c.feeds := rest_field Chip.feeds (fun _ => rfl) (posts_dmaJob id addr bytes c).rest
@[simp] theorem dmaJob_budget (id addr : Nat) (bytes : List Nat) (c : Chip) : (dmaJob id addr bytes c).budget = c.budget := rest_field Chip.budget (fun _ => rfl) (posts_dmaJob id addr bytes c).rest
@[simp] theorem dmaJob_safes (id addr : Nat) (bytes : List Nat) (c : Chip) : (dmaJob id addr bytes c).safes = c.safes := rest_field Chip.safes (fun _ => rfl) (posts_dmaJob id addr bytes c).rest
@[simp] theorem dmaJob_halt (id addr : Nat) (bytes : List Nat) (c : Chip) : (dmaJob id addr bytes c).halt = c.halt := rest_field Chip.halt (fun _ => rfl) (posts_dmaJob id addr bytes c).rest
@[simp] theorem dmaJob_img (id addr : Nat) (bytes : List Nat) (c : Chip) : (dmaJob id addr bytes c).img = c.img := rest_field Chip.img (fun _ => rfl) (posts_dmaJob id addr bytes c).rest
@[simp] theorem dmaJob_copy (id addr : Nat) (bytes : List Nat) (c : Chip) : (dmaJob id addr bytes c).copy = c.copy := rest_field Chip.copy (fun _ => rfl) (posts_dmaJob id addr bytes c).rest
@[simp] theorem dmaJob_curves (id addr : Nat) (bytes : List Nat) (c : Chip) : (dmaJob id addr bytes c).curves = c.curves := rest_field Chip.curves (fun _ => rfl) (posts_dmaJob id addr bytes c).rest
@[simp] theorem dmaJob_cross (id addr : Nat) (bytes : List Nat) (c : Chip) : (dmaJob id addr bytes c).cross = c.cross := rest_field Chip.cross (fun _ => rfl) (posts_dmaJob id addr bytes c).rest
@[simp] theorem dmaJob_seqs (id addr : Nat) (bytes : List Nat) (c : Chip) : (dmaJob id addr bytes c).seqs = c.seqs := rest_field Chip.seqs (fun _ => rfl) (posts_dmaJob id addr bytes c).rest
@[simp] theorem dmaJob_ports (id addr : Nat) (bytes : List Nat) (c : Chip) : (dmaJob id addr bytes c).ports = c.ports := rest_field Chip.ports (fun _ => rfl) (posts_dmaJob id addr bytes c).rest
@[simp] theorem dmaJob_latches (id addr : Nat) (bytes : List Nat) (c : Chip) : (dmaJob id addr bytes c).latches = c.latches := rest_field Chip.latches (fun _ => rfl) (posts_dmaJob id addr bytes c).rest
@[simp] theorem dmaJob_timers (id addr : Nat) (bytes : List Nat) (c : Chip) : (dmaJob id addr bytes c).timers = c.timers := rest_field Chip.timers (fun _ => rfl) (posts_dmaJob id addr bytes c).rest
@[simp] theorem dmaJob_gstart (id addr : Nat) (bytes : List Nat) (c : Chip) : (dmaJob id addr bytes c).gstart = c.gstart := rest_field Chip.gstart (fun _ => rfl) (posts_dmaJob id addr bytes c).rest
@[simp] theorem dmaJob_segs (id addr : Nat) (bytes : List Nat) (c : Chip) : (dmaJob id addr bytes c).segs = c.segs := rest_field Chip.segs (fun _ => rfl) (posts_dmaJob id addr bytes c).rest
@[simp] theorem dmaJob_cans (id addr : Nat) (bytes : List Nat) (c : Chip) : (dmaJob id addr bytes c).cans = c.cans := rest_field Chip.cans (fun _ => rfl) (posts_dmaJob id addr bytes c).rest
@[simp] theorem dmaJob_lins (id addr : Nat) (bytes : List Nat) (c : Chip) : (dmaJob id addr bytes c).lins = c.lins := rest_field Chip.lins (fun _ => rfl) (posts_dmaJob id addr bytes c).rest
@[simp] theorem dmaJob_t1ss (id addr : Nat) (bytes : List Nat) (c : Chip) : (dmaJob id addr bytes c).t1ss = c.t1ss := rest_field Chip.t1ss (fun _ => rfl) (posts_dmaJob id addr bytes c).rest
@[simp] theorem dmaJob_bbs (id addr : Nat) (bytes : List Nat) (c : Chip) : (dmaJob id addr bytes c).bbs = c.bbs := rest_field Chip.bbs (fun _ => rfl) (posts_dmaJob id addr bytes c).rest
@[simp] theorem dmaJob_hostPort (id addr : Nat) (bytes : List Nat) (c : Chip) : (dmaJob id addr bytes c).hostPort = c.hostPort := rest_field Chip.hostPort (fun _ => rfl) (posts_dmaJob id addr bytes c).rest
@[simp] theorem dmaJob_net (id addr : Nat) (bytes : List Nat) (c : Chip) : (dmaJob id addr bytes c).net = c.net := rest_field Chip.net (fun _ => rfl) (posts_dmaJob id addr bytes c).rest
@[simp] theorem dmaJob_acc (id addr : Nat) (bytes : List Nat) (c : Chip) : (dmaJob id addr bytes c).acc = c.acc := rest_field Chip.acc (fun _ => rfl) (posts_dmaJob id addr bytes c).rest
@[simp] theorem dmaJob_upd (id addr : Nat) (bytes : List Nat) (c : Chip) : (dmaJob id addr bytes c).upd = c.upd := rest_field Chip.upd (fun _ => rfl) (posts_dmaJob id addr bytes c).rest
@[simp] theorem dmaJob_age (id addr : Nat) (bytes : List Nat) (c : Chip) : (dmaJob id addr bytes c).age = c.age := rest_field Chip.age (fun _ => rfl) (posts_dmaJob id addr bytes c).rest
@[simp] theorem dmaJob_at_stall (id addr : Nat) (bytes : List Nat) (c : Chip) (j : Nat) : (dmaJob id addr bytes c).stall j = c.stall j := congrFun (rest_field Chip.stall (fun _ => rfl) (posts_dmaJob id addr bytes c).rest) j
@[simp] theorem dmaJob_at_row (id addr : Nat) (bytes : List Nat) (c : Chip) (j : Nat) : (dmaJob id addr bytes c).row j = c.row j := congrFun (rest_field Chip.row (fun _ => rfl) (posts_dmaJob id addr bytes c).rest) j
@[simp] theorem dmaJob_at_valve (id addr : Nat) (bytes : List Nat) (c : Chip) (j : Nat) : (dmaJob id addr bytes c).valve j = c.valve j := congrFun (rest_field Chip.valve (fun _ => rfl) (posts_dmaJob id addr bytes c).rest) j
@[simp] theorem dmaJob_at_vg (id addr : Nat) (bytes : List Nat) (c : Chip) (j : Nat) : (dmaJob id addr bytes c).vg j = c.vg j := congrFun (rest_field Chip.vg (fun _ => rfl) (posts_dmaJob id addr bytes c).rest) j
@[simp] theorem dmaJob_at_loop (id addr : Nat) (bytes : List Nat) (c : Chip) (j : Nat) : (dmaJob id addr bytes c).loop j = c.loop j := congrFun (rest_field Chip.loop (fun _ => rfl) (posts_dmaJob id addr bytes c).rest) j
@[simp] theorem dmaJob_at_boost (id addr : Nat) (bytes : List Nat) (c : Chip) (j : Nat) : (dmaJob id addr bytes c).boost j = c.boost j := congrFun (rest_field Chip.boost (fun _ => rfl) (posts_dmaJob id addr bytes c).rest) j
@[simp] theorem dmaJob_at_sink (id addr : Nat) (bytes : List Nat) (c : Chip) (j : Nat) : (dmaJob id addr bytes c).sink j = c.sink j := congrFun (rest_field Chip.sink (fun _ => rfl) (posts_dmaJob id addr bytes c).rest) j
@[simp] theorem dmaJob_at_ntc (id addr : Nat) (bytes : List Nat) (c : Chip) (j : Nat) : (dmaJob id addr bytes c).ntc j = c.ntc j := congrFun (rest_field Chip.ntc (fun _ => rfl) (posts_dmaJob id addr bytes c).rest) j
@[simp] theorem dmaJob_at_si (id addr : Nat) (bytes : List Nat) (c : Chip) (j : Nat) : (dmaJob id addr bytes c).si j = c.si j := congrFun (rest_field Chip.si (fun _ => rfl) (posts_dmaJob id addr bytes c).rest) j
@[simp] theorem dmaJob_at_ain (id addr : Nat) (bytes : List Nat) (c : Chip) (j : Nat) : (dmaJob id addr bytes c).ain j = c.ain j := congrFun (rest_field Chip.ain (fun _ => rfl) (posts_dmaJob id addr bytes c).rest) j
@[simp] theorem dmaJob_at_dout (id addr : Nat) (bytes : List Nat) (c : Chip) (j : Nat) : (dmaJob id addr bytes c).dout j = c.dout j := congrFun (rest_field Chip.dout (fun _ => rfl) (posts_dmaJob id addr bytes c).rest) j
@[simp] theorem dmaJob_at_feed (id addr : Nat) (bytes : List Nat) (c : Chip) (j : Nat) : (dmaJob id addr bytes c).feed j = c.feed j := congrFun (rest_field Chip.feed (fun _ => rfl) (posts_dmaJob id addr bytes c).rest) j
@[simp] theorem dmaJob_at_safe (id addr : Nat) (bytes : List Nat) (c : Chip) (j : Nat) : (dmaJob id addr bytes c).safe j = c.safe j := congrFun (rest_field Chip.safe (fun _ => rfl) (posts_dmaJob id addr bytes c).rest) j
@[simp] theorem dmaJob_at_port (id addr : Nat) (bytes : List Nat) (c : Chip) (j : Nat) : (dmaJob id addr bytes c).port j = c.port j := congrFun (rest_field Chip.port (fun _ => rfl) (posts_dmaJob id addr bytes c).rest) j
@[simp] theorem dmaJob_at_timer (id addr : Nat) (bytes : List Nat) (c : Chip) (j : Nat) : (dmaJob id addr bytes c).timer j = c.timer j := congrFun (rest_field Chip.timer (fun _ => rfl) (posts_dmaJob id addr bytes c).rest) j
@[simp] theorem dmaJob_at_seg (id addr : Nat) (bytes : List Nat) (c : Chip) (j : Nat) : (dmaJob id addr bytes c).seg j = c.seg j := congrFun (rest_field Chip.seg (fun _ => rfl) (posts_dmaJob id addr bytes c).rest) j
@[simp] theorem dmaJob_at_can (id addr : Nat) (bytes : List Nat) (c : Chip) (j : Nat) : (dmaJob id addr bytes c).can j = c.can j := congrFun (rest_field Chip.can (fun _ => rfl) (posts_dmaJob id addr bytes c).rest) j
@[simp] theorem dmaJob_at_lin (id addr : Nat) (bytes : List Nat) (c : Chip) (j : Nat) : (dmaJob id addr bytes c).lin j = c.lin j := congrFun (rest_field Chip.lin (fun _ => rfl) (posts_dmaJob id addr bytes c).rest) j
@[simp] theorem dmaJob_at_t1s (id addr : Nat) (bytes : List Nat) (c : Chip) (j : Nat) : (dmaJob id addr bytes c).t1s j = c.t1s j := congrFun (rest_field Chip.t1s (fun _ => rfl) (posts_dmaJob id addr bytes c).rest) j
@[simp] theorem dmaJob_at_bb (id addr : Nat) (bytes : List Nat) (c : Chip) (j : Nat) : (dmaJob id addr bytes c).bb j = c.bb j := congrFun (rest_field Chip.bb (fun _ => rfl) (posts_dmaJob id addr bytes c).rest) j
@[simp] theorem dmaJob_yards (id addr : Nat) (bytes : List Nat) (c : Chip) : (dmaJob id addr bytes c).yards = c.yards := (posts_dmaJob id addr bytes c).yards
@[simp] theorem dmaJob_yard (id addr : Nat) (bytes : List Nat) (c : Chip) (y : Nat) : (dmaJob id addr bytes c).yard y = c.yard y := by simp [Chip.yard]
@[simp] theorem dmaJob_jobs (id addr : Nat) (bytes : List Nat) (c : Chip) : (dmaJob id addr bytes c).jobs = c.jobs := (posts_dmaJob id addr bytes c).jobs
@[simp] theorem dmaJob_nextJob (id addr : Nat) (bytes : List Nat) (c : Chip) : (dmaJob id addr bytes c).nextJob = c.nextJob := (posts_dmaJob id addr bytes c).nextJob

-- complete

@[simp] theorem complete_now (r : Regs) (id status result : Nat) (c : Chip) : (complete r id status result c).now = c.now := rest_field Chip.now (fun _ => rfl) (ends_complete r id status result c).rest
@[simp] theorem complete_sys (r : Regs) (id status result : Nat) (c : Chip) : (complete r id status result c).sys = c.sys := rest_field Chip.sys (fun _ => rfl) (ends_complete r id status result c).rest
@[simp] theorem complete_mt (r : Regs) (id status result : Nat) (c : Chip) : (complete r id status result c).mt = c.mt := rest_field Chip.mt (fun _ => rfl) (ends_complete r id status result c).rest
@[simp] theorem complete_arb (r : Regs) (id status result : Nat) (c : Chip) : (complete r id status result c).arb = c.arb := rest_field Chip.arb (fun _ => rfl) (ends_complete r id status result c).rest
@[simp] theorem complete_feeds (r : Regs) (id status result : Nat) (c : Chip) : (complete r id status result c).feeds = c.feeds := rest_field Chip.feeds (fun _ => rfl) (ends_complete r id status result c).rest
@[simp] theorem complete_budget (r : Regs) (id status result : Nat) (c : Chip) : (complete r id status result c).budget = c.budget := rest_field Chip.budget (fun _ => rfl) (ends_complete r id status result c).rest
@[simp] theorem complete_safes (r : Regs) (id status result : Nat) (c : Chip) : (complete r id status result c).safes = c.safes := rest_field Chip.safes (fun _ => rfl) (ends_complete r id status result c).rest
@[simp] theorem complete_halt (r : Regs) (id status result : Nat) (c : Chip) : (complete r id status result c).halt = c.halt := rest_field Chip.halt (fun _ => rfl) (ends_complete r id status result c).rest
@[simp] theorem complete_img (r : Regs) (id status result : Nat) (c : Chip) : (complete r id status result c).img = c.img := rest_field Chip.img (fun _ => rfl) (ends_complete r id status result c).rest
@[simp] theorem complete_copy (r : Regs) (id status result : Nat) (c : Chip) : (complete r id status result c).copy = c.copy := rest_field Chip.copy (fun _ => rfl) (ends_complete r id status result c).rest
@[simp] theorem complete_curves (r : Regs) (id status result : Nat) (c : Chip) : (complete r id status result c).curves = c.curves := rest_field Chip.curves (fun _ => rfl) (ends_complete r id status result c).rest
@[simp] theorem complete_cross (r : Regs) (id status result : Nat) (c : Chip) : (complete r id status result c).cross = c.cross := rest_field Chip.cross (fun _ => rfl) (ends_complete r id status result c).rest
@[simp] theorem complete_seqs (r : Regs) (id status result : Nat) (c : Chip) : (complete r id status result c).seqs = c.seqs := rest_field Chip.seqs (fun _ => rfl) (ends_complete r id status result c).rest
@[simp] theorem complete_ports (r : Regs) (id status result : Nat) (c : Chip) : (complete r id status result c).ports = c.ports := rest_field Chip.ports (fun _ => rfl) (ends_complete r id status result c).rest
@[simp] theorem complete_latches (r : Regs) (id status result : Nat) (c : Chip) : (complete r id status result c).latches = c.latches := rest_field Chip.latches (fun _ => rfl) (ends_complete r id status result c).rest
@[simp] theorem complete_timers (r : Regs) (id status result : Nat) (c : Chip) : (complete r id status result c).timers = c.timers := rest_field Chip.timers (fun _ => rfl) (ends_complete r id status result c).rest
@[simp] theorem complete_gstart (r : Regs) (id status result : Nat) (c : Chip) : (complete r id status result c).gstart = c.gstart := rest_field Chip.gstart (fun _ => rfl) (ends_complete r id status result c).rest
@[simp] theorem complete_segs (r : Regs) (id status result : Nat) (c : Chip) : (complete r id status result c).segs = c.segs := rest_field Chip.segs (fun _ => rfl) (ends_complete r id status result c).rest
@[simp] theorem complete_cans (r : Regs) (id status result : Nat) (c : Chip) : (complete r id status result c).cans = c.cans := rest_field Chip.cans (fun _ => rfl) (ends_complete r id status result c).rest
@[simp] theorem complete_lins (r : Regs) (id status result : Nat) (c : Chip) : (complete r id status result c).lins = c.lins := rest_field Chip.lins (fun _ => rfl) (ends_complete r id status result c).rest
@[simp] theorem complete_t1ss (r : Regs) (id status result : Nat) (c : Chip) : (complete r id status result c).t1ss = c.t1ss := rest_field Chip.t1ss (fun _ => rfl) (ends_complete r id status result c).rest
@[simp] theorem complete_bbs (r : Regs) (id status result : Nat) (c : Chip) : (complete r id status result c).bbs = c.bbs := rest_field Chip.bbs (fun _ => rfl) (ends_complete r id status result c).rest
@[simp] theorem complete_hostPort (r : Regs) (id status result : Nat) (c : Chip) : (complete r id status result c).hostPort = c.hostPort := rest_field Chip.hostPort (fun _ => rfl) (ends_complete r id status result c).rest
@[simp] theorem complete_net (r : Regs) (id status result : Nat) (c : Chip) : (complete r id status result c).net = c.net := rest_field Chip.net (fun _ => rfl) (ends_complete r id status result c).rest
@[simp] theorem complete_acc (r : Regs) (id status result : Nat) (c : Chip) : (complete r id status result c).acc = c.acc := rest_field Chip.acc (fun _ => rfl) (ends_complete r id status result c).rest
@[simp] theorem complete_upd (r : Regs) (id status result : Nat) (c : Chip) : (complete r id status result c).upd = c.upd := rest_field Chip.upd (fun _ => rfl) (ends_complete r id status result c).rest
@[simp] theorem complete_age (r : Regs) (id status result : Nat) (c : Chip) : (complete r id status result c).age = c.age := rest_field Chip.age (fun _ => rfl) (ends_complete r id status result c).rest
@[simp] theorem complete_at_stall (r : Regs) (id status result : Nat) (c : Chip) (j : Nat) : (complete r id status result c).stall j = c.stall j := congrFun (rest_field Chip.stall (fun _ => rfl) (ends_complete r id status result c).rest) j
@[simp] theorem complete_at_row (r : Regs) (id status result : Nat) (c : Chip) (j : Nat) : (complete r id status result c).row j = c.row j := congrFun (rest_field Chip.row (fun _ => rfl) (ends_complete r id status result c).rest) j
@[simp] theorem complete_at_valve (r : Regs) (id status result : Nat) (c : Chip) (j : Nat) : (complete r id status result c).valve j = c.valve j := congrFun (rest_field Chip.valve (fun _ => rfl) (ends_complete r id status result c).rest) j
@[simp] theorem complete_at_vg (r : Regs) (id status result : Nat) (c : Chip) (j : Nat) : (complete r id status result c).vg j = c.vg j := congrFun (rest_field Chip.vg (fun _ => rfl) (ends_complete r id status result c).rest) j
@[simp] theorem complete_at_loop (r : Regs) (id status result : Nat) (c : Chip) (j : Nat) : (complete r id status result c).loop j = c.loop j := congrFun (rest_field Chip.loop (fun _ => rfl) (ends_complete r id status result c).rest) j
@[simp] theorem complete_at_boost (r : Regs) (id status result : Nat) (c : Chip) (j : Nat) : (complete r id status result c).boost j = c.boost j := congrFun (rest_field Chip.boost (fun _ => rfl) (ends_complete r id status result c).rest) j
@[simp] theorem complete_at_sink (r : Regs) (id status result : Nat) (c : Chip) (j : Nat) : (complete r id status result c).sink j = c.sink j := congrFun (rest_field Chip.sink (fun _ => rfl) (ends_complete r id status result c).rest) j
@[simp] theorem complete_at_ntc (r : Regs) (id status result : Nat) (c : Chip) (j : Nat) : (complete r id status result c).ntc j = c.ntc j := congrFun (rest_field Chip.ntc (fun _ => rfl) (ends_complete r id status result c).rest) j
@[simp] theorem complete_at_si (r : Regs) (id status result : Nat) (c : Chip) (j : Nat) : (complete r id status result c).si j = c.si j := congrFun (rest_field Chip.si (fun _ => rfl) (ends_complete r id status result c).rest) j
@[simp] theorem complete_at_ain (r : Regs) (id status result : Nat) (c : Chip) (j : Nat) : (complete r id status result c).ain j = c.ain j := congrFun (rest_field Chip.ain (fun _ => rfl) (ends_complete r id status result c).rest) j
@[simp] theorem complete_at_dout (r : Regs) (id status result : Nat) (c : Chip) (j : Nat) : (complete r id status result c).dout j = c.dout j := congrFun (rest_field Chip.dout (fun _ => rfl) (ends_complete r id status result c).rest) j
@[simp] theorem complete_at_feed (r : Regs) (id status result : Nat) (c : Chip) (j : Nat) : (complete r id status result c).feed j = c.feed j := congrFun (rest_field Chip.feed (fun _ => rfl) (ends_complete r id status result c).rest) j
@[simp] theorem complete_at_safe (r : Regs) (id status result : Nat) (c : Chip) (j : Nat) : (complete r id status result c).safe j = c.safe j := congrFun (rest_field Chip.safe (fun _ => rfl) (ends_complete r id status result c).rest) j
@[simp] theorem complete_at_port (r : Regs) (id status result : Nat) (c : Chip) (j : Nat) : (complete r id status result c).port j = c.port j := congrFun (rest_field Chip.port (fun _ => rfl) (ends_complete r id status result c).rest) j
@[simp] theorem complete_at_timer (r : Regs) (id status result : Nat) (c : Chip) (j : Nat) : (complete r id status result c).timer j = c.timer j := congrFun (rest_field Chip.timer (fun _ => rfl) (ends_complete r id status result c).rest) j
@[simp] theorem complete_at_seg (r : Regs) (id status result : Nat) (c : Chip) (j : Nat) : (complete r id status result c).seg j = c.seg j := congrFun (rest_field Chip.seg (fun _ => rfl) (ends_complete r id status result c).rest) j
@[simp] theorem complete_at_can (r : Regs) (id status result : Nat) (c : Chip) (j : Nat) : (complete r id status result c).can j = c.can j := congrFun (rest_field Chip.can (fun _ => rfl) (ends_complete r id status result c).rest) j
@[simp] theorem complete_at_lin (r : Regs) (id status result : Nat) (c : Chip) (j : Nat) : (complete r id status result c).lin j = c.lin j := congrFun (rest_field Chip.lin (fun _ => rfl) (ends_complete r id status result c).rest) j
@[simp] theorem complete_at_t1s (r : Regs) (id status result : Nat) (c : Chip) (j : Nat) : (complete r id status result c).t1s j = c.t1s j := congrFun (rest_field Chip.t1s (fun _ => rfl) (ends_complete r id status result c).rest) j
@[simp] theorem complete_at_bb (r : Regs) (id status result : Nat) (c : Chip) (j : Nat) : (complete r id status result c).bb j = c.bb j := congrFun (rest_field Chip.bb (fun _ => rfl) (ends_complete r id status result c).rest) j
@[simp] theorem complete_yards (r : Regs) (id status result : Nat) (c : Chip) : (complete r id status result c).yards = c.yards := (ends_complete r id status result c).yards
@[simp] theorem complete_yard (r : Regs) (id status result : Nat) (c : Chip) (y : Nat) : (complete r id status result c).yard y = c.yard y := by simp [Chip.yard]

-- completeAt

@[simp] theorem completeAt_now (r : Regs) (id status result t : Nat) (c : Chip) : (completeAt r id status result t c).now = c.now := rest_field Chip.now (fun _ => rfl) (ends_completeAt r id status result t c).rest
@[simp] theorem completeAt_sys (r : Regs) (id status result t : Nat) (c : Chip) : (completeAt r id status result t c).sys = c.sys := rest_field Chip.sys (fun _ => rfl) (ends_completeAt r id status result t c).rest
@[simp] theorem completeAt_mt (r : Regs) (id status result t : Nat) (c : Chip) : (completeAt r id status result t c).mt = c.mt := rest_field Chip.mt (fun _ => rfl) (ends_completeAt r id status result t c).rest
@[simp] theorem completeAt_arb (r : Regs) (id status result t : Nat) (c : Chip) : (completeAt r id status result t c).arb = c.arb := rest_field Chip.arb (fun _ => rfl) (ends_completeAt r id status result t c).rest
@[simp] theorem completeAt_feeds (r : Regs) (id status result t : Nat) (c : Chip) : (completeAt r id status result t c).feeds = c.feeds := rest_field Chip.feeds (fun _ => rfl) (ends_completeAt r id status result t c).rest
@[simp] theorem completeAt_budget (r : Regs) (id status result t : Nat) (c : Chip) : (completeAt r id status result t c).budget = c.budget := rest_field Chip.budget (fun _ => rfl) (ends_completeAt r id status result t c).rest
@[simp] theorem completeAt_safes (r : Regs) (id status result t : Nat) (c : Chip) : (completeAt r id status result t c).safes = c.safes := rest_field Chip.safes (fun _ => rfl) (ends_completeAt r id status result t c).rest
@[simp] theorem completeAt_halt (r : Regs) (id status result t : Nat) (c : Chip) : (completeAt r id status result t c).halt = c.halt := rest_field Chip.halt (fun _ => rfl) (ends_completeAt r id status result t c).rest
@[simp] theorem completeAt_img (r : Regs) (id status result t : Nat) (c : Chip) : (completeAt r id status result t c).img = c.img := rest_field Chip.img (fun _ => rfl) (ends_completeAt r id status result t c).rest
@[simp] theorem completeAt_copy (r : Regs) (id status result t : Nat) (c : Chip) : (completeAt r id status result t c).copy = c.copy := rest_field Chip.copy (fun _ => rfl) (ends_completeAt r id status result t c).rest
@[simp] theorem completeAt_curves (r : Regs) (id status result t : Nat) (c : Chip) : (completeAt r id status result t c).curves = c.curves := rest_field Chip.curves (fun _ => rfl) (ends_completeAt r id status result t c).rest
@[simp] theorem completeAt_cross (r : Regs) (id status result t : Nat) (c : Chip) : (completeAt r id status result t c).cross = c.cross := rest_field Chip.cross (fun _ => rfl) (ends_completeAt r id status result t c).rest
@[simp] theorem completeAt_seqs (r : Regs) (id status result t : Nat) (c : Chip) : (completeAt r id status result t c).seqs = c.seqs := rest_field Chip.seqs (fun _ => rfl) (ends_completeAt r id status result t c).rest
@[simp] theorem completeAt_ports (r : Regs) (id status result t : Nat) (c : Chip) : (completeAt r id status result t c).ports = c.ports := rest_field Chip.ports (fun _ => rfl) (ends_completeAt r id status result t c).rest
@[simp] theorem completeAt_latches (r : Regs) (id status result t : Nat) (c : Chip) : (completeAt r id status result t c).latches = c.latches := rest_field Chip.latches (fun _ => rfl) (ends_completeAt r id status result t c).rest
@[simp] theorem completeAt_timers (r : Regs) (id status result t : Nat) (c : Chip) : (completeAt r id status result t c).timers = c.timers := rest_field Chip.timers (fun _ => rfl) (ends_completeAt r id status result t c).rest
@[simp] theorem completeAt_gstart (r : Regs) (id status result t : Nat) (c : Chip) : (completeAt r id status result t c).gstart = c.gstart := rest_field Chip.gstart (fun _ => rfl) (ends_completeAt r id status result t c).rest
@[simp] theorem completeAt_segs (r : Regs) (id status result t : Nat) (c : Chip) : (completeAt r id status result t c).segs = c.segs := rest_field Chip.segs (fun _ => rfl) (ends_completeAt r id status result t c).rest
@[simp] theorem completeAt_cans (r : Regs) (id status result t : Nat) (c : Chip) : (completeAt r id status result t c).cans = c.cans := rest_field Chip.cans (fun _ => rfl) (ends_completeAt r id status result t c).rest
@[simp] theorem completeAt_lins (r : Regs) (id status result t : Nat) (c : Chip) : (completeAt r id status result t c).lins = c.lins := rest_field Chip.lins (fun _ => rfl) (ends_completeAt r id status result t c).rest
@[simp] theorem completeAt_t1ss (r : Regs) (id status result t : Nat) (c : Chip) : (completeAt r id status result t c).t1ss = c.t1ss := rest_field Chip.t1ss (fun _ => rfl) (ends_completeAt r id status result t c).rest
@[simp] theorem completeAt_bbs (r : Regs) (id status result t : Nat) (c : Chip) : (completeAt r id status result t c).bbs = c.bbs := rest_field Chip.bbs (fun _ => rfl) (ends_completeAt r id status result t c).rest
@[simp] theorem completeAt_hostPort (r : Regs) (id status result t : Nat) (c : Chip) : (completeAt r id status result t c).hostPort = c.hostPort := rest_field Chip.hostPort (fun _ => rfl) (ends_completeAt r id status result t c).rest
@[simp] theorem completeAt_net (r : Regs) (id status result t : Nat) (c : Chip) : (completeAt r id status result t c).net = c.net := rest_field Chip.net (fun _ => rfl) (ends_completeAt r id status result t c).rest
@[simp] theorem completeAt_acc (r : Regs) (id status result t : Nat) (c : Chip) : (completeAt r id status result t c).acc = c.acc := rest_field Chip.acc (fun _ => rfl) (ends_completeAt r id status result t c).rest
@[simp] theorem completeAt_upd (r : Regs) (id status result t : Nat) (c : Chip) : (completeAt r id status result t c).upd = c.upd := rest_field Chip.upd (fun _ => rfl) (ends_completeAt r id status result t c).rest
@[simp] theorem completeAt_age (r : Regs) (id status result t : Nat) (c : Chip) : (completeAt r id status result t c).age = c.age := rest_field Chip.age (fun _ => rfl) (ends_completeAt r id status result t c).rest
@[simp] theorem completeAt_at_stall (r : Regs) (id status result t : Nat) (c : Chip) (j : Nat) : (completeAt r id status result t c).stall j = c.stall j := congrFun (rest_field Chip.stall (fun _ => rfl) (ends_completeAt r id status result t c).rest) j
@[simp] theorem completeAt_at_row (r : Regs) (id status result t : Nat) (c : Chip) (j : Nat) : (completeAt r id status result t c).row j = c.row j := congrFun (rest_field Chip.row (fun _ => rfl) (ends_completeAt r id status result t c).rest) j
@[simp] theorem completeAt_at_valve (r : Regs) (id status result t : Nat) (c : Chip) (j : Nat) : (completeAt r id status result t c).valve j = c.valve j := congrFun (rest_field Chip.valve (fun _ => rfl) (ends_completeAt r id status result t c).rest) j
@[simp] theorem completeAt_at_vg (r : Regs) (id status result t : Nat) (c : Chip) (j : Nat) : (completeAt r id status result t c).vg j = c.vg j := congrFun (rest_field Chip.vg (fun _ => rfl) (ends_completeAt r id status result t c).rest) j
@[simp] theorem completeAt_at_loop (r : Regs) (id status result t : Nat) (c : Chip) (j : Nat) : (completeAt r id status result t c).loop j = c.loop j := congrFun (rest_field Chip.loop (fun _ => rfl) (ends_completeAt r id status result t c).rest) j
@[simp] theorem completeAt_at_boost (r : Regs) (id status result t : Nat) (c : Chip) (j : Nat) : (completeAt r id status result t c).boost j = c.boost j := congrFun (rest_field Chip.boost (fun _ => rfl) (ends_completeAt r id status result t c).rest) j
@[simp] theorem completeAt_at_sink (r : Regs) (id status result t : Nat) (c : Chip) (j : Nat) : (completeAt r id status result t c).sink j = c.sink j := congrFun (rest_field Chip.sink (fun _ => rfl) (ends_completeAt r id status result t c).rest) j
@[simp] theorem completeAt_at_ntc (r : Regs) (id status result t : Nat) (c : Chip) (j : Nat) : (completeAt r id status result t c).ntc j = c.ntc j := congrFun (rest_field Chip.ntc (fun _ => rfl) (ends_completeAt r id status result t c).rest) j
@[simp] theorem completeAt_at_si (r : Regs) (id status result t : Nat) (c : Chip) (j : Nat) : (completeAt r id status result t c).si j = c.si j := congrFun (rest_field Chip.si (fun _ => rfl) (ends_completeAt r id status result t c).rest) j
@[simp] theorem completeAt_at_ain (r : Regs) (id status result t : Nat) (c : Chip) (j : Nat) : (completeAt r id status result t c).ain j = c.ain j := congrFun (rest_field Chip.ain (fun _ => rfl) (ends_completeAt r id status result t c).rest) j
@[simp] theorem completeAt_at_dout (r : Regs) (id status result t : Nat) (c : Chip) (j : Nat) : (completeAt r id status result t c).dout j = c.dout j := congrFun (rest_field Chip.dout (fun _ => rfl) (ends_completeAt r id status result t c).rest) j
@[simp] theorem completeAt_at_feed (r : Regs) (id status result t : Nat) (c : Chip) (j : Nat) : (completeAt r id status result t c).feed j = c.feed j := congrFun (rest_field Chip.feed (fun _ => rfl) (ends_completeAt r id status result t c).rest) j
@[simp] theorem completeAt_at_safe (r : Regs) (id status result t : Nat) (c : Chip) (j : Nat) : (completeAt r id status result t c).safe j = c.safe j := congrFun (rest_field Chip.safe (fun _ => rfl) (ends_completeAt r id status result t c).rest) j
@[simp] theorem completeAt_at_port (r : Regs) (id status result t : Nat) (c : Chip) (j : Nat) : (completeAt r id status result t c).port j = c.port j := congrFun (rest_field Chip.port (fun _ => rfl) (ends_completeAt r id status result t c).rest) j
@[simp] theorem completeAt_at_timer (r : Regs) (id status result t : Nat) (c : Chip) (j : Nat) : (completeAt r id status result t c).timer j = c.timer j := congrFun (rest_field Chip.timer (fun _ => rfl) (ends_completeAt r id status result t c).rest) j
@[simp] theorem completeAt_at_seg (r : Regs) (id status result t : Nat) (c : Chip) (j : Nat) : (completeAt r id status result t c).seg j = c.seg j := congrFun (rest_field Chip.seg (fun _ => rfl) (ends_completeAt r id status result t c).rest) j
@[simp] theorem completeAt_at_can (r : Regs) (id status result t : Nat) (c : Chip) (j : Nat) : (completeAt r id status result t c).can j = c.can j := congrFun (rest_field Chip.can (fun _ => rfl) (ends_completeAt r id status result t c).rest) j
@[simp] theorem completeAt_at_lin (r : Regs) (id status result t : Nat) (c : Chip) (j : Nat) : (completeAt r id status result t c).lin j = c.lin j := congrFun (rest_field Chip.lin (fun _ => rfl) (ends_completeAt r id status result t c).rest) j
@[simp] theorem completeAt_at_t1s (r : Regs) (id status result t : Nat) (c : Chip) (j : Nat) : (completeAt r id status result t c).t1s j = c.t1s j := congrFun (rest_field Chip.t1s (fun _ => rfl) (ends_completeAt r id status result t c).rest) j
@[simp] theorem completeAt_at_bb (r : Regs) (id status result t : Nat) (c : Chip) (j : Nat) : (completeAt r id status result t c).bb j = c.bb j := congrFun (rest_field Chip.bb (fun _ => rfl) (ends_completeAt r id status result t c).rest) j
@[simp] theorem completeAt_yards (r : Regs) (id status result t : Nat) (c : Chip) : (completeAt r id status result t c).yards = c.yards := (ends_completeAt r id status result t c).yards
@[simp] theorem completeAt_yard (r : Regs) (id status result t : Nat) (c : Chip) (y : Nat) : (completeAt r id status result t c).yard y = c.yard y := by simp [Chip.yard]

-- completeAll

@[simp] theorem completeAll_now (r : Regs) (ids : List Nat) (status : Nat) (c : Chip) : (completeAll r ids status c).now = c.now := rest_field Chip.now (fun _ => rfl) (ends_completeAll r ids status c).rest
@[simp] theorem completeAll_sys (r : Regs) (ids : List Nat) (status : Nat) (c : Chip) : (completeAll r ids status c).sys = c.sys := rest_field Chip.sys (fun _ => rfl) (ends_completeAll r ids status c).rest
@[simp] theorem completeAll_mt (r : Regs) (ids : List Nat) (status : Nat) (c : Chip) : (completeAll r ids status c).mt = c.mt := rest_field Chip.mt (fun _ => rfl) (ends_completeAll r ids status c).rest
@[simp] theorem completeAll_arb (r : Regs) (ids : List Nat) (status : Nat) (c : Chip) : (completeAll r ids status c).arb = c.arb := rest_field Chip.arb (fun _ => rfl) (ends_completeAll r ids status c).rest
@[simp] theorem completeAll_feeds (r : Regs) (ids : List Nat) (status : Nat) (c : Chip) : (completeAll r ids status c).feeds = c.feeds := rest_field Chip.feeds (fun _ => rfl) (ends_completeAll r ids status c).rest
@[simp] theorem completeAll_budget (r : Regs) (ids : List Nat) (status : Nat) (c : Chip) : (completeAll r ids status c).budget = c.budget := rest_field Chip.budget (fun _ => rfl) (ends_completeAll r ids status c).rest
@[simp] theorem completeAll_safes (r : Regs) (ids : List Nat) (status : Nat) (c : Chip) : (completeAll r ids status c).safes = c.safes := rest_field Chip.safes (fun _ => rfl) (ends_completeAll r ids status c).rest
@[simp] theorem completeAll_halt (r : Regs) (ids : List Nat) (status : Nat) (c : Chip) : (completeAll r ids status c).halt = c.halt := rest_field Chip.halt (fun _ => rfl) (ends_completeAll r ids status c).rest
@[simp] theorem completeAll_img (r : Regs) (ids : List Nat) (status : Nat) (c : Chip) : (completeAll r ids status c).img = c.img := rest_field Chip.img (fun _ => rfl) (ends_completeAll r ids status c).rest
@[simp] theorem completeAll_copy (r : Regs) (ids : List Nat) (status : Nat) (c : Chip) : (completeAll r ids status c).copy = c.copy := rest_field Chip.copy (fun _ => rfl) (ends_completeAll r ids status c).rest
@[simp] theorem completeAll_curves (r : Regs) (ids : List Nat) (status : Nat) (c : Chip) : (completeAll r ids status c).curves = c.curves := rest_field Chip.curves (fun _ => rfl) (ends_completeAll r ids status c).rest
@[simp] theorem completeAll_cross (r : Regs) (ids : List Nat) (status : Nat) (c : Chip) : (completeAll r ids status c).cross = c.cross := rest_field Chip.cross (fun _ => rfl) (ends_completeAll r ids status c).rest
@[simp] theorem completeAll_seqs (r : Regs) (ids : List Nat) (status : Nat) (c : Chip) : (completeAll r ids status c).seqs = c.seqs := rest_field Chip.seqs (fun _ => rfl) (ends_completeAll r ids status c).rest
@[simp] theorem completeAll_ports (r : Regs) (ids : List Nat) (status : Nat) (c : Chip) : (completeAll r ids status c).ports = c.ports := rest_field Chip.ports (fun _ => rfl) (ends_completeAll r ids status c).rest
@[simp] theorem completeAll_latches (r : Regs) (ids : List Nat) (status : Nat) (c : Chip) : (completeAll r ids status c).latches = c.latches := rest_field Chip.latches (fun _ => rfl) (ends_completeAll r ids status c).rest
@[simp] theorem completeAll_timers (r : Regs) (ids : List Nat) (status : Nat) (c : Chip) : (completeAll r ids status c).timers = c.timers := rest_field Chip.timers (fun _ => rfl) (ends_completeAll r ids status c).rest
@[simp] theorem completeAll_gstart (r : Regs) (ids : List Nat) (status : Nat) (c : Chip) : (completeAll r ids status c).gstart = c.gstart := rest_field Chip.gstart (fun _ => rfl) (ends_completeAll r ids status c).rest
@[simp] theorem completeAll_segs (r : Regs) (ids : List Nat) (status : Nat) (c : Chip) : (completeAll r ids status c).segs = c.segs := rest_field Chip.segs (fun _ => rfl) (ends_completeAll r ids status c).rest
@[simp] theorem completeAll_cans (r : Regs) (ids : List Nat) (status : Nat) (c : Chip) : (completeAll r ids status c).cans = c.cans := rest_field Chip.cans (fun _ => rfl) (ends_completeAll r ids status c).rest
@[simp] theorem completeAll_lins (r : Regs) (ids : List Nat) (status : Nat) (c : Chip) : (completeAll r ids status c).lins = c.lins := rest_field Chip.lins (fun _ => rfl) (ends_completeAll r ids status c).rest
@[simp] theorem completeAll_t1ss (r : Regs) (ids : List Nat) (status : Nat) (c : Chip) : (completeAll r ids status c).t1ss = c.t1ss := rest_field Chip.t1ss (fun _ => rfl) (ends_completeAll r ids status c).rest
@[simp] theorem completeAll_bbs (r : Regs) (ids : List Nat) (status : Nat) (c : Chip) : (completeAll r ids status c).bbs = c.bbs := rest_field Chip.bbs (fun _ => rfl) (ends_completeAll r ids status c).rest
@[simp] theorem completeAll_hostPort (r : Regs) (ids : List Nat) (status : Nat) (c : Chip) : (completeAll r ids status c).hostPort = c.hostPort := rest_field Chip.hostPort (fun _ => rfl) (ends_completeAll r ids status c).rest
@[simp] theorem completeAll_net (r : Regs) (ids : List Nat) (status : Nat) (c : Chip) : (completeAll r ids status c).net = c.net := rest_field Chip.net (fun _ => rfl) (ends_completeAll r ids status c).rest
@[simp] theorem completeAll_acc (r : Regs) (ids : List Nat) (status : Nat) (c : Chip) : (completeAll r ids status c).acc = c.acc := rest_field Chip.acc (fun _ => rfl) (ends_completeAll r ids status c).rest
@[simp] theorem completeAll_upd (r : Regs) (ids : List Nat) (status : Nat) (c : Chip) : (completeAll r ids status c).upd = c.upd := rest_field Chip.upd (fun _ => rfl) (ends_completeAll r ids status c).rest
@[simp] theorem completeAll_age (r : Regs) (ids : List Nat) (status : Nat) (c : Chip) : (completeAll r ids status c).age = c.age := rest_field Chip.age (fun _ => rfl) (ends_completeAll r ids status c).rest
@[simp] theorem completeAll_at_stall (r : Regs) (ids : List Nat) (status : Nat) (c : Chip) (j : Nat) : (completeAll r ids status c).stall j = c.stall j := congrFun (rest_field Chip.stall (fun _ => rfl) (ends_completeAll r ids status c).rest) j
@[simp] theorem completeAll_at_row (r : Regs) (ids : List Nat) (status : Nat) (c : Chip) (j : Nat) : (completeAll r ids status c).row j = c.row j := congrFun (rest_field Chip.row (fun _ => rfl) (ends_completeAll r ids status c).rest) j
@[simp] theorem completeAll_at_valve (r : Regs) (ids : List Nat) (status : Nat) (c : Chip) (j : Nat) : (completeAll r ids status c).valve j = c.valve j := congrFun (rest_field Chip.valve (fun _ => rfl) (ends_completeAll r ids status c).rest) j
@[simp] theorem completeAll_at_vg (r : Regs) (ids : List Nat) (status : Nat) (c : Chip) (j : Nat) : (completeAll r ids status c).vg j = c.vg j := congrFun (rest_field Chip.vg (fun _ => rfl) (ends_completeAll r ids status c).rest) j
@[simp] theorem completeAll_at_loop (r : Regs) (ids : List Nat) (status : Nat) (c : Chip) (j : Nat) : (completeAll r ids status c).loop j = c.loop j := congrFun (rest_field Chip.loop (fun _ => rfl) (ends_completeAll r ids status c).rest) j
@[simp] theorem completeAll_at_boost (r : Regs) (ids : List Nat) (status : Nat) (c : Chip) (j : Nat) : (completeAll r ids status c).boost j = c.boost j := congrFun (rest_field Chip.boost (fun _ => rfl) (ends_completeAll r ids status c).rest) j
@[simp] theorem completeAll_at_sink (r : Regs) (ids : List Nat) (status : Nat) (c : Chip) (j : Nat) : (completeAll r ids status c).sink j = c.sink j := congrFun (rest_field Chip.sink (fun _ => rfl) (ends_completeAll r ids status c).rest) j
@[simp] theorem completeAll_at_ntc (r : Regs) (ids : List Nat) (status : Nat) (c : Chip) (j : Nat) : (completeAll r ids status c).ntc j = c.ntc j := congrFun (rest_field Chip.ntc (fun _ => rfl) (ends_completeAll r ids status c).rest) j
@[simp] theorem completeAll_at_si (r : Regs) (ids : List Nat) (status : Nat) (c : Chip) (j : Nat) : (completeAll r ids status c).si j = c.si j := congrFun (rest_field Chip.si (fun _ => rfl) (ends_completeAll r ids status c).rest) j
@[simp] theorem completeAll_at_ain (r : Regs) (ids : List Nat) (status : Nat) (c : Chip) (j : Nat) : (completeAll r ids status c).ain j = c.ain j := congrFun (rest_field Chip.ain (fun _ => rfl) (ends_completeAll r ids status c).rest) j
@[simp] theorem completeAll_at_dout (r : Regs) (ids : List Nat) (status : Nat) (c : Chip) (j : Nat) : (completeAll r ids status c).dout j = c.dout j := congrFun (rest_field Chip.dout (fun _ => rfl) (ends_completeAll r ids status c).rest) j
@[simp] theorem completeAll_at_feed (r : Regs) (ids : List Nat) (status : Nat) (c : Chip) (j : Nat) : (completeAll r ids status c).feed j = c.feed j := congrFun (rest_field Chip.feed (fun _ => rfl) (ends_completeAll r ids status c).rest) j
@[simp] theorem completeAll_at_safe (r : Regs) (ids : List Nat) (status : Nat) (c : Chip) (j : Nat) : (completeAll r ids status c).safe j = c.safe j := congrFun (rest_field Chip.safe (fun _ => rfl) (ends_completeAll r ids status c).rest) j
@[simp] theorem completeAll_at_port (r : Regs) (ids : List Nat) (status : Nat) (c : Chip) (j : Nat) : (completeAll r ids status c).port j = c.port j := congrFun (rest_field Chip.port (fun _ => rfl) (ends_completeAll r ids status c).rest) j
@[simp] theorem completeAll_at_timer (r : Regs) (ids : List Nat) (status : Nat) (c : Chip) (j : Nat) : (completeAll r ids status c).timer j = c.timer j := congrFun (rest_field Chip.timer (fun _ => rfl) (ends_completeAll r ids status c).rest) j
@[simp] theorem completeAll_at_seg (r : Regs) (ids : List Nat) (status : Nat) (c : Chip) (j : Nat) : (completeAll r ids status c).seg j = c.seg j := congrFun (rest_field Chip.seg (fun _ => rfl) (ends_completeAll r ids status c).rest) j
@[simp] theorem completeAll_at_can (r : Regs) (ids : List Nat) (status : Nat) (c : Chip) (j : Nat) : (completeAll r ids status c).can j = c.can j := congrFun (rest_field Chip.can (fun _ => rfl) (ends_completeAll r ids status c).rest) j
@[simp] theorem completeAll_at_lin (r : Regs) (ids : List Nat) (status : Nat) (c : Chip) (j : Nat) : (completeAll r ids status c).lin j = c.lin j := congrFun (rest_field Chip.lin (fun _ => rfl) (ends_completeAll r ids status c).rest) j
@[simp] theorem completeAll_at_t1s (r : Regs) (ids : List Nat) (status : Nat) (c : Chip) (j : Nat) : (completeAll r ids status c).t1s j = c.t1s j := congrFun (rest_field Chip.t1s (fun _ => rfl) (ends_completeAll r ids status c).rest) j
@[simp] theorem completeAll_at_bb (r : Regs) (ids : List Nat) (status : Nat) (c : Chip) (j : Nat) : (completeAll r ids status c).bb j = c.bb j := congrFun (rest_field Chip.bb (fun _ => rfl) (ends_completeAll r ids status c).rest) j
@[simp] theorem completeAll_yards (r : Regs) (ids : List Nat) (status : Nat) (c : Chip) : (completeAll r ids status c).yards = c.yards := (ends_completeAll r ids status c).yards
@[simp] theorem completeAll_yard (r : Regs) (ids : List Nat) (status : Nat) (c : Chip) (y : Nat) : (completeAll r ids status c).yard y = c.yard y := by simp [Chip.yard]

-- updJob

@[simp] theorem updJob_now (id : Nat) (f : Job → Job) (c : Chip) : (updJob id f c).now = c.now := rest_field Chip.now (fun _ => rfl) (ends_updJob id f c).rest
@[simp] theorem updJob_sys (id : Nat) (f : Job → Job) (c : Chip) : (updJob id f c).sys = c.sys := rest_field Chip.sys (fun _ => rfl) (ends_updJob id f c).rest
@[simp] theorem updJob_mt (id : Nat) (f : Job → Job) (c : Chip) : (updJob id f c).mt = c.mt := rest_field Chip.mt (fun _ => rfl) (ends_updJob id f c).rest
@[simp] theorem updJob_arb (id : Nat) (f : Job → Job) (c : Chip) : (updJob id f c).arb = c.arb := rest_field Chip.arb (fun _ => rfl) (ends_updJob id f c).rest
@[simp] theorem updJob_feeds (id : Nat) (f : Job → Job) (c : Chip) : (updJob id f c).feeds = c.feeds := rest_field Chip.feeds (fun _ => rfl) (ends_updJob id f c).rest
@[simp] theorem updJob_budget (id : Nat) (f : Job → Job) (c : Chip) : (updJob id f c).budget = c.budget := rest_field Chip.budget (fun _ => rfl) (ends_updJob id f c).rest
@[simp] theorem updJob_safes (id : Nat) (f : Job → Job) (c : Chip) : (updJob id f c).safes = c.safes := rest_field Chip.safes (fun _ => rfl) (ends_updJob id f c).rest
@[simp] theorem updJob_halt (id : Nat) (f : Job → Job) (c : Chip) : (updJob id f c).halt = c.halt := rest_field Chip.halt (fun _ => rfl) (ends_updJob id f c).rest
@[simp] theorem updJob_img (id : Nat) (f : Job → Job) (c : Chip) : (updJob id f c).img = c.img := rest_field Chip.img (fun _ => rfl) (ends_updJob id f c).rest
@[simp] theorem updJob_copy (id : Nat) (f : Job → Job) (c : Chip) : (updJob id f c).copy = c.copy := rest_field Chip.copy (fun _ => rfl) (ends_updJob id f c).rest
@[simp] theorem updJob_curves (id : Nat) (f : Job → Job) (c : Chip) : (updJob id f c).curves = c.curves := rest_field Chip.curves (fun _ => rfl) (ends_updJob id f c).rest
@[simp] theorem updJob_cross (id : Nat) (f : Job → Job) (c : Chip) : (updJob id f c).cross = c.cross := rest_field Chip.cross (fun _ => rfl) (ends_updJob id f c).rest
@[simp] theorem updJob_seqs (id : Nat) (f : Job → Job) (c : Chip) : (updJob id f c).seqs = c.seqs := rest_field Chip.seqs (fun _ => rfl) (ends_updJob id f c).rest
@[simp] theorem updJob_ports (id : Nat) (f : Job → Job) (c : Chip) : (updJob id f c).ports = c.ports := rest_field Chip.ports (fun _ => rfl) (ends_updJob id f c).rest
@[simp] theorem updJob_latches (id : Nat) (f : Job → Job) (c : Chip) : (updJob id f c).latches = c.latches := rest_field Chip.latches (fun _ => rfl) (ends_updJob id f c).rest
@[simp] theorem updJob_timers (id : Nat) (f : Job → Job) (c : Chip) : (updJob id f c).timers = c.timers := rest_field Chip.timers (fun _ => rfl) (ends_updJob id f c).rest
@[simp] theorem updJob_gstart (id : Nat) (f : Job → Job) (c : Chip) : (updJob id f c).gstart = c.gstart := rest_field Chip.gstart (fun _ => rfl) (ends_updJob id f c).rest
@[simp] theorem updJob_segs (id : Nat) (f : Job → Job) (c : Chip) : (updJob id f c).segs = c.segs := rest_field Chip.segs (fun _ => rfl) (ends_updJob id f c).rest
@[simp] theorem updJob_cans (id : Nat) (f : Job → Job) (c : Chip) : (updJob id f c).cans = c.cans := rest_field Chip.cans (fun _ => rfl) (ends_updJob id f c).rest
@[simp] theorem updJob_lins (id : Nat) (f : Job → Job) (c : Chip) : (updJob id f c).lins = c.lins := rest_field Chip.lins (fun _ => rfl) (ends_updJob id f c).rest
@[simp] theorem updJob_t1ss (id : Nat) (f : Job → Job) (c : Chip) : (updJob id f c).t1ss = c.t1ss := rest_field Chip.t1ss (fun _ => rfl) (ends_updJob id f c).rest
@[simp] theorem updJob_bbs (id : Nat) (f : Job → Job) (c : Chip) : (updJob id f c).bbs = c.bbs := rest_field Chip.bbs (fun _ => rfl) (ends_updJob id f c).rest
@[simp] theorem updJob_hostPort (id : Nat) (f : Job → Job) (c : Chip) : (updJob id f c).hostPort = c.hostPort := rest_field Chip.hostPort (fun _ => rfl) (ends_updJob id f c).rest
@[simp] theorem updJob_net (id : Nat) (f : Job → Job) (c : Chip) : (updJob id f c).net = c.net := rest_field Chip.net (fun _ => rfl) (ends_updJob id f c).rest
@[simp] theorem updJob_acc (id : Nat) (f : Job → Job) (c : Chip) : (updJob id f c).acc = c.acc := rest_field Chip.acc (fun _ => rfl) (ends_updJob id f c).rest
@[simp] theorem updJob_upd (id : Nat) (f : Job → Job) (c : Chip) : (updJob id f c).upd = c.upd := rest_field Chip.upd (fun _ => rfl) (ends_updJob id f c).rest
@[simp] theorem updJob_age (id : Nat) (f : Job → Job) (c : Chip) : (updJob id f c).age = c.age := rest_field Chip.age (fun _ => rfl) (ends_updJob id f c).rest
@[simp] theorem updJob_at_stall (id : Nat) (f : Job → Job) (c : Chip) (j : Nat) : (updJob id f c).stall j = c.stall j := congrFun (rest_field Chip.stall (fun _ => rfl) (ends_updJob id f c).rest) j
@[simp] theorem updJob_at_row (id : Nat) (f : Job → Job) (c : Chip) (j : Nat) : (updJob id f c).row j = c.row j := congrFun (rest_field Chip.row (fun _ => rfl) (ends_updJob id f c).rest) j
@[simp] theorem updJob_at_valve (id : Nat) (f : Job → Job) (c : Chip) (j : Nat) : (updJob id f c).valve j = c.valve j := congrFun (rest_field Chip.valve (fun _ => rfl) (ends_updJob id f c).rest) j
@[simp] theorem updJob_at_vg (id : Nat) (f : Job → Job) (c : Chip) (j : Nat) : (updJob id f c).vg j = c.vg j := congrFun (rest_field Chip.vg (fun _ => rfl) (ends_updJob id f c).rest) j
@[simp] theorem updJob_at_loop (id : Nat) (f : Job → Job) (c : Chip) (j : Nat) : (updJob id f c).loop j = c.loop j := congrFun (rest_field Chip.loop (fun _ => rfl) (ends_updJob id f c).rest) j
@[simp] theorem updJob_at_boost (id : Nat) (f : Job → Job) (c : Chip) (j : Nat) : (updJob id f c).boost j = c.boost j := congrFun (rest_field Chip.boost (fun _ => rfl) (ends_updJob id f c).rest) j
@[simp] theorem updJob_at_sink (id : Nat) (f : Job → Job) (c : Chip) (j : Nat) : (updJob id f c).sink j = c.sink j := congrFun (rest_field Chip.sink (fun _ => rfl) (ends_updJob id f c).rest) j
@[simp] theorem updJob_at_ntc (id : Nat) (f : Job → Job) (c : Chip) (j : Nat) : (updJob id f c).ntc j = c.ntc j := congrFun (rest_field Chip.ntc (fun _ => rfl) (ends_updJob id f c).rest) j
@[simp] theorem updJob_at_si (id : Nat) (f : Job → Job) (c : Chip) (j : Nat) : (updJob id f c).si j = c.si j := congrFun (rest_field Chip.si (fun _ => rfl) (ends_updJob id f c).rest) j
@[simp] theorem updJob_at_ain (id : Nat) (f : Job → Job) (c : Chip) (j : Nat) : (updJob id f c).ain j = c.ain j := congrFun (rest_field Chip.ain (fun _ => rfl) (ends_updJob id f c).rest) j
@[simp] theorem updJob_at_dout (id : Nat) (f : Job → Job) (c : Chip) (j : Nat) : (updJob id f c).dout j = c.dout j := congrFun (rest_field Chip.dout (fun _ => rfl) (ends_updJob id f c).rest) j
@[simp] theorem updJob_at_feed (id : Nat) (f : Job → Job) (c : Chip) (j : Nat) : (updJob id f c).feed j = c.feed j := congrFun (rest_field Chip.feed (fun _ => rfl) (ends_updJob id f c).rest) j
@[simp] theorem updJob_at_safe (id : Nat) (f : Job → Job) (c : Chip) (j : Nat) : (updJob id f c).safe j = c.safe j := congrFun (rest_field Chip.safe (fun _ => rfl) (ends_updJob id f c).rest) j
@[simp] theorem updJob_at_port (id : Nat) (f : Job → Job) (c : Chip) (j : Nat) : (updJob id f c).port j = c.port j := congrFun (rest_field Chip.port (fun _ => rfl) (ends_updJob id f c).rest) j
@[simp] theorem updJob_at_timer (id : Nat) (f : Job → Job) (c : Chip) (j : Nat) : (updJob id f c).timer j = c.timer j := congrFun (rest_field Chip.timer (fun _ => rfl) (ends_updJob id f c).rest) j
@[simp] theorem updJob_at_seg (id : Nat) (f : Job → Job) (c : Chip) (j : Nat) : (updJob id f c).seg j = c.seg j := congrFun (rest_field Chip.seg (fun _ => rfl) (ends_updJob id f c).rest) j
@[simp] theorem updJob_at_can (id : Nat) (f : Job → Job) (c : Chip) (j : Nat) : (updJob id f c).can j = c.can j := congrFun (rest_field Chip.can (fun _ => rfl) (ends_updJob id f c).rest) j
@[simp] theorem updJob_at_lin (id : Nat) (f : Job → Job) (c : Chip) (j : Nat) : (updJob id f c).lin j = c.lin j := congrFun (rest_field Chip.lin (fun _ => rfl) (ends_updJob id f c).rest) j
@[simp] theorem updJob_at_t1s (id : Nat) (f : Job → Job) (c : Chip) (j : Nat) : (updJob id f c).t1s j = c.t1s j := congrFun (rest_field Chip.t1s (fun _ => rfl) (ends_updJob id f c).rest) j
@[simp] theorem updJob_at_bb (id : Nat) (f : Job → Job) (c : Chip) (j : Nat) : (updJob id f c).bb j = c.bb j := congrFun (rest_field Chip.bb (fun _ => rfl) (ends_updJob id f c).rest) j
@[simp] theorem updJob_yards (id : Nat) (f : Job → Job) (c : Chip) : (updJob id f c).yards = c.yards := (ends_updJob id f c).yards
@[simp] theorem updJob_yard (id : Nat) (f : Job → Job) (c : Chip) (y : Nat) : (updJob id f c).yard y = c.yard y := by simp [Chip.yard]

-- newJob

@[simp] theorem newJob_now (r : Regs) (d : Desc) (h : Hdr) (op : Instr) (c : Chip) : (newJob r d h op c).now = c.now := rest_field Chip.now (fun _ => rfl) (ends_newJob r d h op c).rest
@[simp] theorem newJob_sys (r : Regs) (d : Desc) (h : Hdr) (op : Instr) (c : Chip) : (newJob r d h op c).sys = c.sys := rest_field Chip.sys (fun _ => rfl) (ends_newJob r d h op c).rest
@[simp] theorem newJob_mt (r : Regs) (d : Desc) (h : Hdr) (op : Instr) (c : Chip) : (newJob r d h op c).mt = c.mt := rest_field Chip.mt (fun _ => rfl) (ends_newJob r d h op c).rest
@[simp] theorem newJob_arb (r : Regs) (d : Desc) (h : Hdr) (op : Instr) (c : Chip) : (newJob r d h op c).arb = c.arb := rest_field Chip.arb (fun _ => rfl) (ends_newJob r d h op c).rest
@[simp] theorem newJob_feeds (r : Regs) (d : Desc) (h : Hdr) (op : Instr) (c : Chip) : (newJob r d h op c).feeds = c.feeds := rest_field Chip.feeds (fun _ => rfl) (ends_newJob r d h op c).rest
@[simp] theorem newJob_budget (r : Regs) (d : Desc) (h : Hdr) (op : Instr) (c : Chip) : (newJob r d h op c).budget = c.budget := rest_field Chip.budget (fun _ => rfl) (ends_newJob r d h op c).rest
@[simp] theorem newJob_safes (r : Regs) (d : Desc) (h : Hdr) (op : Instr) (c : Chip) : (newJob r d h op c).safes = c.safes := rest_field Chip.safes (fun _ => rfl) (ends_newJob r d h op c).rest
@[simp] theorem newJob_halt (r : Regs) (d : Desc) (h : Hdr) (op : Instr) (c : Chip) : (newJob r d h op c).halt = c.halt := rest_field Chip.halt (fun _ => rfl) (ends_newJob r d h op c).rest
@[simp] theorem newJob_img (r : Regs) (d : Desc) (h : Hdr) (op : Instr) (c : Chip) : (newJob r d h op c).img = c.img := rest_field Chip.img (fun _ => rfl) (ends_newJob r d h op c).rest
@[simp] theorem newJob_copy (r : Regs) (d : Desc) (h : Hdr) (op : Instr) (c : Chip) : (newJob r d h op c).copy = c.copy := rest_field Chip.copy (fun _ => rfl) (ends_newJob r d h op c).rest
@[simp] theorem newJob_curves (r : Regs) (d : Desc) (h : Hdr) (op : Instr) (c : Chip) : (newJob r d h op c).curves = c.curves := rest_field Chip.curves (fun _ => rfl) (ends_newJob r d h op c).rest
@[simp] theorem newJob_cross (r : Regs) (d : Desc) (h : Hdr) (op : Instr) (c : Chip) : (newJob r d h op c).cross = c.cross := rest_field Chip.cross (fun _ => rfl) (ends_newJob r d h op c).rest
@[simp] theorem newJob_seqs (r : Regs) (d : Desc) (h : Hdr) (op : Instr) (c : Chip) : (newJob r d h op c).seqs = c.seqs := rest_field Chip.seqs (fun _ => rfl) (ends_newJob r d h op c).rest
@[simp] theorem newJob_ports (r : Regs) (d : Desc) (h : Hdr) (op : Instr) (c : Chip) : (newJob r d h op c).ports = c.ports := rest_field Chip.ports (fun _ => rfl) (ends_newJob r d h op c).rest
@[simp] theorem newJob_latches (r : Regs) (d : Desc) (h : Hdr) (op : Instr) (c : Chip) : (newJob r d h op c).latches = c.latches := rest_field Chip.latches (fun _ => rfl) (ends_newJob r d h op c).rest
@[simp] theorem newJob_timers (r : Regs) (d : Desc) (h : Hdr) (op : Instr) (c : Chip) : (newJob r d h op c).timers = c.timers := rest_field Chip.timers (fun _ => rfl) (ends_newJob r d h op c).rest
@[simp] theorem newJob_gstart (r : Regs) (d : Desc) (h : Hdr) (op : Instr) (c : Chip) : (newJob r d h op c).gstart = c.gstart := rest_field Chip.gstart (fun _ => rfl) (ends_newJob r d h op c).rest
@[simp] theorem newJob_segs (r : Regs) (d : Desc) (h : Hdr) (op : Instr) (c : Chip) : (newJob r d h op c).segs = c.segs := rest_field Chip.segs (fun _ => rfl) (ends_newJob r d h op c).rest
@[simp] theorem newJob_cans (r : Regs) (d : Desc) (h : Hdr) (op : Instr) (c : Chip) : (newJob r d h op c).cans = c.cans := rest_field Chip.cans (fun _ => rfl) (ends_newJob r d h op c).rest
@[simp] theorem newJob_lins (r : Regs) (d : Desc) (h : Hdr) (op : Instr) (c : Chip) : (newJob r d h op c).lins = c.lins := rest_field Chip.lins (fun _ => rfl) (ends_newJob r d h op c).rest
@[simp] theorem newJob_t1ss (r : Regs) (d : Desc) (h : Hdr) (op : Instr) (c : Chip) : (newJob r d h op c).t1ss = c.t1ss := rest_field Chip.t1ss (fun _ => rfl) (ends_newJob r d h op c).rest
@[simp] theorem newJob_bbs (r : Regs) (d : Desc) (h : Hdr) (op : Instr) (c : Chip) : (newJob r d h op c).bbs = c.bbs := rest_field Chip.bbs (fun _ => rfl) (ends_newJob r d h op c).rest
@[simp] theorem newJob_hostPort (r : Regs) (d : Desc) (h : Hdr) (op : Instr) (c : Chip) : (newJob r d h op c).hostPort = c.hostPort := rest_field Chip.hostPort (fun _ => rfl) (ends_newJob r d h op c).rest
@[simp] theorem newJob_net (r : Regs) (d : Desc) (h : Hdr) (op : Instr) (c : Chip) : (newJob r d h op c).net = c.net := rest_field Chip.net (fun _ => rfl) (ends_newJob r d h op c).rest
@[simp] theorem newJob_acc (r : Regs) (d : Desc) (h : Hdr) (op : Instr) (c : Chip) : (newJob r d h op c).acc = c.acc := rest_field Chip.acc (fun _ => rfl) (ends_newJob r d h op c).rest
@[simp] theorem newJob_upd (r : Regs) (d : Desc) (h : Hdr) (op : Instr) (c : Chip) : (newJob r d h op c).upd = c.upd := rest_field Chip.upd (fun _ => rfl) (ends_newJob r d h op c).rest
@[simp] theorem newJob_age (r : Regs) (d : Desc) (h : Hdr) (op : Instr) (c : Chip) : (newJob r d h op c).age = c.age := rest_field Chip.age (fun _ => rfl) (ends_newJob r d h op c).rest
@[simp] theorem newJob_at_stall (r : Regs) (d : Desc) (h : Hdr) (op : Instr) (c : Chip) (j : Nat) : (newJob r d h op c).stall j = c.stall j := congrFun (rest_field Chip.stall (fun _ => rfl) (ends_newJob r d h op c).rest) j
@[simp] theorem newJob_at_row (r : Regs) (d : Desc) (h : Hdr) (op : Instr) (c : Chip) (j : Nat) : (newJob r d h op c).row j = c.row j := congrFun (rest_field Chip.row (fun _ => rfl) (ends_newJob r d h op c).rest) j
@[simp] theorem newJob_at_valve (r : Regs) (d : Desc) (h : Hdr) (op : Instr) (c : Chip) (j : Nat) : (newJob r d h op c).valve j = c.valve j := congrFun (rest_field Chip.valve (fun _ => rfl) (ends_newJob r d h op c).rest) j
@[simp] theorem newJob_at_vg (r : Regs) (d : Desc) (h : Hdr) (op : Instr) (c : Chip) (j : Nat) : (newJob r d h op c).vg j = c.vg j := congrFun (rest_field Chip.vg (fun _ => rfl) (ends_newJob r d h op c).rest) j
@[simp] theorem newJob_at_loop (r : Regs) (d : Desc) (h : Hdr) (op : Instr) (c : Chip) (j : Nat) : (newJob r d h op c).loop j = c.loop j := congrFun (rest_field Chip.loop (fun _ => rfl) (ends_newJob r d h op c).rest) j
@[simp] theorem newJob_at_boost (r : Regs) (d : Desc) (h : Hdr) (op : Instr) (c : Chip) (j : Nat) : (newJob r d h op c).boost j = c.boost j := congrFun (rest_field Chip.boost (fun _ => rfl) (ends_newJob r d h op c).rest) j
@[simp] theorem newJob_at_sink (r : Regs) (d : Desc) (h : Hdr) (op : Instr) (c : Chip) (j : Nat) : (newJob r d h op c).sink j = c.sink j := congrFun (rest_field Chip.sink (fun _ => rfl) (ends_newJob r d h op c).rest) j
@[simp] theorem newJob_at_ntc (r : Regs) (d : Desc) (h : Hdr) (op : Instr) (c : Chip) (j : Nat) : (newJob r d h op c).ntc j = c.ntc j := congrFun (rest_field Chip.ntc (fun _ => rfl) (ends_newJob r d h op c).rest) j
@[simp] theorem newJob_at_si (r : Regs) (d : Desc) (h : Hdr) (op : Instr) (c : Chip) (j : Nat) : (newJob r d h op c).si j = c.si j := congrFun (rest_field Chip.si (fun _ => rfl) (ends_newJob r d h op c).rest) j
@[simp] theorem newJob_at_ain (r : Regs) (d : Desc) (h : Hdr) (op : Instr) (c : Chip) (j : Nat) : (newJob r d h op c).ain j = c.ain j := congrFun (rest_field Chip.ain (fun _ => rfl) (ends_newJob r d h op c).rest) j
@[simp] theorem newJob_at_dout (r : Regs) (d : Desc) (h : Hdr) (op : Instr) (c : Chip) (j : Nat) : (newJob r d h op c).dout j = c.dout j := congrFun (rest_field Chip.dout (fun _ => rfl) (ends_newJob r d h op c).rest) j
@[simp] theorem newJob_at_feed (r : Regs) (d : Desc) (h : Hdr) (op : Instr) (c : Chip) (j : Nat) : (newJob r d h op c).feed j = c.feed j := congrFun (rest_field Chip.feed (fun _ => rfl) (ends_newJob r d h op c).rest) j
@[simp] theorem newJob_at_safe (r : Regs) (d : Desc) (h : Hdr) (op : Instr) (c : Chip) (j : Nat) : (newJob r d h op c).safe j = c.safe j := congrFun (rest_field Chip.safe (fun _ => rfl) (ends_newJob r d h op c).rest) j
@[simp] theorem newJob_at_port (r : Regs) (d : Desc) (h : Hdr) (op : Instr) (c : Chip) (j : Nat) : (newJob r d h op c).port j = c.port j := congrFun (rest_field Chip.port (fun _ => rfl) (ends_newJob r d h op c).rest) j
@[simp] theorem newJob_at_timer (r : Regs) (d : Desc) (h : Hdr) (op : Instr) (c : Chip) (j : Nat) : (newJob r d h op c).timer j = c.timer j := congrFun (rest_field Chip.timer (fun _ => rfl) (ends_newJob r d h op c).rest) j
@[simp] theorem newJob_at_seg (r : Regs) (d : Desc) (h : Hdr) (op : Instr) (c : Chip) (j : Nat) : (newJob r d h op c).seg j = c.seg j := congrFun (rest_field Chip.seg (fun _ => rfl) (ends_newJob r d h op c).rest) j
@[simp] theorem newJob_at_can (r : Regs) (d : Desc) (h : Hdr) (op : Instr) (c : Chip) (j : Nat) : (newJob r d h op c).can j = c.can j := congrFun (rest_field Chip.can (fun _ => rfl) (ends_newJob r d h op c).rest) j
@[simp] theorem newJob_at_lin (r : Regs) (d : Desc) (h : Hdr) (op : Instr) (c : Chip) (j : Nat) : (newJob r d h op c).lin j = c.lin j := congrFun (rest_field Chip.lin (fun _ => rfl) (ends_newJob r d h op c).rest) j
@[simp] theorem newJob_at_t1s (r : Regs) (d : Desc) (h : Hdr) (op : Instr) (c : Chip) (j : Nat) : (newJob r d h op c).t1s j = c.t1s j := congrFun (rest_field Chip.t1s (fun _ => rfl) (ends_newJob r d h op c).rest) j
@[simp] theorem newJob_at_bb (r : Regs) (d : Desc) (h : Hdr) (op : Instr) (c : Chip) (j : Nat) : (newJob r d h op c).bb j = c.bb j := congrFun (rest_field Chip.bb (fun _ => rfl) (ends_newJob r d h op c).rest) j
@[simp] theorem newJob_yards (r : Regs) (d : Desc) (h : Hdr) (op : Instr) (c : Chip) : (newJob r d h op c).yards = c.yards := (ends_newJob r d h op c).yards
@[simp] theorem newJob_yard (r : Regs) (d : Desc) (h : Hdr) (op : Instr) (c : Chip) (y : Nat) : (newJob r d h op c).yard y = c.yard y := by simp [Chip.yard]

-- jobOutcome

@[simp] theorem jobOutcome_now (r : Regs) (id st res t : Nat) (c : Chip) : (jobOutcome r id st res t c).now = c.now := rest_field Chip.now (fun _ => rfl) (ends_jobOutcome r id st res t c).rest
@[simp] theorem jobOutcome_sys (r : Regs) (id st res t : Nat) (c : Chip) : (jobOutcome r id st res t c).sys = c.sys := rest_field Chip.sys (fun _ => rfl) (ends_jobOutcome r id st res t c).rest
@[simp] theorem jobOutcome_mt (r : Regs) (id st res t : Nat) (c : Chip) : (jobOutcome r id st res t c).mt = c.mt := rest_field Chip.mt (fun _ => rfl) (ends_jobOutcome r id st res t c).rest
@[simp] theorem jobOutcome_arb (r : Regs) (id st res t : Nat) (c : Chip) : (jobOutcome r id st res t c).arb = c.arb := rest_field Chip.arb (fun _ => rfl) (ends_jobOutcome r id st res t c).rest
@[simp] theorem jobOutcome_feeds (r : Regs) (id st res t : Nat) (c : Chip) : (jobOutcome r id st res t c).feeds = c.feeds := rest_field Chip.feeds (fun _ => rfl) (ends_jobOutcome r id st res t c).rest
@[simp] theorem jobOutcome_budget (r : Regs) (id st res t : Nat) (c : Chip) : (jobOutcome r id st res t c).budget = c.budget := rest_field Chip.budget (fun _ => rfl) (ends_jobOutcome r id st res t c).rest
@[simp] theorem jobOutcome_safes (r : Regs) (id st res t : Nat) (c : Chip) : (jobOutcome r id st res t c).safes = c.safes := rest_field Chip.safes (fun _ => rfl) (ends_jobOutcome r id st res t c).rest
@[simp] theorem jobOutcome_halt (r : Regs) (id st res t : Nat) (c : Chip) : (jobOutcome r id st res t c).halt = c.halt := rest_field Chip.halt (fun _ => rfl) (ends_jobOutcome r id st res t c).rest
@[simp] theorem jobOutcome_img (r : Regs) (id st res t : Nat) (c : Chip) : (jobOutcome r id st res t c).img = c.img := rest_field Chip.img (fun _ => rfl) (ends_jobOutcome r id st res t c).rest
@[simp] theorem jobOutcome_copy (r : Regs) (id st res t : Nat) (c : Chip) : (jobOutcome r id st res t c).copy = c.copy := rest_field Chip.copy (fun _ => rfl) (ends_jobOutcome r id st res t c).rest
@[simp] theorem jobOutcome_curves (r : Regs) (id st res t : Nat) (c : Chip) : (jobOutcome r id st res t c).curves = c.curves := rest_field Chip.curves (fun _ => rfl) (ends_jobOutcome r id st res t c).rest
@[simp] theorem jobOutcome_cross (r : Regs) (id st res t : Nat) (c : Chip) : (jobOutcome r id st res t c).cross = c.cross := rest_field Chip.cross (fun _ => rfl) (ends_jobOutcome r id st res t c).rest
@[simp] theorem jobOutcome_seqs (r : Regs) (id st res t : Nat) (c : Chip) : (jobOutcome r id st res t c).seqs = c.seqs := rest_field Chip.seqs (fun _ => rfl) (ends_jobOutcome r id st res t c).rest
@[simp] theorem jobOutcome_ports (r : Regs) (id st res t : Nat) (c : Chip) : (jobOutcome r id st res t c).ports = c.ports := rest_field Chip.ports (fun _ => rfl) (ends_jobOutcome r id st res t c).rest
@[simp] theorem jobOutcome_latches (r : Regs) (id st res t : Nat) (c : Chip) : (jobOutcome r id st res t c).latches = c.latches := rest_field Chip.latches (fun _ => rfl) (ends_jobOutcome r id st res t c).rest
@[simp] theorem jobOutcome_timers (r : Regs) (id st res t : Nat) (c : Chip) : (jobOutcome r id st res t c).timers = c.timers := rest_field Chip.timers (fun _ => rfl) (ends_jobOutcome r id st res t c).rest
@[simp] theorem jobOutcome_gstart (r : Regs) (id st res t : Nat) (c : Chip) : (jobOutcome r id st res t c).gstart = c.gstart := rest_field Chip.gstart (fun _ => rfl) (ends_jobOutcome r id st res t c).rest
@[simp] theorem jobOutcome_segs (r : Regs) (id st res t : Nat) (c : Chip) : (jobOutcome r id st res t c).segs = c.segs := rest_field Chip.segs (fun _ => rfl) (ends_jobOutcome r id st res t c).rest
@[simp] theorem jobOutcome_cans (r : Regs) (id st res t : Nat) (c : Chip) : (jobOutcome r id st res t c).cans = c.cans := rest_field Chip.cans (fun _ => rfl) (ends_jobOutcome r id st res t c).rest
@[simp] theorem jobOutcome_lins (r : Regs) (id st res t : Nat) (c : Chip) : (jobOutcome r id st res t c).lins = c.lins := rest_field Chip.lins (fun _ => rfl) (ends_jobOutcome r id st res t c).rest
@[simp] theorem jobOutcome_t1ss (r : Regs) (id st res t : Nat) (c : Chip) : (jobOutcome r id st res t c).t1ss = c.t1ss := rest_field Chip.t1ss (fun _ => rfl) (ends_jobOutcome r id st res t c).rest
@[simp] theorem jobOutcome_bbs (r : Regs) (id st res t : Nat) (c : Chip) : (jobOutcome r id st res t c).bbs = c.bbs := rest_field Chip.bbs (fun _ => rfl) (ends_jobOutcome r id st res t c).rest
@[simp] theorem jobOutcome_hostPort (r : Regs) (id st res t : Nat) (c : Chip) : (jobOutcome r id st res t c).hostPort = c.hostPort := rest_field Chip.hostPort (fun _ => rfl) (ends_jobOutcome r id st res t c).rest
@[simp] theorem jobOutcome_net (r : Regs) (id st res t : Nat) (c : Chip) : (jobOutcome r id st res t c).net = c.net := rest_field Chip.net (fun _ => rfl) (ends_jobOutcome r id st res t c).rest
@[simp] theorem jobOutcome_acc (r : Regs) (id st res t : Nat) (c : Chip) : (jobOutcome r id st res t c).acc = c.acc := rest_field Chip.acc (fun _ => rfl) (ends_jobOutcome r id st res t c).rest
@[simp] theorem jobOutcome_upd (r : Regs) (id st res t : Nat) (c : Chip) : (jobOutcome r id st res t c).upd = c.upd := rest_field Chip.upd (fun _ => rfl) (ends_jobOutcome r id st res t c).rest
@[simp] theorem jobOutcome_age (r : Regs) (id st res t : Nat) (c : Chip) : (jobOutcome r id st res t c).age = c.age := rest_field Chip.age (fun _ => rfl) (ends_jobOutcome r id st res t c).rest
@[simp] theorem jobOutcome_at_stall (r : Regs) (id st res t : Nat) (c : Chip) (j : Nat) : (jobOutcome r id st res t c).stall j = c.stall j := congrFun (rest_field Chip.stall (fun _ => rfl) (ends_jobOutcome r id st res t c).rest) j
@[simp] theorem jobOutcome_at_row (r : Regs) (id st res t : Nat) (c : Chip) (j : Nat) : (jobOutcome r id st res t c).row j = c.row j := congrFun (rest_field Chip.row (fun _ => rfl) (ends_jobOutcome r id st res t c).rest) j
@[simp] theorem jobOutcome_at_valve (r : Regs) (id st res t : Nat) (c : Chip) (j : Nat) : (jobOutcome r id st res t c).valve j = c.valve j := congrFun (rest_field Chip.valve (fun _ => rfl) (ends_jobOutcome r id st res t c).rest) j
@[simp] theorem jobOutcome_at_vg (r : Regs) (id st res t : Nat) (c : Chip) (j : Nat) : (jobOutcome r id st res t c).vg j = c.vg j := congrFun (rest_field Chip.vg (fun _ => rfl) (ends_jobOutcome r id st res t c).rest) j
@[simp] theorem jobOutcome_at_loop (r : Regs) (id st res t : Nat) (c : Chip) (j : Nat) : (jobOutcome r id st res t c).loop j = c.loop j := congrFun (rest_field Chip.loop (fun _ => rfl) (ends_jobOutcome r id st res t c).rest) j
@[simp] theorem jobOutcome_at_boost (r : Regs) (id st res t : Nat) (c : Chip) (j : Nat) : (jobOutcome r id st res t c).boost j = c.boost j := congrFun (rest_field Chip.boost (fun _ => rfl) (ends_jobOutcome r id st res t c).rest) j
@[simp] theorem jobOutcome_at_sink (r : Regs) (id st res t : Nat) (c : Chip) (j : Nat) : (jobOutcome r id st res t c).sink j = c.sink j := congrFun (rest_field Chip.sink (fun _ => rfl) (ends_jobOutcome r id st res t c).rest) j
@[simp] theorem jobOutcome_at_ntc (r : Regs) (id st res t : Nat) (c : Chip) (j : Nat) : (jobOutcome r id st res t c).ntc j = c.ntc j := congrFun (rest_field Chip.ntc (fun _ => rfl) (ends_jobOutcome r id st res t c).rest) j
@[simp] theorem jobOutcome_at_si (r : Regs) (id st res t : Nat) (c : Chip) (j : Nat) : (jobOutcome r id st res t c).si j = c.si j := congrFun (rest_field Chip.si (fun _ => rfl) (ends_jobOutcome r id st res t c).rest) j
@[simp] theorem jobOutcome_at_ain (r : Regs) (id st res t : Nat) (c : Chip) (j : Nat) : (jobOutcome r id st res t c).ain j = c.ain j := congrFun (rest_field Chip.ain (fun _ => rfl) (ends_jobOutcome r id st res t c).rest) j
@[simp] theorem jobOutcome_at_dout (r : Regs) (id st res t : Nat) (c : Chip) (j : Nat) : (jobOutcome r id st res t c).dout j = c.dout j := congrFun (rest_field Chip.dout (fun _ => rfl) (ends_jobOutcome r id st res t c).rest) j
@[simp] theorem jobOutcome_at_feed (r : Regs) (id st res t : Nat) (c : Chip) (j : Nat) : (jobOutcome r id st res t c).feed j = c.feed j := congrFun (rest_field Chip.feed (fun _ => rfl) (ends_jobOutcome r id st res t c).rest) j
@[simp] theorem jobOutcome_at_safe (r : Regs) (id st res t : Nat) (c : Chip) (j : Nat) : (jobOutcome r id st res t c).safe j = c.safe j := congrFun (rest_field Chip.safe (fun _ => rfl) (ends_jobOutcome r id st res t c).rest) j
@[simp] theorem jobOutcome_at_port (r : Regs) (id st res t : Nat) (c : Chip) (j : Nat) : (jobOutcome r id st res t c).port j = c.port j := congrFun (rest_field Chip.port (fun _ => rfl) (ends_jobOutcome r id st res t c).rest) j
@[simp] theorem jobOutcome_at_timer (r : Regs) (id st res t : Nat) (c : Chip) (j : Nat) : (jobOutcome r id st res t c).timer j = c.timer j := congrFun (rest_field Chip.timer (fun _ => rfl) (ends_jobOutcome r id st res t c).rest) j
@[simp] theorem jobOutcome_at_seg (r : Regs) (id st res t : Nat) (c : Chip) (j : Nat) : (jobOutcome r id st res t c).seg j = c.seg j := congrFun (rest_field Chip.seg (fun _ => rfl) (ends_jobOutcome r id st res t c).rest) j
@[simp] theorem jobOutcome_at_can (r : Regs) (id st res t : Nat) (c : Chip) (j : Nat) : (jobOutcome r id st res t c).can j = c.can j := congrFun (rest_field Chip.can (fun _ => rfl) (ends_jobOutcome r id st res t c).rest) j
@[simp] theorem jobOutcome_at_lin (r : Regs) (id st res t : Nat) (c : Chip) (j : Nat) : (jobOutcome r id st res t c).lin j = c.lin j := congrFun (rest_field Chip.lin (fun _ => rfl) (ends_jobOutcome r id st res t c).rest) j
@[simp] theorem jobOutcome_at_t1s (r : Regs) (id st res t : Nat) (c : Chip) (j : Nat) : (jobOutcome r id st res t c).t1s j = c.t1s j := congrFun (rest_field Chip.t1s (fun _ => rfl) (ends_jobOutcome r id st res t c).rest) j
@[simp] theorem jobOutcome_at_bb (r : Regs) (id st res t : Nat) (c : Chip) (j : Nat) : (jobOutcome r id st res t c).bb j = c.bb j := congrFun (rest_field Chip.bb (fun _ => rfl) (ends_jobOutcome r id st res t c).rest) j
@[simp] theorem jobOutcome_yards (r : Regs) (id st res t : Nat) (c : Chip) : (jobOutcome r id st res t c).yards = c.yards := (ends_jobOutcome r id st res t c).yards
@[simp] theorem jobOutcome_yard (r : Regs) (id st res t : Nat) (c : Chip) (y : Nat) : (jobOutcome r id st res t c).yard y = c.yard y := by simp [Chip.yard]

-- yardEventAt

@[simp] theorem yardEventAt_now (src cls pay t : Nat) (c : Chip) : (yardEventAt src cls pay t c).now = c.now := rest_field Chip.now (fun _ => rfl) (tells_yardEventAt src cls pay t c).rest
@[simp] theorem yardEventAt_sys (src cls pay t : Nat) (c : Chip) : (yardEventAt src cls pay t c).sys = c.sys := rest_field Chip.sys (fun _ => rfl) (tells_yardEventAt src cls pay t c).rest
@[simp] theorem yardEventAt_mt (src cls pay t : Nat) (c : Chip) : (yardEventAt src cls pay t c).mt = c.mt := rest_field Chip.mt (fun _ => rfl) (tells_yardEventAt src cls pay t c).rest
@[simp] theorem yardEventAt_arb (src cls pay t : Nat) (c : Chip) : (yardEventAt src cls pay t c).arb = c.arb := rest_field Chip.arb (fun _ => rfl) (tells_yardEventAt src cls pay t c).rest
@[simp] theorem yardEventAt_feeds (src cls pay t : Nat) (c : Chip) : (yardEventAt src cls pay t c).feeds = c.feeds := rest_field Chip.feeds (fun _ => rfl) (tells_yardEventAt src cls pay t c).rest
@[simp] theorem yardEventAt_budget (src cls pay t : Nat) (c : Chip) : (yardEventAt src cls pay t c).budget = c.budget := rest_field Chip.budget (fun _ => rfl) (tells_yardEventAt src cls pay t c).rest
@[simp] theorem yardEventAt_safes (src cls pay t : Nat) (c : Chip) : (yardEventAt src cls pay t c).safes = c.safes := rest_field Chip.safes (fun _ => rfl) (tells_yardEventAt src cls pay t c).rest
@[simp] theorem yardEventAt_halt (src cls pay t : Nat) (c : Chip) : (yardEventAt src cls pay t c).halt = c.halt := rest_field Chip.halt (fun _ => rfl) (tells_yardEventAt src cls pay t c).rest
@[simp] theorem yardEventAt_img (src cls pay t : Nat) (c : Chip) : (yardEventAt src cls pay t c).img = c.img := rest_field Chip.img (fun _ => rfl) (tells_yardEventAt src cls pay t c).rest
@[simp] theorem yardEventAt_copy (src cls pay t : Nat) (c : Chip) : (yardEventAt src cls pay t c).copy = c.copy := rest_field Chip.copy (fun _ => rfl) (tells_yardEventAt src cls pay t c).rest
@[simp] theorem yardEventAt_curves (src cls pay t : Nat) (c : Chip) : (yardEventAt src cls pay t c).curves = c.curves := rest_field Chip.curves (fun _ => rfl) (tells_yardEventAt src cls pay t c).rest
@[simp] theorem yardEventAt_cross (src cls pay t : Nat) (c : Chip) : (yardEventAt src cls pay t c).cross = c.cross := rest_field Chip.cross (fun _ => rfl) (tells_yardEventAt src cls pay t c).rest
@[simp] theorem yardEventAt_seqs (src cls pay t : Nat) (c : Chip) : (yardEventAt src cls pay t c).seqs = c.seqs := rest_field Chip.seqs (fun _ => rfl) (tells_yardEventAt src cls pay t c).rest
@[simp] theorem yardEventAt_ports (src cls pay t : Nat) (c : Chip) : (yardEventAt src cls pay t c).ports = c.ports := rest_field Chip.ports (fun _ => rfl) (tells_yardEventAt src cls pay t c).rest
@[simp] theorem yardEventAt_latches (src cls pay t : Nat) (c : Chip) : (yardEventAt src cls pay t c).latches = c.latches := rest_field Chip.latches (fun _ => rfl) (tells_yardEventAt src cls pay t c).rest
@[simp] theorem yardEventAt_timers (src cls pay t : Nat) (c : Chip) : (yardEventAt src cls pay t c).timers = c.timers := rest_field Chip.timers (fun _ => rfl) (tells_yardEventAt src cls pay t c).rest
@[simp] theorem yardEventAt_gstart (src cls pay t : Nat) (c : Chip) : (yardEventAt src cls pay t c).gstart = c.gstart := rest_field Chip.gstart (fun _ => rfl) (tells_yardEventAt src cls pay t c).rest
@[simp] theorem yardEventAt_segs (src cls pay t : Nat) (c : Chip) : (yardEventAt src cls pay t c).segs = c.segs := rest_field Chip.segs (fun _ => rfl) (tells_yardEventAt src cls pay t c).rest
@[simp] theorem yardEventAt_cans (src cls pay t : Nat) (c : Chip) : (yardEventAt src cls pay t c).cans = c.cans := rest_field Chip.cans (fun _ => rfl) (tells_yardEventAt src cls pay t c).rest
@[simp] theorem yardEventAt_lins (src cls pay t : Nat) (c : Chip) : (yardEventAt src cls pay t c).lins = c.lins := rest_field Chip.lins (fun _ => rfl) (tells_yardEventAt src cls pay t c).rest
@[simp] theorem yardEventAt_t1ss (src cls pay t : Nat) (c : Chip) : (yardEventAt src cls pay t c).t1ss = c.t1ss := rest_field Chip.t1ss (fun _ => rfl) (tells_yardEventAt src cls pay t c).rest
@[simp] theorem yardEventAt_bbs (src cls pay t : Nat) (c : Chip) : (yardEventAt src cls pay t c).bbs = c.bbs := rest_field Chip.bbs (fun _ => rfl) (tells_yardEventAt src cls pay t c).rest
@[simp] theorem yardEventAt_hostPort (src cls pay t : Nat) (c : Chip) : (yardEventAt src cls pay t c).hostPort = c.hostPort := rest_field Chip.hostPort (fun _ => rfl) (tells_yardEventAt src cls pay t c).rest
@[simp] theorem yardEventAt_net (src cls pay t : Nat) (c : Chip) : (yardEventAt src cls pay t c).net = c.net := rest_field Chip.net (fun _ => rfl) (tells_yardEventAt src cls pay t c).rest
@[simp] theorem yardEventAt_acc (src cls pay t : Nat) (c : Chip) : (yardEventAt src cls pay t c).acc = c.acc := rest_field Chip.acc (fun _ => rfl) (tells_yardEventAt src cls pay t c).rest
@[simp] theorem yardEventAt_upd (src cls pay t : Nat) (c : Chip) : (yardEventAt src cls pay t c).upd = c.upd := rest_field Chip.upd (fun _ => rfl) (tells_yardEventAt src cls pay t c).rest
@[simp] theorem yardEventAt_age (src cls pay t : Nat) (c : Chip) : (yardEventAt src cls pay t c).age = c.age := rest_field Chip.age (fun _ => rfl) (tells_yardEventAt src cls pay t c).rest
@[simp] theorem yardEventAt_at_stall (src cls pay t : Nat) (c : Chip) (j : Nat) : (yardEventAt src cls pay t c).stall j = c.stall j := congrFun (rest_field Chip.stall (fun _ => rfl) (tells_yardEventAt src cls pay t c).rest) j
@[simp] theorem yardEventAt_at_row (src cls pay t : Nat) (c : Chip) (j : Nat) : (yardEventAt src cls pay t c).row j = c.row j := congrFun (rest_field Chip.row (fun _ => rfl) (tells_yardEventAt src cls pay t c).rest) j
@[simp] theorem yardEventAt_at_valve (src cls pay t : Nat) (c : Chip) (j : Nat) : (yardEventAt src cls pay t c).valve j = c.valve j := congrFun (rest_field Chip.valve (fun _ => rfl) (tells_yardEventAt src cls pay t c).rest) j
@[simp] theorem yardEventAt_at_vg (src cls pay t : Nat) (c : Chip) (j : Nat) : (yardEventAt src cls pay t c).vg j = c.vg j := congrFun (rest_field Chip.vg (fun _ => rfl) (tells_yardEventAt src cls pay t c).rest) j
@[simp] theorem yardEventAt_at_loop (src cls pay t : Nat) (c : Chip) (j : Nat) : (yardEventAt src cls pay t c).loop j = c.loop j := congrFun (rest_field Chip.loop (fun _ => rfl) (tells_yardEventAt src cls pay t c).rest) j
@[simp] theorem yardEventAt_at_boost (src cls pay t : Nat) (c : Chip) (j : Nat) : (yardEventAt src cls pay t c).boost j = c.boost j := congrFun (rest_field Chip.boost (fun _ => rfl) (tells_yardEventAt src cls pay t c).rest) j
@[simp] theorem yardEventAt_at_sink (src cls pay t : Nat) (c : Chip) (j : Nat) : (yardEventAt src cls pay t c).sink j = c.sink j := congrFun (rest_field Chip.sink (fun _ => rfl) (tells_yardEventAt src cls pay t c).rest) j
@[simp] theorem yardEventAt_at_ntc (src cls pay t : Nat) (c : Chip) (j : Nat) : (yardEventAt src cls pay t c).ntc j = c.ntc j := congrFun (rest_field Chip.ntc (fun _ => rfl) (tells_yardEventAt src cls pay t c).rest) j
@[simp] theorem yardEventAt_at_si (src cls pay t : Nat) (c : Chip) (j : Nat) : (yardEventAt src cls pay t c).si j = c.si j := congrFun (rest_field Chip.si (fun _ => rfl) (tells_yardEventAt src cls pay t c).rest) j
@[simp] theorem yardEventAt_at_ain (src cls pay t : Nat) (c : Chip) (j : Nat) : (yardEventAt src cls pay t c).ain j = c.ain j := congrFun (rest_field Chip.ain (fun _ => rfl) (tells_yardEventAt src cls pay t c).rest) j
@[simp] theorem yardEventAt_at_dout (src cls pay t : Nat) (c : Chip) (j : Nat) : (yardEventAt src cls pay t c).dout j = c.dout j := congrFun (rest_field Chip.dout (fun _ => rfl) (tells_yardEventAt src cls pay t c).rest) j
@[simp] theorem yardEventAt_at_feed (src cls pay t : Nat) (c : Chip) (j : Nat) : (yardEventAt src cls pay t c).feed j = c.feed j := congrFun (rest_field Chip.feed (fun _ => rfl) (tells_yardEventAt src cls pay t c).rest) j
@[simp] theorem yardEventAt_at_safe (src cls pay t : Nat) (c : Chip) (j : Nat) : (yardEventAt src cls pay t c).safe j = c.safe j := congrFun (rest_field Chip.safe (fun _ => rfl) (tells_yardEventAt src cls pay t c).rest) j
@[simp] theorem yardEventAt_at_port (src cls pay t : Nat) (c : Chip) (j : Nat) : (yardEventAt src cls pay t c).port j = c.port j := congrFun (rest_field Chip.port (fun _ => rfl) (tells_yardEventAt src cls pay t c).rest) j
@[simp] theorem yardEventAt_at_timer (src cls pay t : Nat) (c : Chip) (j : Nat) : (yardEventAt src cls pay t c).timer j = c.timer j := congrFun (rest_field Chip.timer (fun _ => rfl) (tells_yardEventAt src cls pay t c).rest) j
@[simp] theorem yardEventAt_at_seg (src cls pay t : Nat) (c : Chip) (j : Nat) : (yardEventAt src cls pay t c).seg j = c.seg j := congrFun (rest_field Chip.seg (fun _ => rfl) (tells_yardEventAt src cls pay t c).rest) j
@[simp] theorem yardEventAt_at_can (src cls pay t : Nat) (c : Chip) (j : Nat) : (yardEventAt src cls pay t c).can j = c.can j := congrFun (rest_field Chip.can (fun _ => rfl) (tells_yardEventAt src cls pay t c).rest) j
@[simp] theorem yardEventAt_at_lin (src cls pay t : Nat) (c : Chip) (j : Nat) : (yardEventAt src cls pay t c).lin j = c.lin j := congrFun (rest_field Chip.lin (fun _ => rfl) (tells_yardEventAt src cls pay t c).rest) j
@[simp] theorem yardEventAt_at_t1s (src cls pay t : Nat) (c : Chip) (j : Nat) : (yardEventAt src cls pay t c).t1s j = c.t1s j := congrFun (rest_field Chip.t1s (fun _ => rfl) (tells_yardEventAt src cls pay t c).rest) j
@[simp] theorem yardEventAt_at_bb (src cls pay t : Nat) (c : Chip) (j : Nat) : (yardEventAt src cls pay t c).bb j = c.bb j := congrFun (rest_field Chip.bb (fun _ => rfl) (tells_yardEventAt src cls pay t c).rest) j
@[simp] theorem yardEventAt_yard (src cls pay t : Nat) (c : Chip) (k : Nat) : yardRest ((yardEventAt src cls pay t c).yard k) = yardRest (c.yard k) := (tells_yardEventAt src cls pay t c).yard k

-- yardEvent

@[simp] theorem yardEvent_now (src cls pay : Nat) (c : Chip) : (yardEvent src cls pay c).now = c.now := rest_field Chip.now (fun _ => rfl) (tells_yardEvent src cls pay c).rest
@[simp] theorem yardEvent_sys (src cls pay : Nat) (c : Chip) : (yardEvent src cls pay c).sys = c.sys := rest_field Chip.sys (fun _ => rfl) (tells_yardEvent src cls pay c).rest
@[simp] theorem yardEvent_mt (src cls pay : Nat) (c : Chip) : (yardEvent src cls pay c).mt = c.mt := rest_field Chip.mt (fun _ => rfl) (tells_yardEvent src cls pay c).rest
@[simp] theorem yardEvent_arb (src cls pay : Nat) (c : Chip) : (yardEvent src cls pay c).arb = c.arb := rest_field Chip.arb (fun _ => rfl) (tells_yardEvent src cls pay c).rest
@[simp] theorem yardEvent_feeds (src cls pay : Nat) (c : Chip) : (yardEvent src cls pay c).feeds = c.feeds := rest_field Chip.feeds (fun _ => rfl) (tells_yardEvent src cls pay c).rest
@[simp] theorem yardEvent_budget (src cls pay : Nat) (c : Chip) : (yardEvent src cls pay c).budget = c.budget := rest_field Chip.budget (fun _ => rfl) (tells_yardEvent src cls pay c).rest
@[simp] theorem yardEvent_safes (src cls pay : Nat) (c : Chip) : (yardEvent src cls pay c).safes = c.safes := rest_field Chip.safes (fun _ => rfl) (tells_yardEvent src cls pay c).rest
@[simp] theorem yardEvent_halt (src cls pay : Nat) (c : Chip) : (yardEvent src cls pay c).halt = c.halt := rest_field Chip.halt (fun _ => rfl) (tells_yardEvent src cls pay c).rest
@[simp] theorem yardEvent_img (src cls pay : Nat) (c : Chip) : (yardEvent src cls pay c).img = c.img := rest_field Chip.img (fun _ => rfl) (tells_yardEvent src cls pay c).rest
@[simp] theorem yardEvent_copy (src cls pay : Nat) (c : Chip) : (yardEvent src cls pay c).copy = c.copy := rest_field Chip.copy (fun _ => rfl) (tells_yardEvent src cls pay c).rest
@[simp] theorem yardEvent_curves (src cls pay : Nat) (c : Chip) : (yardEvent src cls pay c).curves = c.curves := rest_field Chip.curves (fun _ => rfl) (tells_yardEvent src cls pay c).rest
@[simp] theorem yardEvent_cross (src cls pay : Nat) (c : Chip) : (yardEvent src cls pay c).cross = c.cross := rest_field Chip.cross (fun _ => rfl) (tells_yardEvent src cls pay c).rest
@[simp] theorem yardEvent_seqs (src cls pay : Nat) (c : Chip) : (yardEvent src cls pay c).seqs = c.seqs := rest_field Chip.seqs (fun _ => rfl) (tells_yardEvent src cls pay c).rest
@[simp] theorem yardEvent_ports (src cls pay : Nat) (c : Chip) : (yardEvent src cls pay c).ports = c.ports := rest_field Chip.ports (fun _ => rfl) (tells_yardEvent src cls pay c).rest
@[simp] theorem yardEvent_latches (src cls pay : Nat) (c : Chip) : (yardEvent src cls pay c).latches = c.latches := rest_field Chip.latches (fun _ => rfl) (tells_yardEvent src cls pay c).rest
@[simp] theorem yardEvent_timers (src cls pay : Nat) (c : Chip) : (yardEvent src cls pay c).timers = c.timers := rest_field Chip.timers (fun _ => rfl) (tells_yardEvent src cls pay c).rest
@[simp] theorem yardEvent_gstart (src cls pay : Nat) (c : Chip) : (yardEvent src cls pay c).gstart = c.gstart := rest_field Chip.gstart (fun _ => rfl) (tells_yardEvent src cls pay c).rest
@[simp] theorem yardEvent_segs (src cls pay : Nat) (c : Chip) : (yardEvent src cls pay c).segs = c.segs := rest_field Chip.segs (fun _ => rfl) (tells_yardEvent src cls pay c).rest
@[simp] theorem yardEvent_cans (src cls pay : Nat) (c : Chip) : (yardEvent src cls pay c).cans = c.cans := rest_field Chip.cans (fun _ => rfl) (tells_yardEvent src cls pay c).rest
@[simp] theorem yardEvent_lins (src cls pay : Nat) (c : Chip) : (yardEvent src cls pay c).lins = c.lins := rest_field Chip.lins (fun _ => rfl) (tells_yardEvent src cls pay c).rest
@[simp] theorem yardEvent_t1ss (src cls pay : Nat) (c : Chip) : (yardEvent src cls pay c).t1ss = c.t1ss := rest_field Chip.t1ss (fun _ => rfl) (tells_yardEvent src cls pay c).rest
@[simp] theorem yardEvent_bbs (src cls pay : Nat) (c : Chip) : (yardEvent src cls pay c).bbs = c.bbs := rest_field Chip.bbs (fun _ => rfl) (tells_yardEvent src cls pay c).rest
@[simp] theorem yardEvent_hostPort (src cls pay : Nat) (c : Chip) : (yardEvent src cls pay c).hostPort = c.hostPort := rest_field Chip.hostPort (fun _ => rfl) (tells_yardEvent src cls pay c).rest
@[simp] theorem yardEvent_net (src cls pay : Nat) (c : Chip) : (yardEvent src cls pay c).net = c.net := rest_field Chip.net (fun _ => rfl) (tells_yardEvent src cls pay c).rest
@[simp] theorem yardEvent_acc (src cls pay : Nat) (c : Chip) : (yardEvent src cls pay c).acc = c.acc := rest_field Chip.acc (fun _ => rfl) (tells_yardEvent src cls pay c).rest
@[simp] theorem yardEvent_upd (src cls pay : Nat) (c : Chip) : (yardEvent src cls pay c).upd = c.upd := rest_field Chip.upd (fun _ => rfl) (tells_yardEvent src cls pay c).rest
@[simp] theorem yardEvent_age (src cls pay : Nat) (c : Chip) : (yardEvent src cls pay c).age = c.age := rest_field Chip.age (fun _ => rfl) (tells_yardEvent src cls pay c).rest
@[simp] theorem yardEvent_at_stall (src cls pay : Nat) (c : Chip) (j : Nat) : (yardEvent src cls pay c).stall j = c.stall j := congrFun (rest_field Chip.stall (fun _ => rfl) (tells_yardEvent src cls pay c).rest) j
@[simp] theorem yardEvent_at_row (src cls pay : Nat) (c : Chip) (j : Nat) : (yardEvent src cls pay c).row j = c.row j := congrFun (rest_field Chip.row (fun _ => rfl) (tells_yardEvent src cls pay c).rest) j
@[simp] theorem yardEvent_at_valve (src cls pay : Nat) (c : Chip) (j : Nat) : (yardEvent src cls pay c).valve j = c.valve j := congrFun (rest_field Chip.valve (fun _ => rfl) (tells_yardEvent src cls pay c).rest) j
@[simp] theorem yardEvent_at_vg (src cls pay : Nat) (c : Chip) (j : Nat) : (yardEvent src cls pay c).vg j = c.vg j := congrFun (rest_field Chip.vg (fun _ => rfl) (tells_yardEvent src cls pay c).rest) j
@[simp] theorem yardEvent_at_loop (src cls pay : Nat) (c : Chip) (j : Nat) : (yardEvent src cls pay c).loop j = c.loop j := congrFun (rest_field Chip.loop (fun _ => rfl) (tells_yardEvent src cls pay c).rest) j
@[simp] theorem yardEvent_at_boost (src cls pay : Nat) (c : Chip) (j : Nat) : (yardEvent src cls pay c).boost j = c.boost j := congrFun (rest_field Chip.boost (fun _ => rfl) (tells_yardEvent src cls pay c).rest) j
@[simp] theorem yardEvent_at_sink (src cls pay : Nat) (c : Chip) (j : Nat) : (yardEvent src cls pay c).sink j = c.sink j := congrFun (rest_field Chip.sink (fun _ => rfl) (tells_yardEvent src cls pay c).rest) j
@[simp] theorem yardEvent_at_ntc (src cls pay : Nat) (c : Chip) (j : Nat) : (yardEvent src cls pay c).ntc j = c.ntc j := congrFun (rest_field Chip.ntc (fun _ => rfl) (tells_yardEvent src cls pay c).rest) j
@[simp] theorem yardEvent_at_si (src cls pay : Nat) (c : Chip) (j : Nat) : (yardEvent src cls pay c).si j = c.si j := congrFun (rest_field Chip.si (fun _ => rfl) (tells_yardEvent src cls pay c).rest) j
@[simp] theorem yardEvent_at_ain (src cls pay : Nat) (c : Chip) (j : Nat) : (yardEvent src cls pay c).ain j = c.ain j := congrFun (rest_field Chip.ain (fun _ => rfl) (tells_yardEvent src cls pay c).rest) j
@[simp] theorem yardEvent_at_dout (src cls pay : Nat) (c : Chip) (j : Nat) : (yardEvent src cls pay c).dout j = c.dout j := congrFun (rest_field Chip.dout (fun _ => rfl) (tells_yardEvent src cls pay c).rest) j
@[simp] theorem yardEvent_at_feed (src cls pay : Nat) (c : Chip) (j : Nat) : (yardEvent src cls pay c).feed j = c.feed j := congrFun (rest_field Chip.feed (fun _ => rfl) (tells_yardEvent src cls pay c).rest) j
@[simp] theorem yardEvent_at_safe (src cls pay : Nat) (c : Chip) (j : Nat) : (yardEvent src cls pay c).safe j = c.safe j := congrFun (rest_field Chip.safe (fun _ => rfl) (tells_yardEvent src cls pay c).rest) j
@[simp] theorem yardEvent_at_port (src cls pay : Nat) (c : Chip) (j : Nat) : (yardEvent src cls pay c).port j = c.port j := congrFun (rest_field Chip.port (fun _ => rfl) (tells_yardEvent src cls pay c).rest) j
@[simp] theorem yardEvent_at_timer (src cls pay : Nat) (c : Chip) (j : Nat) : (yardEvent src cls pay c).timer j = c.timer j := congrFun (rest_field Chip.timer (fun _ => rfl) (tells_yardEvent src cls pay c).rest) j
@[simp] theorem yardEvent_at_seg (src cls pay : Nat) (c : Chip) (j : Nat) : (yardEvent src cls pay c).seg j = c.seg j := congrFun (rest_field Chip.seg (fun _ => rfl) (tells_yardEvent src cls pay c).rest) j
@[simp] theorem yardEvent_at_can (src cls pay : Nat) (c : Chip) (j : Nat) : (yardEvent src cls pay c).can j = c.can j := congrFun (rest_field Chip.can (fun _ => rfl) (tells_yardEvent src cls pay c).rest) j
@[simp] theorem yardEvent_at_lin (src cls pay : Nat) (c : Chip) (j : Nat) : (yardEvent src cls pay c).lin j = c.lin j := congrFun (rest_field Chip.lin (fun _ => rfl) (tells_yardEvent src cls pay c).rest) j
@[simp] theorem yardEvent_at_t1s (src cls pay : Nat) (c : Chip) (j : Nat) : (yardEvent src cls pay c).t1s j = c.t1s j := congrFun (rest_field Chip.t1s (fun _ => rfl) (tells_yardEvent src cls pay c).rest) j
@[simp] theorem yardEvent_at_bb (src cls pay : Nat) (c : Chip) (j : Nat) : (yardEvent src cls pay c).bb j = c.bb j := congrFun (rest_field Chip.bb (fun _ => rfl) (tells_yardEvent src cls pay c).rest) j
@[simp] theorem yardEvent_yard (src cls pay : Nat) (c : Chip) (k : Nat) : yardRest ((yardEvent src cls pay c).yard k) = yardRest (c.yard k) := (tells_yardEvent src cls pay c).yard k

-- stallEvent

@[simp] theorem stallEvent_now (r : Regs) (i cause cls : Nat) (c : Chip) : (stallEvent r i cause cls c).now = c.now := rest_field Chip.now (fun _ => rfl) (tells_stallEvent r i cause cls c).rest
@[simp] theorem stallEvent_sys (r : Regs) (i cause cls : Nat) (c : Chip) : (stallEvent r i cause cls c).sys = c.sys := rest_field Chip.sys (fun _ => rfl) (tells_stallEvent r i cause cls c).rest
@[simp] theorem stallEvent_mt (r : Regs) (i cause cls : Nat) (c : Chip) : (stallEvent r i cause cls c).mt = c.mt := rest_field Chip.mt (fun _ => rfl) (tells_stallEvent r i cause cls c).rest
@[simp] theorem stallEvent_arb (r : Regs) (i cause cls : Nat) (c : Chip) : (stallEvent r i cause cls c).arb = c.arb := rest_field Chip.arb (fun _ => rfl) (tells_stallEvent r i cause cls c).rest
@[simp] theorem stallEvent_feeds (r : Regs) (i cause cls : Nat) (c : Chip) : (stallEvent r i cause cls c).feeds = c.feeds := rest_field Chip.feeds (fun _ => rfl) (tells_stallEvent r i cause cls c).rest
@[simp] theorem stallEvent_budget (r : Regs) (i cause cls : Nat) (c : Chip) : (stallEvent r i cause cls c).budget = c.budget := rest_field Chip.budget (fun _ => rfl) (tells_stallEvent r i cause cls c).rest
@[simp] theorem stallEvent_safes (r : Regs) (i cause cls : Nat) (c : Chip) : (stallEvent r i cause cls c).safes = c.safes := rest_field Chip.safes (fun _ => rfl) (tells_stallEvent r i cause cls c).rest
@[simp] theorem stallEvent_halt (r : Regs) (i cause cls : Nat) (c : Chip) : (stallEvent r i cause cls c).halt = c.halt := rest_field Chip.halt (fun _ => rfl) (tells_stallEvent r i cause cls c).rest
@[simp] theorem stallEvent_img (r : Regs) (i cause cls : Nat) (c : Chip) : (stallEvent r i cause cls c).img = c.img := rest_field Chip.img (fun _ => rfl) (tells_stallEvent r i cause cls c).rest
@[simp] theorem stallEvent_copy (r : Regs) (i cause cls : Nat) (c : Chip) : (stallEvent r i cause cls c).copy = c.copy := rest_field Chip.copy (fun _ => rfl) (tells_stallEvent r i cause cls c).rest
@[simp] theorem stallEvent_curves (r : Regs) (i cause cls : Nat) (c : Chip) : (stallEvent r i cause cls c).curves = c.curves := rest_field Chip.curves (fun _ => rfl) (tells_stallEvent r i cause cls c).rest
@[simp] theorem stallEvent_cross (r : Regs) (i cause cls : Nat) (c : Chip) : (stallEvent r i cause cls c).cross = c.cross := rest_field Chip.cross (fun _ => rfl) (tells_stallEvent r i cause cls c).rest
@[simp] theorem stallEvent_seqs (r : Regs) (i cause cls : Nat) (c : Chip) : (stallEvent r i cause cls c).seqs = c.seqs := rest_field Chip.seqs (fun _ => rfl) (tells_stallEvent r i cause cls c).rest
@[simp] theorem stallEvent_ports (r : Regs) (i cause cls : Nat) (c : Chip) : (stallEvent r i cause cls c).ports = c.ports := rest_field Chip.ports (fun _ => rfl) (tells_stallEvent r i cause cls c).rest
@[simp] theorem stallEvent_latches (r : Regs) (i cause cls : Nat) (c : Chip) : (stallEvent r i cause cls c).latches = c.latches := rest_field Chip.latches (fun _ => rfl) (tells_stallEvent r i cause cls c).rest
@[simp] theorem stallEvent_timers (r : Regs) (i cause cls : Nat) (c : Chip) : (stallEvent r i cause cls c).timers = c.timers := rest_field Chip.timers (fun _ => rfl) (tells_stallEvent r i cause cls c).rest
@[simp] theorem stallEvent_gstart (r : Regs) (i cause cls : Nat) (c : Chip) : (stallEvent r i cause cls c).gstart = c.gstart := rest_field Chip.gstart (fun _ => rfl) (tells_stallEvent r i cause cls c).rest
@[simp] theorem stallEvent_segs (r : Regs) (i cause cls : Nat) (c : Chip) : (stallEvent r i cause cls c).segs = c.segs := rest_field Chip.segs (fun _ => rfl) (tells_stallEvent r i cause cls c).rest
@[simp] theorem stallEvent_cans (r : Regs) (i cause cls : Nat) (c : Chip) : (stallEvent r i cause cls c).cans = c.cans := rest_field Chip.cans (fun _ => rfl) (tells_stallEvent r i cause cls c).rest
@[simp] theorem stallEvent_lins (r : Regs) (i cause cls : Nat) (c : Chip) : (stallEvent r i cause cls c).lins = c.lins := rest_field Chip.lins (fun _ => rfl) (tells_stallEvent r i cause cls c).rest
@[simp] theorem stallEvent_t1ss (r : Regs) (i cause cls : Nat) (c : Chip) : (stallEvent r i cause cls c).t1ss = c.t1ss := rest_field Chip.t1ss (fun _ => rfl) (tells_stallEvent r i cause cls c).rest
@[simp] theorem stallEvent_bbs (r : Regs) (i cause cls : Nat) (c : Chip) : (stallEvent r i cause cls c).bbs = c.bbs := rest_field Chip.bbs (fun _ => rfl) (tells_stallEvent r i cause cls c).rest
@[simp] theorem stallEvent_hostPort (r : Regs) (i cause cls : Nat) (c : Chip) : (stallEvent r i cause cls c).hostPort = c.hostPort := rest_field Chip.hostPort (fun _ => rfl) (tells_stallEvent r i cause cls c).rest
@[simp] theorem stallEvent_net (r : Regs) (i cause cls : Nat) (c : Chip) : (stallEvent r i cause cls c).net = c.net := rest_field Chip.net (fun _ => rfl) (tells_stallEvent r i cause cls c).rest
@[simp] theorem stallEvent_acc (r : Regs) (i cause cls : Nat) (c : Chip) : (stallEvent r i cause cls c).acc = c.acc := rest_field Chip.acc (fun _ => rfl) (tells_stallEvent r i cause cls c).rest
@[simp] theorem stallEvent_upd (r : Regs) (i cause cls : Nat) (c : Chip) : (stallEvent r i cause cls c).upd = c.upd := rest_field Chip.upd (fun _ => rfl) (tells_stallEvent r i cause cls c).rest
@[simp] theorem stallEvent_age (r : Regs) (i cause cls : Nat) (c : Chip) : (stallEvent r i cause cls c).age = c.age := rest_field Chip.age (fun _ => rfl) (tells_stallEvent r i cause cls c).rest
@[simp] theorem stallEvent_at_stall (r : Regs) (i cause cls : Nat) (c : Chip) (j : Nat) : (stallEvent r i cause cls c).stall j = c.stall j := congrFun (rest_field Chip.stall (fun _ => rfl) (tells_stallEvent r i cause cls c).rest) j
@[simp] theorem stallEvent_at_row (r : Regs) (i cause cls : Nat) (c : Chip) (j : Nat) : (stallEvent r i cause cls c).row j = c.row j := congrFun (rest_field Chip.row (fun _ => rfl) (tells_stallEvent r i cause cls c).rest) j
@[simp] theorem stallEvent_at_valve (r : Regs) (i cause cls : Nat) (c : Chip) (j : Nat) : (stallEvent r i cause cls c).valve j = c.valve j := congrFun (rest_field Chip.valve (fun _ => rfl) (tells_stallEvent r i cause cls c).rest) j
@[simp] theorem stallEvent_at_vg (r : Regs) (i cause cls : Nat) (c : Chip) (j : Nat) : (stallEvent r i cause cls c).vg j = c.vg j := congrFun (rest_field Chip.vg (fun _ => rfl) (tells_stallEvent r i cause cls c).rest) j
@[simp] theorem stallEvent_at_loop (r : Regs) (i cause cls : Nat) (c : Chip) (j : Nat) : (stallEvent r i cause cls c).loop j = c.loop j := congrFun (rest_field Chip.loop (fun _ => rfl) (tells_stallEvent r i cause cls c).rest) j
@[simp] theorem stallEvent_at_boost (r : Regs) (i cause cls : Nat) (c : Chip) (j : Nat) : (stallEvent r i cause cls c).boost j = c.boost j := congrFun (rest_field Chip.boost (fun _ => rfl) (tells_stallEvent r i cause cls c).rest) j
@[simp] theorem stallEvent_at_sink (r : Regs) (i cause cls : Nat) (c : Chip) (j : Nat) : (stallEvent r i cause cls c).sink j = c.sink j := congrFun (rest_field Chip.sink (fun _ => rfl) (tells_stallEvent r i cause cls c).rest) j
@[simp] theorem stallEvent_at_ntc (r : Regs) (i cause cls : Nat) (c : Chip) (j : Nat) : (stallEvent r i cause cls c).ntc j = c.ntc j := congrFun (rest_field Chip.ntc (fun _ => rfl) (tells_stallEvent r i cause cls c).rest) j
@[simp] theorem stallEvent_at_si (r : Regs) (i cause cls : Nat) (c : Chip) (j : Nat) : (stallEvent r i cause cls c).si j = c.si j := congrFun (rest_field Chip.si (fun _ => rfl) (tells_stallEvent r i cause cls c).rest) j
@[simp] theorem stallEvent_at_ain (r : Regs) (i cause cls : Nat) (c : Chip) (j : Nat) : (stallEvent r i cause cls c).ain j = c.ain j := congrFun (rest_field Chip.ain (fun _ => rfl) (tells_stallEvent r i cause cls c).rest) j
@[simp] theorem stallEvent_at_dout (r : Regs) (i cause cls : Nat) (c : Chip) (j : Nat) : (stallEvent r i cause cls c).dout j = c.dout j := congrFun (rest_field Chip.dout (fun _ => rfl) (tells_stallEvent r i cause cls c).rest) j
@[simp] theorem stallEvent_at_feed (r : Regs) (i cause cls : Nat) (c : Chip) (j : Nat) : (stallEvent r i cause cls c).feed j = c.feed j := congrFun (rest_field Chip.feed (fun _ => rfl) (tells_stallEvent r i cause cls c).rest) j
@[simp] theorem stallEvent_at_safe (r : Regs) (i cause cls : Nat) (c : Chip) (j : Nat) : (stallEvent r i cause cls c).safe j = c.safe j := congrFun (rest_field Chip.safe (fun _ => rfl) (tells_stallEvent r i cause cls c).rest) j
@[simp] theorem stallEvent_at_port (r : Regs) (i cause cls : Nat) (c : Chip) (j : Nat) : (stallEvent r i cause cls c).port j = c.port j := congrFun (rest_field Chip.port (fun _ => rfl) (tells_stallEvent r i cause cls c).rest) j
@[simp] theorem stallEvent_at_timer (r : Regs) (i cause cls : Nat) (c : Chip) (j : Nat) : (stallEvent r i cause cls c).timer j = c.timer j := congrFun (rest_field Chip.timer (fun _ => rfl) (tells_stallEvent r i cause cls c).rest) j
@[simp] theorem stallEvent_at_seg (r : Regs) (i cause cls : Nat) (c : Chip) (j : Nat) : (stallEvent r i cause cls c).seg j = c.seg j := congrFun (rest_field Chip.seg (fun _ => rfl) (tells_stallEvent r i cause cls c).rest) j
@[simp] theorem stallEvent_at_can (r : Regs) (i cause cls : Nat) (c : Chip) (j : Nat) : (stallEvent r i cause cls c).can j = c.can j := congrFun (rest_field Chip.can (fun _ => rfl) (tells_stallEvent r i cause cls c).rest) j
@[simp] theorem stallEvent_at_lin (r : Regs) (i cause cls : Nat) (c : Chip) (j : Nat) : (stallEvent r i cause cls c).lin j = c.lin j := congrFun (rest_field Chip.lin (fun _ => rfl) (tells_stallEvent r i cause cls c).rest) j
@[simp] theorem stallEvent_at_t1s (r : Regs) (i cause cls : Nat) (c : Chip) (j : Nat) : (stallEvent r i cause cls c).t1s j = c.t1s j := congrFun (rest_field Chip.t1s (fun _ => rfl) (tells_stallEvent r i cause cls c).rest) j
@[simp] theorem stallEvent_at_bb (r : Regs) (i cause cls : Nat) (c : Chip) (j : Nat) : (stallEvent r i cause cls c).bb j = c.bb j := congrFun (rest_field Chip.bb (fun _ => rfl) (tells_stallEvent r i cause cls c).rest) j
@[simp] theorem stallEvent_yard (r : Regs) (i cause cls : Nat) (c : Chip) (k : Nat) : yardRest ((stallEvent r i cause cls c).yard k) = yardRest (c.yard k) := (tells_stallEvent r i cause cls c).yard k

-- yardResult

@[simp] theorem yardResult_now (y id status result : Nat) (c : Chip) : (yardResult y id status result c).now = c.now := rest_field Chip.now (fun _ => rfl) (tells_yardResult y id status result c).rest
@[simp] theorem yardResult_sys (y id status result : Nat) (c : Chip) : (yardResult y id status result c).sys = c.sys := rest_field Chip.sys (fun _ => rfl) (tells_yardResult y id status result c).rest
@[simp] theorem yardResult_mt (y id status result : Nat) (c : Chip) : (yardResult y id status result c).mt = c.mt := rest_field Chip.mt (fun _ => rfl) (tells_yardResult y id status result c).rest
@[simp] theorem yardResult_arb (y id status result : Nat) (c : Chip) : (yardResult y id status result c).arb = c.arb := rest_field Chip.arb (fun _ => rfl) (tells_yardResult y id status result c).rest
@[simp] theorem yardResult_feeds (y id status result : Nat) (c : Chip) : (yardResult y id status result c).feeds = c.feeds := rest_field Chip.feeds (fun _ => rfl) (tells_yardResult y id status result c).rest
@[simp] theorem yardResult_budget (y id status result : Nat) (c : Chip) : (yardResult y id status result c).budget = c.budget := rest_field Chip.budget (fun _ => rfl) (tells_yardResult y id status result c).rest
@[simp] theorem yardResult_safes (y id status result : Nat) (c : Chip) : (yardResult y id status result c).safes = c.safes := rest_field Chip.safes (fun _ => rfl) (tells_yardResult y id status result c).rest
@[simp] theorem yardResult_halt (y id status result : Nat) (c : Chip) : (yardResult y id status result c).halt = c.halt := rest_field Chip.halt (fun _ => rfl) (tells_yardResult y id status result c).rest
@[simp] theorem yardResult_img (y id status result : Nat) (c : Chip) : (yardResult y id status result c).img = c.img := rest_field Chip.img (fun _ => rfl) (tells_yardResult y id status result c).rest
@[simp] theorem yardResult_copy (y id status result : Nat) (c : Chip) : (yardResult y id status result c).copy = c.copy := rest_field Chip.copy (fun _ => rfl) (tells_yardResult y id status result c).rest
@[simp] theorem yardResult_curves (y id status result : Nat) (c : Chip) : (yardResult y id status result c).curves = c.curves := rest_field Chip.curves (fun _ => rfl) (tells_yardResult y id status result c).rest
@[simp] theorem yardResult_cross (y id status result : Nat) (c : Chip) : (yardResult y id status result c).cross = c.cross := rest_field Chip.cross (fun _ => rfl) (tells_yardResult y id status result c).rest
@[simp] theorem yardResult_seqs (y id status result : Nat) (c : Chip) : (yardResult y id status result c).seqs = c.seqs := rest_field Chip.seqs (fun _ => rfl) (tells_yardResult y id status result c).rest
@[simp] theorem yardResult_ports (y id status result : Nat) (c : Chip) : (yardResult y id status result c).ports = c.ports := rest_field Chip.ports (fun _ => rfl) (tells_yardResult y id status result c).rest
@[simp] theorem yardResult_latches (y id status result : Nat) (c : Chip) : (yardResult y id status result c).latches = c.latches := rest_field Chip.latches (fun _ => rfl) (tells_yardResult y id status result c).rest
@[simp] theorem yardResult_timers (y id status result : Nat) (c : Chip) : (yardResult y id status result c).timers = c.timers := rest_field Chip.timers (fun _ => rfl) (tells_yardResult y id status result c).rest
@[simp] theorem yardResult_gstart (y id status result : Nat) (c : Chip) : (yardResult y id status result c).gstart = c.gstart := rest_field Chip.gstart (fun _ => rfl) (tells_yardResult y id status result c).rest
@[simp] theorem yardResult_segs (y id status result : Nat) (c : Chip) : (yardResult y id status result c).segs = c.segs := rest_field Chip.segs (fun _ => rfl) (tells_yardResult y id status result c).rest
@[simp] theorem yardResult_cans (y id status result : Nat) (c : Chip) : (yardResult y id status result c).cans = c.cans := rest_field Chip.cans (fun _ => rfl) (tells_yardResult y id status result c).rest
@[simp] theorem yardResult_lins (y id status result : Nat) (c : Chip) : (yardResult y id status result c).lins = c.lins := rest_field Chip.lins (fun _ => rfl) (tells_yardResult y id status result c).rest
@[simp] theorem yardResult_t1ss (y id status result : Nat) (c : Chip) : (yardResult y id status result c).t1ss = c.t1ss := rest_field Chip.t1ss (fun _ => rfl) (tells_yardResult y id status result c).rest
@[simp] theorem yardResult_bbs (y id status result : Nat) (c : Chip) : (yardResult y id status result c).bbs = c.bbs := rest_field Chip.bbs (fun _ => rfl) (tells_yardResult y id status result c).rest
@[simp] theorem yardResult_hostPort (y id status result : Nat) (c : Chip) : (yardResult y id status result c).hostPort = c.hostPort := rest_field Chip.hostPort (fun _ => rfl) (tells_yardResult y id status result c).rest
@[simp] theorem yardResult_net (y id status result : Nat) (c : Chip) : (yardResult y id status result c).net = c.net := rest_field Chip.net (fun _ => rfl) (tells_yardResult y id status result c).rest
@[simp] theorem yardResult_acc (y id status result : Nat) (c : Chip) : (yardResult y id status result c).acc = c.acc := rest_field Chip.acc (fun _ => rfl) (tells_yardResult y id status result c).rest
@[simp] theorem yardResult_upd (y id status result : Nat) (c : Chip) : (yardResult y id status result c).upd = c.upd := rest_field Chip.upd (fun _ => rfl) (tells_yardResult y id status result c).rest
@[simp] theorem yardResult_age (y id status result : Nat) (c : Chip) : (yardResult y id status result c).age = c.age := rest_field Chip.age (fun _ => rfl) (tells_yardResult y id status result c).rest
@[simp] theorem yardResult_at_stall (y id status result : Nat) (c : Chip) (j : Nat) : (yardResult y id status result c).stall j = c.stall j := congrFun (rest_field Chip.stall (fun _ => rfl) (tells_yardResult y id status result c).rest) j
@[simp] theorem yardResult_at_row (y id status result : Nat) (c : Chip) (j : Nat) : (yardResult y id status result c).row j = c.row j := congrFun (rest_field Chip.row (fun _ => rfl) (tells_yardResult y id status result c).rest) j
@[simp] theorem yardResult_at_valve (y id status result : Nat) (c : Chip) (j : Nat) : (yardResult y id status result c).valve j = c.valve j := congrFun (rest_field Chip.valve (fun _ => rfl) (tells_yardResult y id status result c).rest) j
@[simp] theorem yardResult_at_vg (y id status result : Nat) (c : Chip) (j : Nat) : (yardResult y id status result c).vg j = c.vg j := congrFun (rest_field Chip.vg (fun _ => rfl) (tells_yardResult y id status result c).rest) j
@[simp] theorem yardResult_at_loop (y id status result : Nat) (c : Chip) (j : Nat) : (yardResult y id status result c).loop j = c.loop j := congrFun (rest_field Chip.loop (fun _ => rfl) (tells_yardResult y id status result c).rest) j
@[simp] theorem yardResult_at_boost (y id status result : Nat) (c : Chip) (j : Nat) : (yardResult y id status result c).boost j = c.boost j := congrFun (rest_field Chip.boost (fun _ => rfl) (tells_yardResult y id status result c).rest) j
@[simp] theorem yardResult_at_sink (y id status result : Nat) (c : Chip) (j : Nat) : (yardResult y id status result c).sink j = c.sink j := congrFun (rest_field Chip.sink (fun _ => rfl) (tells_yardResult y id status result c).rest) j
@[simp] theorem yardResult_at_ntc (y id status result : Nat) (c : Chip) (j : Nat) : (yardResult y id status result c).ntc j = c.ntc j := congrFun (rest_field Chip.ntc (fun _ => rfl) (tells_yardResult y id status result c).rest) j
@[simp] theorem yardResult_at_si (y id status result : Nat) (c : Chip) (j : Nat) : (yardResult y id status result c).si j = c.si j := congrFun (rest_field Chip.si (fun _ => rfl) (tells_yardResult y id status result c).rest) j
@[simp] theorem yardResult_at_ain (y id status result : Nat) (c : Chip) (j : Nat) : (yardResult y id status result c).ain j = c.ain j := congrFun (rest_field Chip.ain (fun _ => rfl) (tells_yardResult y id status result c).rest) j
@[simp] theorem yardResult_at_dout (y id status result : Nat) (c : Chip) (j : Nat) : (yardResult y id status result c).dout j = c.dout j := congrFun (rest_field Chip.dout (fun _ => rfl) (tells_yardResult y id status result c).rest) j
@[simp] theorem yardResult_at_feed (y id status result : Nat) (c : Chip) (j : Nat) : (yardResult y id status result c).feed j = c.feed j := congrFun (rest_field Chip.feed (fun _ => rfl) (tells_yardResult y id status result c).rest) j
@[simp] theorem yardResult_at_safe (y id status result : Nat) (c : Chip) (j : Nat) : (yardResult y id status result c).safe j = c.safe j := congrFun (rest_field Chip.safe (fun _ => rfl) (tells_yardResult y id status result c).rest) j
@[simp] theorem yardResult_at_port (y id status result : Nat) (c : Chip) (j : Nat) : (yardResult y id status result c).port j = c.port j := congrFun (rest_field Chip.port (fun _ => rfl) (tells_yardResult y id status result c).rest) j
@[simp] theorem yardResult_at_timer (y id status result : Nat) (c : Chip) (j : Nat) : (yardResult y id status result c).timer j = c.timer j := congrFun (rest_field Chip.timer (fun _ => rfl) (tells_yardResult y id status result c).rest) j
@[simp] theorem yardResult_at_seg (y id status result : Nat) (c : Chip) (j : Nat) : (yardResult y id status result c).seg j = c.seg j := congrFun (rest_field Chip.seg (fun _ => rfl) (tells_yardResult y id status result c).rest) j
@[simp] theorem yardResult_at_can (y id status result : Nat) (c : Chip) (j : Nat) : (yardResult y id status result c).can j = c.can j := congrFun (rest_field Chip.can (fun _ => rfl) (tells_yardResult y id status result c).rest) j
@[simp] theorem yardResult_at_lin (y id status result : Nat) (c : Chip) (j : Nat) : (yardResult y id status result c).lin j = c.lin j := congrFun (rest_field Chip.lin (fun _ => rfl) (tells_yardResult y id status result c).rest) j
@[simp] theorem yardResult_at_t1s (y id status result : Nat) (c : Chip) (j : Nat) : (yardResult y id status result c).t1s j = c.t1s j := congrFun (rest_field Chip.t1s (fun _ => rfl) (tells_yardResult y id status result c).rest) j
@[simp] theorem yardResult_at_bb (y id status result : Nat) (c : Chip) (j : Nat) : (yardResult y id status result c).bb j = c.bb j := congrFun (rest_field Chip.bb (fun _ => rfl) (tells_yardResult y id status result c).rest) j
@[simp] theorem yardResult_yard (y id status result : Nat) (c : Chip) (k : Nat) : yardRest ((yardResult y id status result c).yard k) = yardRest (c.yard k) := (tells_yardResult y id status result c).yard k

-- yardResultOpt

@[simp] theorem yardResultOpt_now (y : Nat) (id : Option Nat) (status result : Nat) (c : Chip) : (yardResultOpt y id status result c).now = c.now := rest_field Chip.now (fun _ => rfl) (tells_yardResultOpt y id status result c).rest
@[simp] theorem yardResultOpt_sys (y : Nat) (id : Option Nat) (status result : Nat) (c : Chip) : (yardResultOpt y id status result c).sys = c.sys := rest_field Chip.sys (fun _ => rfl) (tells_yardResultOpt y id status result c).rest
@[simp] theorem yardResultOpt_mt (y : Nat) (id : Option Nat) (status result : Nat) (c : Chip) : (yardResultOpt y id status result c).mt = c.mt := rest_field Chip.mt (fun _ => rfl) (tells_yardResultOpt y id status result c).rest
@[simp] theorem yardResultOpt_arb (y : Nat) (id : Option Nat) (status result : Nat) (c : Chip) : (yardResultOpt y id status result c).arb = c.arb := rest_field Chip.arb (fun _ => rfl) (tells_yardResultOpt y id status result c).rest
@[simp] theorem yardResultOpt_feeds (y : Nat) (id : Option Nat) (status result : Nat) (c : Chip) : (yardResultOpt y id status result c).feeds = c.feeds := rest_field Chip.feeds (fun _ => rfl) (tells_yardResultOpt y id status result c).rest
@[simp] theorem yardResultOpt_budget (y : Nat) (id : Option Nat) (status result : Nat) (c : Chip) : (yardResultOpt y id status result c).budget = c.budget := rest_field Chip.budget (fun _ => rfl) (tells_yardResultOpt y id status result c).rest
@[simp] theorem yardResultOpt_safes (y : Nat) (id : Option Nat) (status result : Nat) (c : Chip) : (yardResultOpt y id status result c).safes = c.safes := rest_field Chip.safes (fun _ => rfl) (tells_yardResultOpt y id status result c).rest
@[simp] theorem yardResultOpt_halt (y : Nat) (id : Option Nat) (status result : Nat) (c : Chip) : (yardResultOpt y id status result c).halt = c.halt := rest_field Chip.halt (fun _ => rfl) (tells_yardResultOpt y id status result c).rest
@[simp] theorem yardResultOpt_img (y : Nat) (id : Option Nat) (status result : Nat) (c : Chip) : (yardResultOpt y id status result c).img = c.img := rest_field Chip.img (fun _ => rfl) (tells_yardResultOpt y id status result c).rest
@[simp] theorem yardResultOpt_copy (y : Nat) (id : Option Nat) (status result : Nat) (c : Chip) : (yardResultOpt y id status result c).copy = c.copy := rest_field Chip.copy (fun _ => rfl) (tells_yardResultOpt y id status result c).rest
@[simp] theorem yardResultOpt_curves (y : Nat) (id : Option Nat) (status result : Nat) (c : Chip) : (yardResultOpt y id status result c).curves = c.curves := rest_field Chip.curves (fun _ => rfl) (tells_yardResultOpt y id status result c).rest
@[simp] theorem yardResultOpt_cross (y : Nat) (id : Option Nat) (status result : Nat) (c : Chip) : (yardResultOpt y id status result c).cross = c.cross := rest_field Chip.cross (fun _ => rfl) (tells_yardResultOpt y id status result c).rest
@[simp] theorem yardResultOpt_seqs (y : Nat) (id : Option Nat) (status result : Nat) (c : Chip) : (yardResultOpt y id status result c).seqs = c.seqs := rest_field Chip.seqs (fun _ => rfl) (tells_yardResultOpt y id status result c).rest
@[simp] theorem yardResultOpt_ports (y : Nat) (id : Option Nat) (status result : Nat) (c : Chip) : (yardResultOpt y id status result c).ports = c.ports := rest_field Chip.ports (fun _ => rfl) (tells_yardResultOpt y id status result c).rest
@[simp] theorem yardResultOpt_latches (y : Nat) (id : Option Nat) (status result : Nat) (c : Chip) : (yardResultOpt y id status result c).latches = c.latches := rest_field Chip.latches (fun _ => rfl) (tells_yardResultOpt y id status result c).rest
@[simp] theorem yardResultOpt_timers (y : Nat) (id : Option Nat) (status result : Nat) (c : Chip) : (yardResultOpt y id status result c).timers = c.timers := rest_field Chip.timers (fun _ => rfl) (tells_yardResultOpt y id status result c).rest
@[simp] theorem yardResultOpt_gstart (y : Nat) (id : Option Nat) (status result : Nat) (c : Chip) : (yardResultOpt y id status result c).gstart = c.gstart := rest_field Chip.gstart (fun _ => rfl) (tells_yardResultOpt y id status result c).rest
@[simp] theorem yardResultOpt_segs (y : Nat) (id : Option Nat) (status result : Nat) (c : Chip) : (yardResultOpt y id status result c).segs = c.segs := rest_field Chip.segs (fun _ => rfl) (tells_yardResultOpt y id status result c).rest
@[simp] theorem yardResultOpt_cans (y : Nat) (id : Option Nat) (status result : Nat) (c : Chip) : (yardResultOpt y id status result c).cans = c.cans := rest_field Chip.cans (fun _ => rfl) (tells_yardResultOpt y id status result c).rest
@[simp] theorem yardResultOpt_lins (y : Nat) (id : Option Nat) (status result : Nat) (c : Chip) : (yardResultOpt y id status result c).lins = c.lins := rest_field Chip.lins (fun _ => rfl) (tells_yardResultOpt y id status result c).rest
@[simp] theorem yardResultOpt_t1ss (y : Nat) (id : Option Nat) (status result : Nat) (c : Chip) : (yardResultOpt y id status result c).t1ss = c.t1ss := rest_field Chip.t1ss (fun _ => rfl) (tells_yardResultOpt y id status result c).rest
@[simp] theorem yardResultOpt_bbs (y : Nat) (id : Option Nat) (status result : Nat) (c : Chip) : (yardResultOpt y id status result c).bbs = c.bbs := rest_field Chip.bbs (fun _ => rfl) (tells_yardResultOpt y id status result c).rest
@[simp] theorem yardResultOpt_hostPort (y : Nat) (id : Option Nat) (status result : Nat) (c : Chip) : (yardResultOpt y id status result c).hostPort = c.hostPort := rest_field Chip.hostPort (fun _ => rfl) (tells_yardResultOpt y id status result c).rest
@[simp] theorem yardResultOpt_net (y : Nat) (id : Option Nat) (status result : Nat) (c : Chip) : (yardResultOpt y id status result c).net = c.net := rest_field Chip.net (fun _ => rfl) (tells_yardResultOpt y id status result c).rest
@[simp] theorem yardResultOpt_acc (y : Nat) (id : Option Nat) (status result : Nat) (c : Chip) : (yardResultOpt y id status result c).acc = c.acc := rest_field Chip.acc (fun _ => rfl) (tells_yardResultOpt y id status result c).rest
@[simp] theorem yardResultOpt_upd (y : Nat) (id : Option Nat) (status result : Nat) (c : Chip) : (yardResultOpt y id status result c).upd = c.upd := rest_field Chip.upd (fun _ => rfl) (tells_yardResultOpt y id status result c).rest
@[simp] theorem yardResultOpt_age (y : Nat) (id : Option Nat) (status result : Nat) (c : Chip) : (yardResultOpt y id status result c).age = c.age := rest_field Chip.age (fun _ => rfl) (tells_yardResultOpt y id status result c).rest
@[simp] theorem yardResultOpt_at_stall (y : Nat) (id : Option Nat) (status result : Nat) (c : Chip) (j : Nat) : (yardResultOpt y id status result c).stall j = c.stall j := congrFun (rest_field Chip.stall (fun _ => rfl) (tells_yardResultOpt y id status result c).rest) j
@[simp] theorem yardResultOpt_at_row (y : Nat) (id : Option Nat) (status result : Nat) (c : Chip) (j : Nat) : (yardResultOpt y id status result c).row j = c.row j := congrFun (rest_field Chip.row (fun _ => rfl) (tells_yardResultOpt y id status result c).rest) j
@[simp] theorem yardResultOpt_at_valve (y : Nat) (id : Option Nat) (status result : Nat) (c : Chip) (j : Nat) : (yardResultOpt y id status result c).valve j = c.valve j := congrFun (rest_field Chip.valve (fun _ => rfl) (tells_yardResultOpt y id status result c).rest) j
@[simp] theorem yardResultOpt_at_vg (y : Nat) (id : Option Nat) (status result : Nat) (c : Chip) (j : Nat) : (yardResultOpt y id status result c).vg j = c.vg j := congrFun (rest_field Chip.vg (fun _ => rfl) (tells_yardResultOpt y id status result c).rest) j
@[simp] theorem yardResultOpt_at_loop (y : Nat) (id : Option Nat) (status result : Nat) (c : Chip) (j : Nat) : (yardResultOpt y id status result c).loop j = c.loop j := congrFun (rest_field Chip.loop (fun _ => rfl) (tells_yardResultOpt y id status result c).rest) j
@[simp] theorem yardResultOpt_at_boost (y : Nat) (id : Option Nat) (status result : Nat) (c : Chip) (j : Nat) : (yardResultOpt y id status result c).boost j = c.boost j := congrFun (rest_field Chip.boost (fun _ => rfl) (tells_yardResultOpt y id status result c).rest) j
@[simp] theorem yardResultOpt_at_sink (y : Nat) (id : Option Nat) (status result : Nat) (c : Chip) (j : Nat) : (yardResultOpt y id status result c).sink j = c.sink j := congrFun (rest_field Chip.sink (fun _ => rfl) (tells_yardResultOpt y id status result c).rest) j
@[simp] theorem yardResultOpt_at_ntc (y : Nat) (id : Option Nat) (status result : Nat) (c : Chip) (j : Nat) : (yardResultOpt y id status result c).ntc j = c.ntc j := congrFun (rest_field Chip.ntc (fun _ => rfl) (tells_yardResultOpt y id status result c).rest) j
@[simp] theorem yardResultOpt_at_si (y : Nat) (id : Option Nat) (status result : Nat) (c : Chip) (j : Nat) : (yardResultOpt y id status result c).si j = c.si j := congrFun (rest_field Chip.si (fun _ => rfl) (tells_yardResultOpt y id status result c).rest) j
@[simp] theorem yardResultOpt_at_ain (y : Nat) (id : Option Nat) (status result : Nat) (c : Chip) (j : Nat) : (yardResultOpt y id status result c).ain j = c.ain j := congrFun (rest_field Chip.ain (fun _ => rfl) (tells_yardResultOpt y id status result c).rest) j
@[simp] theorem yardResultOpt_at_dout (y : Nat) (id : Option Nat) (status result : Nat) (c : Chip) (j : Nat) : (yardResultOpt y id status result c).dout j = c.dout j := congrFun (rest_field Chip.dout (fun _ => rfl) (tells_yardResultOpt y id status result c).rest) j
@[simp] theorem yardResultOpt_at_feed (y : Nat) (id : Option Nat) (status result : Nat) (c : Chip) (j : Nat) : (yardResultOpt y id status result c).feed j = c.feed j := congrFun (rest_field Chip.feed (fun _ => rfl) (tells_yardResultOpt y id status result c).rest) j
@[simp] theorem yardResultOpt_at_safe (y : Nat) (id : Option Nat) (status result : Nat) (c : Chip) (j : Nat) : (yardResultOpt y id status result c).safe j = c.safe j := congrFun (rest_field Chip.safe (fun _ => rfl) (tells_yardResultOpt y id status result c).rest) j
@[simp] theorem yardResultOpt_at_port (y : Nat) (id : Option Nat) (status result : Nat) (c : Chip) (j : Nat) : (yardResultOpt y id status result c).port j = c.port j := congrFun (rest_field Chip.port (fun _ => rfl) (tells_yardResultOpt y id status result c).rest) j
@[simp] theorem yardResultOpt_at_timer (y : Nat) (id : Option Nat) (status result : Nat) (c : Chip) (j : Nat) : (yardResultOpt y id status result c).timer j = c.timer j := congrFun (rest_field Chip.timer (fun _ => rfl) (tells_yardResultOpt y id status result c).rest) j
@[simp] theorem yardResultOpt_at_seg (y : Nat) (id : Option Nat) (status result : Nat) (c : Chip) (j : Nat) : (yardResultOpt y id status result c).seg j = c.seg j := congrFun (rest_field Chip.seg (fun _ => rfl) (tells_yardResultOpt y id status result c).rest) j
@[simp] theorem yardResultOpt_at_can (y : Nat) (id : Option Nat) (status result : Nat) (c : Chip) (j : Nat) : (yardResultOpt y id status result c).can j = c.can j := congrFun (rest_field Chip.can (fun _ => rfl) (tells_yardResultOpt y id status result c).rest) j
@[simp] theorem yardResultOpt_at_lin (y : Nat) (id : Option Nat) (status result : Nat) (c : Chip) (j : Nat) : (yardResultOpt y id status result c).lin j = c.lin j := congrFun (rest_field Chip.lin (fun _ => rfl) (tells_yardResultOpt y id status result c).rest) j
@[simp] theorem yardResultOpt_at_t1s (y : Nat) (id : Option Nat) (status result : Nat) (c : Chip) (j : Nat) : (yardResultOpt y id status result c).t1s j = c.t1s j := congrFun (rest_field Chip.t1s (fun _ => rfl) (tells_yardResultOpt y id status result c).rest) j
@[simp] theorem yardResultOpt_at_bb (y : Nat) (id : Option Nat) (status result : Nat) (c : Chip) (j : Nat) : (yardResultOpt y id status result c).bb j = c.bb j := congrFun (rest_field Chip.bb (fun _ => rfl) (tells_yardResultOpt y id status result c).rest) j
@[simp] theorem yardResultOpt_yard (y : Nat) (id : Option Nat) (status result : Nat) (c : Chip) (k : Nat) : yardRest ((yardResultOpt y id status result c).yard k) = yardRest (c.yard k) := (tells_yardResultOpt y id status result c).yard k

-- sendFrame

@[simp] theorem sendFrame_now (y off val : Nat) (who : Option (Nat × Option Nat)) (done : Bool) (c : Chip) : (sendFrame y off val who done c).now = c.now := rest_field Chip.now (fun _ => rfl) (tells_sendFrame y off val who done c).rest
@[simp] theorem sendFrame_sys (y off val : Nat) (who : Option (Nat × Option Nat)) (done : Bool) (c : Chip) : (sendFrame y off val who done c).sys = c.sys := rest_field Chip.sys (fun _ => rfl) (tells_sendFrame y off val who done c).rest
@[simp] theorem sendFrame_mt (y off val : Nat) (who : Option (Nat × Option Nat)) (done : Bool) (c : Chip) : (sendFrame y off val who done c).mt = c.mt := rest_field Chip.mt (fun _ => rfl) (tells_sendFrame y off val who done c).rest
@[simp] theorem sendFrame_arb (y off val : Nat) (who : Option (Nat × Option Nat)) (done : Bool) (c : Chip) : (sendFrame y off val who done c).arb = c.arb := rest_field Chip.arb (fun _ => rfl) (tells_sendFrame y off val who done c).rest
@[simp] theorem sendFrame_feeds (y off val : Nat) (who : Option (Nat × Option Nat)) (done : Bool) (c : Chip) : (sendFrame y off val who done c).feeds = c.feeds := rest_field Chip.feeds (fun _ => rfl) (tells_sendFrame y off val who done c).rest
@[simp] theorem sendFrame_budget (y off val : Nat) (who : Option (Nat × Option Nat)) (done : Bool) (c : Chip) : (sendFrame y off val who done c).budget = c.budget := rest_field Chip.budget (fun _ => rfl) (tells_sendFrame y off val who done c).rest
@[simp] theorem sendFrame_safes (y off val : Nat) (who : Option (Nat × Option Nat)) (done : Bool) (c : Chip) : (sendFrame y off val who done c).safes = c.safes := rest_field Chip.safes (fun _ => rfl) (tells_sendFrame y off val who done c).rest
@[simp] theorem sendFrame_halt (y off val : Nat) (who : Option (Nat × Option Nat)) (done : Bool) (c : Chip) : (sendFrame y off val who done c).halt = c.halt := rest_field Chip.halt (fun _ => rfl) (tells_sendFrame y off val who done c).rest
@[simp] theorem sendFrame_img (y off val : Nat) (who : Option (Nat × Option Nat)) (done : Bool) (c : Chip) : (sendFrame y off val who done c).img = c.img := rest_field Chip.img (fun _ => rfl) (tells_sendFrame y off val who done c).rest
@[simp] theorem sendFrame_copy (y off val : Nat) (who : Option (Nat × Option Nat)) (done : Bool) (c : Chip) : (sendFrame y off val who done c).copy = c.copy := rest_field Chip.copy (fun _ => rfl) (tells_sendFrame y off val who done c).rest
@[simp] theorem sendFrame_curves (y off val : Nat) (who : Option (Nat × Option Nat)) (done : Bool) (c : Chip) : (sendFrame y off val who done c).curves = c.curves := rest_field Chip.curves (fun _ => rfl) (tells_sendFrame y off val who done c).rest
@[simp] theorem sendFrame_cross (y off val : Nat) (who : Option (Nat × Option Nat)) (done : Bool) (c : Chip) : (sendFrame y off val who done c).cross = c.cross := rest_field Chip.cross (fun _ => rfl) (tells_sendFrame y off val who done c).rest
@[simp] theorem sendFrame_seqs (y off val : Nat) (who : Option (Nat × Option Nat)) (done : Bool) (c : Chip) : (sendFrame y off val who done c).seqs = c.seqs := rest_field Chip.seqs (fun _ => rfl) (tells_sendFrame y off val who done c).rest
@[simp] theorem sendFrame_ports (y off val : Nat) (who : Option (Nat × Option Nat)) (done : Bool) (c : Chip) : (sendFrame y off val who done c).ports = c.ports := rest_field Chip.ports (fun _ => rfl) (tells_sendFrame y off val who done c).rest
@[simp] theorem sendFrame_latches (y off val : Nat) (who : Option (Nat × Option Nat)) (done : Bool) (c : Chip) : (sendFrame y off val who done c).latches = c.latches := rest_field Chip.latches (fun _ => rfl) (tells_sendFrame y off val who done c).rest
@[simp] theorem sendFrame_timers (y off val : Nat) (who : Option (Nat × Option Nat)) (done : Bool) (c : Chip) : (sendFrame y off val who done c).timers = c.timers := rest_field Chip.timers (fun _ => rfl) (tells_sendFrame y off val who done c).rest
@[simp] theorem sendFrame_gstart (y off val : Nat) (who : Option (Nat × Option Nat)) (done : Bool) (c : Chip) : (sendFrame y off val who done c).gstart = c.gstart := rest_field Chip.gstart (fun _ => rfl) (tells_sendFrame y off val who done c).rest
@[simp] theorem sendFrame_segs (y off val : Nat) (who : Option (Nat × Option Nat)) (done : Bool) (c : Chip) : (sendFrame y off val who done c).segs = c.segs := rest_field Chip.segs (fun _ => rfl) (tells_sendFrame y off val who done c).rest
@[simp] theorem sendFrame_cans (y off val : Nat) (who : Option (Nat × Option Nat)) (done : Bool) (c : Chip) : (sendFrame y off val who done c).cans = c.cans := rest_field Chip.cans (fun _ => rfl) (tells_sendFrame y off val who done c).rest
@[simp] theorem sendFrame_lins (y off val : Nat) (who : Option (Nat × Option Nat)) (done : Bool) (c : Chip) : (sendFrame y off val who done c).lins = c.lins := rest_field Chip.lins (fun _ => rfl) (tells_sendFrame y off val who done c).rest
@[simp] theorem sendFrame_t1ss (y off val : Nat) (who : Option (Nat × Option Nat)) (done : Bool) (c : Chip) : (sendFrame y off val who done c).t1ss = c.t1ss := rest_field Chip.t1ss (fun _ => rfl) (tells_sendFrame y off val who done c).rest
@[simp] theorem sendFrame_bbs (y off val : Nat) (who : Option (Nat × Option Nat)) (done : Bool) (c : Chip) : (sendFrame y off val who done c).bbs = c.bbs := rest_field Chip.bbs (fun _ => rfl) (tells_sendFrame y off val who done c).rest
@[simp] theorem sendFrame_hostPort (y off val : Nat) (who : Option (Nat × Option Nat)) (done : Bool) (c : Chip) : (sendFrame y off val who done c).hostPort = c.hostPort := rest_field Chip.hostPort (fun _ => rfl) (tells_sendFrame y off val who done c).rest
@[simp] theorem sendFrame_net (y off val : Nat) (who : Option (Nat × Option Nat)) (done : Bool) (c : Chip) : (sendFrame y off val who done c).net = c.net := rest_field Chip.net (fun _ => rfl) (tells_sendFrame y off val who done c).rest
@[simp] theorem sendFrame_acc (y off val : Nat) (who : Option (Nat × Option Nat)) (done : Bool) (c : Chip) : (sendFrame y off val who done c).acc = c.acc := rest_field Chip.acc (fun _ => rfl) (tells_sendFrame y off val who done c).rest
@[simp] theorem sendFrame_upd (y off val : Nat) (who : Option (Nat × Option Nat)) (done : Bool) (c : Chip) : (sendFrame y off val who done c).upd = c.upd := rest_field Chip.upd (fun _ => rfl) (tells_sendFrame y off val who done c).rest
@[simp] theorem sendFrame_age (y off val : Nat) (who : Option (Nat × Option Nat)) (done : Bool) (c : Chip) : (sendFrame y off val who done c).age = c.age := rest_field Chip.age (fun _ => rfl) (tells_sendFrame y off val who done c).rest
@[simp] theorem sendFrame_at_stall (y off val : Nat) (who : Option (Nat × Option Nat)) (done : Bool) (c : Chip) (j : Nat) : (sendFrame y off val who done c).stall j = c.stall j := congrFun (rest_field Chip.stall (fun _ => rfl) (tells_sendFrame y off val who done c).rest) j
@[simp] theorem sendFrame_at_row (y off val : Nat) (who : Option (Nat × Option Nat)) (done : Bool) (c : Chip) (j : Nat) : (sendFrame y off val who done c).row j = c.row j := congrFun (rest_field Chip.row (fun _ => rfl) (tells_sendFrame y off val who done c).rest) j
@[simp] theorem sendFrame_at_valve (y off val : Nat) (who : Option (Nat × Option Nat)) (done : Bool) (c : Chip) (j : Nat) : (sendFrame y off val who done c).valve j = c.valve j := congrFun (rest_field Chip.valve (fun _ => rfl) (tells_sendFrame y off val who done c).rest) j
@[simp] theorem sendFrame_at_vg (y off val : Nat) (who : Option (Nat × Option Nat)) (done : Bool) (c : Chip) (j : Nat) : (sendFrame y off val who done c).vg j = c.vg j := congrFun (rest_field Chip.vg (fun _ => rfl) (tells_sendFrame y off val who done c).rest) j
@[simp] theorem sendFrame_at_loop (y off val : Nat) (who : Option (Nat × Option Nat)) (done : Bool) (c : Chip) (j : Nat) : (sendFrame y off val who done c).loop j = c.loop j := congrFun (rest_field Chip.loop (fun _ => rfl) (tells_sendFrame y off val who done c).rest) j
@[simp] theorem sendFrame_at_boost (y off val : Nat) (who : Option (Nat × Option Nat)) (done : Bool) (c : Chip) (j : Nat) : (sendFrame y off val who done c).boost j = c.boost j := congrFun (rest_field Chip.boost (fun _ => rfl) (tells_sendFrame y off val who done c).rest) j
@[simp] theorem sendFrame_at_sink (y off val : Nat) (who : Option (Nat × Option Nat)) (done : Bool) (c : Chip) (j : Nat) : (sendFrame y off val who done c).sink j = c.sink j := congrFun (rest_field Chip.sink (fun _ => rfl) (tells_sendFrame y off val who done c).rest) j
@[simp] theorem sendFrame_at_ntc (y off val : Nat) (who : Option (Nat × Option Nat)) (done : Bool) (c : Chip) (j : Nat) : (sendFrame y off val who done c).ntc j = c.ntc j := congrFun (rest_field Chip.ntc (fun _ => rfl) (tells_sendFrame y off val who done c).rest) j
@[simp] theorem sendFrame_at_si (y off val : Nat) (who : Option (Nat × Option Nat)) (done : Bool) (c : Chip) (j : Nat) : (sendFrame y off val who done c).si j = c.si j := congrFun (rest_field Chip.si (fun _ => rfl) (tells_sendFrame y off val who done c).rest) j
@[simp] theorem sendFrame_at_ain (y off val : Nat) (who : Option (Nat × Option Nat)) (done : Bool) (c : Chip) (j : Nat) : (sendFrame y off val who done c).ain j = c.ain j := congrFun (rest_field Chip.ain (fun _ => rfl) (tells_sendFrame y off val who done c).rest) j
@[simp] theorem sendFrame_at_dout (y off val : Nat) (who : Option (Nat × Option Nat)) (done : Bool) (c : Chip) (j : Nat) : (sendFrame y off val who done c).dout j = c.dout j := congrFun (rest_field Chip.dout (fun _ => rfl) (tells_sendFrame y off val who done c).rest) j
@[simp] theorem sendFrame_at_feed (y off val : Nat) (who : Option (Nat × Option Nat)) (done : Bool) (c : Chip) (j : Nat) : (sendFrame y off val who done c).feed j = c.feed j := congrFun (rest_field Chip.feed (fun _ => rfl) (tells_sendFrame y off val who done c).rest) j
@[simp] theorem sendFrame_at_safe (y off val : Nat) (who : Option (Nat × Option Nat)) (done : Bool) (c : Chip) (j : Nat) : (sendFrame y off val who done c).safe j = c.safe j := congrFun (rest_field Chip.safe (fun _ => rfl) (tells_sendFrame y off val who done c).rest) j
@[simp] theorem sendFrame_at_port (y off val : Nat) (who : Option (Nat × Option Nat)) (done : Bool) (c : Chip) (j : Nat) : (sendFrame y off val who done c).port j = c.port j := congrFun (rest_field Chip.port (fun _ => rfl) (tells_sendFrame y off val who done c).rest) j
@[simp] theorem sendFrame_at_timer (y off val : Nat) (who : Option (Nat × Option Nat)) (done : Bool) (c : Chip) (j : Nat) : (sendFrame y off val who done c).timer j = c.timer j := congrFun (rest_field Chip.timer (fun _ => rfl) (tells_sendFrame y off val who done c).rest) j
@[simp] theorem sendFrame_at_seg (y off val : Nat) (who : Option (Nat × Option Nat)) (done : Bool) (c : Chip) (j : Nat) : (sendFrame y off val who done c).seg j = c.seg j := congrFun (rest_field Chip.seg (fun _ => rfl) (tells_sendFrame y off val who done c).rest) j
@[simp] theorem sendFrame_at_can (y off val : Nat) (who : Option (Nat × Option Nat)) (done : Bool) (c : Chip) (j : Nat) : (sendFrame y off val who done c).can j = c.can j := congrFun (rest_field Chip.can (fun _ => rfl) (tells_sendFrame y off val who done c).rest) j
@[simp] theorem sendFrame_at_lin (y off val : Nat) (who : Option (Nat × Option Nat)) (done : Bool) (c : Chip) (j : Nat) : (sendFrame y off val who done c).lin j = c.lin j := congrFun (rest_field Chip.lin (fun _ => rfl) (tells_sendFrame y off val who done c).rest) j
@[simp] theorem sendFrame_at_t1s (y off val : Nat) (who : Option (Nat × Option Nat)) (done : Bool) (c : Chip) (j : Nat) : (sendFrame y off val who done c).t1s j = c.t1s j := congrFun (rest_field Chip.t1s (fun _ => rfl) (tells_sendFrame y off val who done c).rest) j
@[simp] theorem sendFrame_at_bb (y off val : Nat) (who : Option (Nat × Option Nat)) (done : Bool) (c : Chip) (j : Nat) : (sendFrame y off val who done c).bb j = c.bb j := congrFun (rest_field Chip.bb (fun _ => rfl) (tells_sendFrame y off val who done c).rest) j
@[simp] theorem sendFrame_yard (y off val : Nat) (who : Option (Nat × Option Nat)) (done : Bool) (c : Chip) (k : Nat) : yardRest ((sendFrame y off val who done c).yard k) = yardRest (c.yard k) := (tells_sendFrame y off val who done c).yard k

end Sys2Proof.Machine
end

