-- ==== Sys2Proof/Laws/Desc.lean ====
section
/-!
SUPPORT. Sys2Proof/Laws/Desc.lean: the frame of a descriptor's execution: an admitted descriptor runs its body on the state with its slot
reserved (04 R93 to R96), and its completion writes one entry (04 R97).
-/

namespace Sys2Proof.Machine

open Sys2Proof.Safety

theorem newJob_nextJob (r : Regs) (d : Desc) (h : Hdr) (op : Instr) (c : Chip) : (newJob r d h op c).nextJob = c.nextJob + 1 := by
  unfold newJob Chip.setRing
  simp only
  split <;> rfl

theorem newJob_jobs (r : Regs) (d : Desc) (h : Hdr) (op : Instr) (c : Chip) : (newJob r d h op c).jobs = c.jobs ++
    [{ id := c.nextJob, h := h, op := op, blk := d.blk, unit := d.unit, cq := sqCq r h.pf.val h.sq.val, lead := d.lead, aux := d.aux }] := by
  unfold newJob Chip.setRing
  simp only
  split <;> rfl

/-- The ring state of the function beside the reserved slot: the SQ and CQ entries alone have changed. -/
theorem newJob_ring (r : Regs) (d : Desc) (h : Hdr) (op : Instr) (c : Chip) : (newJob r d h op c).ring h.pf.val =
    ((c.ring h.pf.val).setSq h.sq.val { (c.ring h.pf.val).sqAt h.sq.val with fenceWait := false }).setCq (sqCq r h.pf.val h.sq.val)
      { (c.ring h.pf.val).cqAt (sqCq r h.pf.val h.sq.val) with
        reserved := ((c.ring h.pf.val).cqAt (sqCq r h.pf.val h.sq.val)).reserved + 1 } := by
  unfold newJob Chip.setRing Chip.ring
  simp only
  split <;> simp_all

/-- A descriptor just fetched is found under its fetch order. -/
@[simp] theorem newJob_job (r : Regs) (d : Desc) (h : Hdr) (op : Instr) (c : Chip) : (newJob r d h op c).job c.nextJob = some
      { id := c.nextJob, h := h, op := op, blk := d.blk, unit := d.unit, cq := sqCq r h.pf.val h.sq.val, lead := d.lead, aux := d.aux } := by
  unfold Chip.job
  rw [newJob_jobs]
  simp

/-- The state in which the body of a descriptor runs: its slot is reserved and it is in progress. -/
theorem runDesc_admitted {d : Desc} {h : Hdr} {s : State} (op : Instr) (body : Nat → State → State) (a : Admitted d h s) :
    runDesc d h op body s = body s.chip.nextJob (s.onChip fun r c => newJob r d h op c) := by
  obtain ⟨⟨h1, h2, h3, h4, h6⟩, h5⟩ := a
  have e3 : recoveryRefuses (newJob s.regs d h op s.chip) h d.opc = false := by
    rw [← h3]; unfold recoveryRefuses; simp
  have e4 : firstFail (checks14 s.regs (newJob s.regs d h op s.chip) d h) = none := by
    rw [← h4]; unfold checks14; simp
  have e6 : unitTesting (newJob s.regs d h op s.chip) d.blk d.unit = false := by
    rw [← h6]; unfold unitTesting; simp
  unfold runDesc
  simp [h1, h2, e3, e4, h5, e6]

/-- A body whose checks pass on the state at fetch runs its effect. -/
theorem gated_pass {checks : Regs → Chip → List (Bool × Nat)} {effect : Nat → State → State} {id : Nat} {s : State}
    (h : firstFail (checks s.regs s.chip) = none) : gated checks effect id s = effect id s := by
  unfold gated; rw [h]

/-- Checks 5 and 6 see nothing of the descriptors in progress. -/
@[simp] theorem checks56_newJob (r : Regs) (d : Desc) (h : Hdr) (op : Instr) (c : Chip) (blk u : Nat) :
    checks56 r (newJob r d h op c) blk u = checks56 r c blk u := by
  unfold checks56 Chip.ycOff domOn domBit clkLost unitResetting Chip.awake; simp

/-- The entry of a completion, and what has been sent before, are in what has been sent (04 R97). -/
theorem postEntry_out (r : Regs) (h : Hdr) (cq status t result : Nat) (c : Chip) (hd : (c.ring h.pf.val).dmaOk = true) :
    Out.completion h.pf.val cq ((c.ring h.pf.val).cqAt cq).tail (entryWords h status t result ((c.ring h.pf.val).cqAt cq).phase) ∈
      (postEntry r h cq status t result c).out := by
  unfold postEntry
  simp only [hd, if_true]
  have hs := (posts_cqSignal r h.pf.val cq ((c.emit (.completion h.pf.val cq ((c.ring h.pf.val).cqAt cq).tail
    (entryWords h status t result ((c.ring h.pf.val).cqAt cq).phase))).setRing h.pf.val (((c.emit (.completion h.pf.val cq
      ((c.ring h.pf.val).cqAt cq).tail (entryWords h status t result ((c.ring h.pf.val).cqAt cq).phase))).ring h.pf.val).setCq cq
    { ((c.ring h.pf.val).cqAt cq) with
      tail := if decide (((c.ring h.pf.val).cqAt cq).tail + 1 = ringSize (r.c (Reg.CQ_CFG h.pf.val cq))) = true then 0 else
        ((c.ring h.pf.val).cqAt cq).tail + 1
      phase := if decide (((c.ring h.pf.val).cqAt cq).tail + 1 = ringSize (r.c (Reg.CQ_CFG h.pf.val cq))) = true then
        !((c.ring h.pf.val).cqAt cq).phase else ((c.ring h.pf.val).cqAt cq).phase
      reserved := ((c.ring h.pf.val).cqAt cq).reserved - 1 }))).sent
  refine hs.subset ?_
  unfold Chip.setRing
  split <;> simp [Chip.emit]

/-- RESULT as an entry holds it: 0 with the statuses 0x10 to 0x16, but where a descriptor states one (04 Table 4.17). -/
def entryResult (op : Instr) (status result : Nat) : Nat := if 0x10 ≤ status ∧ status ≤ 0x16 ∧ !resultKept op then 0 else result

/-- Every other status leaves RESULT as it is. -/
theorem entryResult_of_lt {op : Instr} {status result : Nat} (h : status < 0x10) : entryResult op status result = result := by
  unfold entryResult; rw [if_neg]; omega

/-- A descriptor in progress whose completion is not held back (04 R105) writes the entry of its header (04 R97). -/
theorem completeAt_out (r : Regs) (id status result t : Nat) (c : Chip) (j : Job) (hj : c.job id = some j) (hw : j.turn = none)
    (hd : j.drop = false) (hn : (j.h.ncos && status == St.ok) = false) (ho : (c.ring j.h.pf.val).dmaOk = true) :
    Out.completion j.h.pf.val j.cq ((c.ring j.h.pf.val).cqAt j.cq).tail
      (entryWords j.h status t (entryResult j.op status result) ((c.ring j.h.pf.val).cqAt j.cq).phase) ∈
        (completeAt r id status result t c).out := by
  unfold completeAt
  rw [hj]
  simp only [hw, hd, hn]
  exact postEntry_out r j.h j.cq status t _ { c with jobs := c.jobs.filter fun k => !(k.id == id) } ho

/-- Reserving a slot changes nothing of what lets a function send (04 R390). -/
@[simp] theorem newJob_dmaOk (r : Regs) (d : Desc) (h : Hdr) (op : Instr) (c : Chip) (pf : Nat) :
    ((newJob r d h op c).ring pf).dmaOk = (c.ring pf).dmaOk := by
  unfold newJob Chip.setRing Chip.ring
  simp only
  split <;> split <;> simp_all [Ring.dmaOk, Ring.setSq, Ring.setCq]

/-- The descriptor fetched in `s` writes its entry when it completes in a later chip that still holds it, its CQ and the function's enables
(04 R97). -/
theorem entryOf_complete {d : Desc} {h : Hdr} {s : State} (op : Instr) (a : Answers h s) (c : Chip)
    (hj : c.job s.chip.nextJob = (newJob s.regs d h op s.chip).job s.chip.nextJob)
    (hr : (c.ring h.pf.val).cqs = ((newJob s.regs d h op s.chip).ring h.pf.val).cqs)
    (hd : (c.ring h.pf.val).dmaOk = ((newJob s.regs d h op s.chip).ring h.pf.val).dmaOk) (st res : Nat)
    (hz : entryResult op st res = res) :
    entryOf s h st res ∈ (completeAt s.regs s.chip.nextJob st res s.chip.mt.val c).out := by
  rw [newJob_job] at hj
  rw [newJob_dmaOk] at hd
  have := completeAt_out s.regs s.chip.nextJob st res s.chip.mt.val c _ hj rfl rfl (by simp [a.2]) (by rw [hd]; exact a.1)
  have e : (c.ring h.pf.val).cqAt (sqCq s.regs h.pf.val h.sq.val) =
      ((newJob s.regs d h op s.chip).ring h.pf.val).cqAt (sqCq s.regs h.pf.val h.sq.val) := by
    unfold Ring.cqAt; rw [hr]
  simp only [e, newJob_ring, hz] at this
  simpa [entryOf] using this

end Sys2Proof.Machine
end

