-- ==== Sys2Proof/Laws/Event.lean ====
section
/-!
SUPPORT. Sys2Proof/Laws/Event.lean: what raising an event writes: a record at the tail of the EQ of each function to which its source is
assigned, where that EQ can take one (01 R26, 04 R84, R99).
-/

namespace Sys2Proof.Machine

open Sys2Proof.Safety

/-- The ring state of the other function. -/
def Other (pf : Nat) (c d : Chip) : Prop := ∀ q, (q = 0 ↔ ¬pf = 0) → d.ring q = c.ring q

theorem Other.refl (pf : Nat) (c : Chip) : Other pf c c := fun _ _ => rfl

theorem Other.trans {pf : Nat} {a b c : Chip} (h : Other pf a b) (k : Other pf b c) : Other pf a c := fun q hq => (k q hq).trans (h q hq)

theorem other_setRing (pf : Nat) (g : Ring) (c : Chip) : Other pf c (c.setRing pf g) := by
  intro q hq
  unfold Chip.setRing Chip.ring
  by_cases hp : pf = 0 <;> by_cases h0 : q = 0 <;> simp_all

theorem other_emit (pf : Nat) (o : Out) (c : Chip) : Other pf c (c.emit o) := fun _ _ => rfl

theorem other_msix (r : Regs) (pf vec : Nat) (c : Chip) : Other pf c (msix r pf vec c) := by
  unfold msix
  simp only
  split
  · exact other_emit _ _ _
  · exact other_setRing _ _ _

theorem other_writeRecord (r : Regs) (pf : Nat) (ev : Ev) (c : Chip) : Other pf c (writeRecord r pf ev c) := by
  have h : ∀ (b : Bool) (o : Out), Other pf c (if b = true then c.emit o else c) := by
    intro b o; split
    · exact other_emit _ _ _
    · exact Other.refl _ _
  unfold writeRecord
  simp only
  split
  · refine Other.trans ?_ (other_msix _ _ _ _)
    exact Other.trans (h _ _) (other_setRing _ _ _)
  · exact Other.trans (h _ _) (other_setRing _ _ _)

theorem other_drainCollapsed (r : Regs) (pf n : Nat) (c : Chip) : Other pf c (drainCollapsed r pf n c) := by
  induction n generalizing c with
  | zero => exact Other.refl _ _
  | succ n ih =>
    unfold drainCollapsed
    simp only
    split
    · exact Other.refl _ _
    · split
      · exact other_setRing _ _ _
      · split
        · refine Other.trans ?_ (ih _)
          exact Other.trans (other_setRing _ _ _) (other_writeRecord _ _ _ _)
        · exact Other.refl _ _

/-- Posting to the EQ of one function leaves the other function's rings alone. -/
theorem other_postEvent (r : Regs) (pf : Nat) (ev : Ev) (c : Chip) : Other pf c (postEvent r pf ev c) := by
  unfold postEvent
  simp only
  split
  · split <;> exact other_setRing _ _ _
  · split
    · exact Other.refl _ _
    · split
      · exact Other.trans (other_setRing _ _ _) (other_drainCollapsed _ _ _ _)
      · split
        · exact other_writeRecord _ _ _ _
        · exact Other.trans (other_writeRecord _ _ _ _) (Other.trans (other_setRing _ _ _) (other_setRing _ _ _))

/-- A record is written at the tail of an EQ that can take it (04 R88, R99). -/
theorem writeRecord_out (r : Regs) (pf : Nat) (ev : Ev) (c : Chip) (hd : (c.ring pf).dmaOk = true) :
    Out.record pf (c.ring pf).eq.tail (recordWords ev (recordWorld r pf ev.src) (c.ring pf).eq.phase (c.ring pf).eq.seq) ∈
      (writeRecord r pf ev c).out := by
  have h : ∀ (o : Out) (g : Ring), o ∈ ((c.emit o).setRing pf g).out := by
    intro o g; unfold Chip.setRing; split <;> simp [Chip.emit]
  unfold writeRecord
  simp only [hd, if_true]
  split
  · refine (posts_msix _ _ _ _).sent.subset ?_
    exact h _ _
  · exact h _ _

/-- An event posted to an EQ that can take it is written there (04 R84, R99). -/
theorem postEvent_out {s : State} (pf : Nat) (ev : Ev) (c : Chip) (hr : c.ring pf = s.chip.ring pf) (h : EqReady s pf ev.src) :
    recordOf s pf ev ∈ (postEvent s.regs pf ev c).out := by
  obtain ⟨h1, h2, h3, h4, h5⟩ := h
  have := writeRecord_out s.regs pf ev c (by rw [hr]; exact h5)
  unfold postEvent
  simp only [h1, h2, hr, h3, h4]
  simpa [recordOf, hr] using this

/-- The functions to which a source may be posted. -/
theorem srcFns_cases (r : Regs) (src : Nat) : srcFns r src = [] ∨ srcFns r src = [0] ∨ srcFns r src = [1] ∨ srcFns r src = [0, 1] := by
  unfold srcFns
  split
  · simp
  · split
    · simp
    · split
      · simp
      · split <;> simp

/-- Raising an event writes its record to every EQ that is to have it and can take it (01 R26, 04 R99). -/
theorem told_raise {s t : State} (src cls pay : Nat) (c : Chip) (hc : c.ctlRuns = true) (hn : neverRaised c src = false)
    (hr : ∀ pf, c.ring pf = s.chip.ring pf) (hm : c.mt.val = s.chip.mt.val) (ht : (raise s.regs src cls pay c).out <:+ t.chip.out) :
    Told s t src cls pay := by
  intro pf hp h
  refine ht.subset ?_
  unfold raise postAll
  simp only [hc, hn, hm, Bool.not_false, Bool.and_self, if_true]
  rcases srcFns_cases s.regs src with e | e | e | e <;> rw [e] at hp ⊢ <;> simp only [List.foldl]
  · simp at hp
  · simp only [List.mem_singleton] at hp; subst hp
    exact postEvent_out _ _ _ (hr _) h
  · simp only [List.mem_singleton] at hp; subst hp
    exact postEvent_out _ _ _ (hr _) h
  · simp only [List.mem_cons, List.not_mem_nil, or_false] at hp
    rcases hp with rfl | rfl
    · refine (posts_postEvent _ _ _ _).sent.subset ?_
      exact postEvent_out _ _ _ (hr _) h
    · refine postEvent_out _ _ _ ?_ h
      rw [other_postEvent s.regs 0 _ c 1 (by simp), hr]

end Sys2Proof.Machine
end

