-- ==== Sys2Proof/Laws/Store.lean ====
section
/-!
SUPPORT. Sys2Proof/Laws/Store.lean: the sparse stores: a word reads as what was written last, other words stay, and every operation keeps
the canonical form (16 R353).
-/

namespace Sys2Proof.Machine

-- Reading what was written ------------------------------------------------------------------------------------------------------------------

theorem findKey_filter {α : Type} (d : α) (p : Nat → Bool) (m : List (Nat × α)) (k : Nat) (h : p k = true) :
    findKey d (m.filter fun e => p e.1) k = findKey d m k := by
  induction m with
  | nil => rfl
  | cons e m ih =>
    obtain ⟨k', v⟩ := e
    by_cases hk : k' = k
    · subst hk; simp [h, findKey]
    · by_cases hp : p k' = true <;> simp_all [findKey]

theorem findKey_eraseKey {α : Type} (d : α) (m : List (Nat × α)) (k j : Nat) :
    findKey d (eraseKey k m) j = if j = k then d else findKey d m j := by
  unfold eraseKey
  by_cases h : j = k
  · subst h
    simp only [if_true]
    induction m with
    | nil => rfl
    | cons e m ih =>
      obtain ⟨k', v⟩ := e
      by_cases hk : k' = j <;> simp_all [findKey]
  · simp only [h, if_false]
    exact findKey_filter d (fun i => !(i == k)) m j (by simp [h])

theorem findKey_insertKey {α : Type} (d : α) (m : List (Nat × α)) (k j : Nat) (v : α) (h : ∀ e ∈ m, e.1 ≠ k) :
    findKey d (insertKey k v m) j = if j = k then v else findKey d m j := by
  induction m with
  | nil =>
    by_cases hj : j = k
    · subst hj; simp [insertKey, findKey]
    · have : ¬ k = j := fun e => hj e.symm
      simp [insertKey, findKey, hj, this]
  | cons e m ih =>
    obtain ⟨k', v'⟩ := e
    have hk : k' ≠ k := h (k', v') (by simp)
    have ih := ih fun e he => h e (List.mem_cons_of_mem _ he)
    unfold insertKey
    by_cases hlt : k < k'
    · by_cases hj : j = k
      · subst hj; simp [hlt, findKey]
      · have : ¬ k = j := fun e => hj e.symm
        simp [hlt, findKey, hj, this]
    · by_cases hj : k' = j
      · subst hj; simp [hlt, findKey, hk]
      · simp [hlt, findKey, hj, ih]

/-- A store reads as what was written at the key written, and as before elsewhere. -/
theorem findKey_writeKey {α : Type} [DecidableEq α] (d : α) (m : List (Nat × α)) (k j : Nat) (v : α) :
    findKey d (writeKey d m k v) j = if j = k then v else findKey d m j := by
  unfold writeKey
  by_cases hv : v = d
  · by_cases hj : j = k <;> simp [hv, findKey_eraseKey, hj]
  · have : ∀ e ∈ eraseKey k m, e.1 ≠ k := by
      intro e he; simp only [eraseKey, List.mem_filter] at he; simpa using he.2
    simp only [hv, if_false]
    rw [findKey_insertKey _ _ _ _ _ this]
    by_cases hj : j = k <;> simp [hj, findKey_eraseKey]

theorem findKey_writeKey_other {α : Type} [DecidableEq α] (d d' : α) (m : List (Nat × α)) (k j : Nat) (v : α) (h : j ≠ k) :
    findKey d' (writeKey d m k v) j = findKey d' m j := by
  unfold writeKey
  have : ∀ e ∈ eraseKey k m, e.1 ≠ k := by
    intro e he; simp only [eraseKey, List.mem_filter] at he; simpa using he.2
  split
  · simp [findKey_eraseKey, h]
  · rw [findKey_insertKey _ _ _ _ _ this]; simp [h, findKey_eraseKey]

/-- The register written reads as the value, 32 bits of it. -/
@[simp] theorem RegFile.rd_wr_same (f : RegFile) (off v : Nat) : (f.wr off v).rd off = v % 2 ^ 32 := by
  unfold RegFile.rd RegFile.wr
  rw [findKey_writeKey]; simp

/-- The other registers read as before. -/
theorem RegFile.rd_wr_other (f : RegFile) (off k v : Nat) (h : k ≠ off) : (f.wr off v).rd k = f.rd k := by
  unfold RegFile.rd RegFile.wr
  rw [findKey_writeKey_other _ _ _ _ _ _ h]

/-- A register whose key a filter keeps reads as before. -/
theorem RegFile.rd_filter (f : RegFile) (p : Nat → Bool) (k : Nat) (h : p k = true) : RegFile.rd (f.filter fun e => p e.1) k = f.rd k := by
  unfold RegFile.rd; rw [findKey_filter _ _ _ _ h]

@[simp] theorem State.wrCtl_pending (off v : Nat) (s : State) : (s.wrCtl off v).pending = s.pending := rfl
@[simp] theorem State.wrCtl_mram (off v : Nat) (s : State) : (s.wrCtl off v).mram = s.mram := rfl
@[simp] theorem State.wrCtl_chip (off v : Nat) (s : State) : (s.wrCtl off v).chip = s.chip := rfl
@[simp] theorem State.wrCtl_halt (off v : Nat) (s : State) : (s.wrCtl off v).regs.halt = s.regs.halt := rfl
@[simp] theorem State.wrCtl_ctl (off v : Nat) (s : State) : (s.wrCtl off v).regs.ctl = s.regs.ctl.wr off v := rfl

/-- CTL's register reads as the value written to it. -/
@[simp] theorem State.wrCtl_same (off v : Nat) (s : State) : (s.wrCtl off v).regs.c off = v % 2 ^ 32 := RegFile.rd_wr_same _ _ _

/-- CTL's other registers read as before. -/
theorem State.wrCtl_other (off v k : Nat) (s : State) (h : k ≠ off) : (s.wrCtl off v).regs.c k = s.regs.c k := RegFile.rd_wr_other _ _ _ _ h

/-- A byte of a byte memory. -/
theorem ByteMem.read_write (m : ByteMem) (a j : Nat) (v : Byte) : (m.write a v).read j = if j = a then v else m.read j :=
  findKey_writeKey _ _ _ _ _

-- The canonical form ------------------------------------------------------------------------------------------------------------------------

/-- The canonical form, as a condition on neighbours. -/
theorem canonical_cons {α : Type} [DecidableEq α] (d : Nat → α) (k : Nat) (v : α) (m : List (Nat × α)) :
    canonical d ((k, v) :: m) = true ↔ v ≠ d k ∧ (∀ e ∈ m, k < e.1) ∧ canonical d m = true := by
  induction m generalizing k v with
  | nil => simp [canonical]
  | cons e m ih =>
    obtain ⟨k', v'⟩ := e
    simp only [canonical, Bool.and_eq_true, Bool.not_eq_true', decide_eq_true_eq, decide_eq_false_iff_not]
    rw [ih k' v']
    constructor
    · rintro ⟨⟨h1, h2⟩, h3, h4, h5⟩
      refine ⟨h1, ?_, h3, h4, h5⟩
      intro e he
      rcases List.mem_cons.mp he with rfl | he
      · exact h2
      · exact Nat.lt_trans h2 (h4 e he)
    · rintro ⟨h1, h2, h3⟩
      exact ⟨⟨h1, h2 (k', v') (by simp)⟩, h3⟩

theorem canonical_filter {α : Type} [DecidableEq α] (d : Nat → α) (p : Nat × α → Bool) (m : List (Nat × α)) (h : canonical d m = true) :
    canonical d (m.filter p) = true := by
  induction m with
  | nil => exact h
  | cons e m ih =>
    obtain ⟨k, v⟩ := e
    rw [canonical_cons] at h
    by_cases hp : p (k, v) = true
    · simp only [List.filter_cons, hp, if_true]
      rw [canonical_cons]
      exact ⟨h.1, fun e he => h.2.1 e (List.mem_filter.mp he).1, ih h.2.2⟩
    · simp only [List.filter_cons, hp]
      exact ih h.2.2

theorem mem_insertKey {α : Type} (k : Nat) (v : α) (m : List (Nat × α)) (e : Nat × α) :
    e ∈ insertKey k v m ↔ e = (k, v) ∨ e ∈ m := by
  induction m with
  | nil => simp [insertKey]
  | cons x m ih =>
    unfold insertKey
    split <;> simp_all
    · constructor <;> (intro h; rcases h with h | h | h <;> simp_all)

theorem canonical_insertKey {α : Type} [DecidableEq α] (d : Nat → α) (k : Nat) (v : α) (m : List (Nat × α)) (hv : v ≠ d k)
    (hk : ∀ e ∈ m, e.1 ≠ k) (h : canonical d m = true) : canonical d (insertKey k v m) = true := by
  induction m with
  | nil => simp [insertKey, canonical, hv]
  | cons e m ih =>
    obtain ⟨k', v'⟩ := e
    have h' := (canonical_cons d k' v' m).mp h
    have hk' : k' ≠ k := hk (k', v') (by simp)
    unfold insertKey
    split
    · rename_i hlt
      rw [canonical_cons]
      refine ⟨hv, ?_, h⟩
      intro e he
      rcases List.mem_cons.mp he with rfl | he
      · exact hlt
      · exact Nat.lt_trans hlt (h'.2.1 e he)
    · rename_i hlt
      rw [canonical_cons]
      refine ⟨h'.1, ?_, ih (fun e he => hk e (List.mem_cons_of_mem _ he)) h'.2.2⟩
      intro e he
      rcases (mem_insertKey k v m e).mp he with rfl | he
      · simp only; omega
      · exact h'.2.1 e he

/-- A write keeps the canonical form. -/
theorem canonical_writeKey {α : Type} [DecidableEq α] (d : Nat → α) (m : List (Nat × α)) (k : Nat) (v : α) (h : canonical d m = true) :
    canonical d (writeKey (d k) m k v) = true := by
  unfold writeKey
  have he := canonical_filter d (fun e => !(e.1 == k)) m h
  split
  · exact he
  · rename_i hv
    refine canonical_insertKey d k v _ hv ?_ he
    intro e he; simp only [eraseKey, List.mem_filter] at he; simpa using he.2

theorem RegFile.wf_wr (f : RegFile) (off v : Nat) (h : f.wf = true) : (f.wr off v).wf = true := canonical_writeKey _ _ _ _ h

theorem RegFile.wf_filter (f : RegFile) (p : Nat × Word → Bool) (h : f.wf = true) : RegFile.wf (f.filter p) = true := canonical_filter _ _ _ h

theorem RegFile.wf_clear (f : RegFile) (lo hi : Nat) (h : f.wf = true) : (f.clear lo hi).wf = true := canonical_filter _ _ _ h

theorem ByteMem.wf_write (m : ByteMem) (a : Nat) (v : Byte) (h : m.wf = true) : (m.write a v).wf = true :=
  canonical_writeKey (fun _ => ByteMem.blank) m a v h

theorem ByteMem.wf_writeList (m : ByteMem) (a : Nat) (l : List Nat) (h : m.wf = true) : (m.writeList a l).wf = true := by
  induction l generalizing m a with
  | nil => exact h
  | cons b l ih => exact ih _ _ (ByteMem.wf_write _ _ _ h)

end Sys2Proof.Machine
end

