-- ==== Sys2Proof/Laws/Yard.lean ====
section
/-!
SUPPORT. Sys2Proof/Laws/Yard.lean: a descriptor's command at a yard that has executed every command before it: its effect takes place on a
chip that differs from the one at fetch only in what waits and what was sent (01 R17, log entry 7).
-/

namespace Sys2Proof.Machine

open Sys2Proof.Safety

/-- The chip on which the effect of a descriptor's command takes place at a yard that may execute it at once (01 R17). -/
def yardStart (y id : Nat) (k : Option Nat) (c : Chip) : Chip :=
  let sent := sendFrame y 0 0 (some (id, k)) true c
  if k.isSome then sent else updJob id (fun j => { j with unack := j.unack ++ [(y, (c.yard y).nextSeq)] }) sent

/-- A yard with no command on its way executes the next one at once. -/
theorem yardIdle_of_quiet {c : Chip} {y : Nat} (h : (c.yard y).frames = []) : yardIdle c y = true := by
  unfold yardIdle; simp [h]

/-- A command executes at once at a yard that may do so. -/
theorem yardCommand_idle {y : Nat} {s : State} (id : Nat) (k : Option Nat) (effect : State → State) (h : yardIdle s.chip y = true) :
    yardCommand y id k effect s = effect (s.onChip fun _ c => yardStart y id k c) := by
  unfold yardCommand yardStart
  simp only [h, if_true]

/-- Nothing but what waits and what was sent differs then. -/
theorem tells_yardStart (y id : Nat) (k : Option Nat) (c : Chip) : Tells c (yardStart y id k c) := by
  unfold yardStart
  have h := tells_sendFrame y 0 0 (some (id, k)) true c
  split
  · exact h
  · exact h.trans (ends_updJob _ _ _).tells

/-- A result that a yard reports waits for its next status mirror (01 R19). -/
theorem yardResult_mem (y id status result : Nat) (c : Chip) :
    { job := id, st := status, res := result, t := c.mt.val } ∈ ((yardResult y id status result c).yard y).results := by
  unfold yardResult; simp

/-- An event that a yard's halter can report waits for its next status mirror (01 R19). -/
theorem yardEventAt_mem {src y : Nat} (cls pay t : Nat) (c : Chip) (hy : srcYard src = some y) (ha : (c.yard y).ctlAbsent = false)
    (hp : c.parked = false) : { src := src, cls := cls, pay := pay, t := t } ∈ ((yardEventAt src cls pay t c).yard y).evq := by
  unfold yardEventAt
  simp [hy, ha, hp]

end Sys2Proof.Machine
end

