-- ==== Sys2Proof/Tests/Slice0.lean ====
section
/-!
SUPPORT. Sys2Proof/Tests/Slice0.lean: the smoke tests of the checks of form, tests from the spec's own worked figures, and states and operands
that meet the hypotheses of every clause of every statement, so that no statement is empty.
-/

set_option Elab.async false

namespace Sys2Proof.Tests

open Sys2Proof Sys2Proof.Machine Sys2Proof.Safety

-- Checks of form -----------------------------------------------------------------------------------------------------------

/-- AT_TIME has 64 bits (04 Table 4.13). -/
theorem test_malformed_at_time :
    (Instr.nop { at_ := some (2 ^ 64) }).malformed = some .atTime ∧ (Instr.nop { at_ := some (2 ^ 64 - 1) }).wf = true := by decide

/-- A host address has 64 bits (04 R89). -/
theorem test_malformed_address :
    (Instr.ageReport {} (2 ^ 64)).malformed = some .address ∧ (Instr.ageReport {} (2 ^ 64 - 1)).wf = true := by decide

/-- A buffer holds bytes. -/
theorem test_malformed_byte :
    (Instr.imgWrite {} 0 1 0 [256]).malformed = some .byte ∧ (Instr.imgWrite {} 0 1 0 [255]).wf = true := by decide

/-- A conversion gives eight inputs (10 R244), an image block the bytes of its length (14 R327). -/
theorem test_malformed_length :
    (Instr.ainConversion [0]).malformed = some .length ∧ (Instr.imgWrite {} 0 2 0 [1]).malformed = some .length ∧
    (Instr.ainConversion [0, 1, 2, 3, 4, 5, 6, 7]).wf = true := by decide

/-- A conversion's value has 12 bits (10 R244), a MAC address 48 (12 R282). -/
theorem test_malformed_field :
    (Instr.ainConversion [4096, 0, 0, 0, 0, 0, 0, 0]).malformed = some .field ∧ (Instr.addressAgeOut (2 ^ 48) 1).malformed = some .field ∧
    (Instr.addressAgeOut (2 ^ 48 - 1) 1).wf = true := by decide

-- Figures of the spec ------------------------------------------------------------------------------------------------------

/-- The examples of 16: STALL_PROT of stall 45 lies at 0x12D40, NM_FEED of NM unit 10 at 0x3B148. -/
theorem test_register_addresses : Reg.STALL_PROT 45 = 0x12D40 ∧ Reg.NM_FEED 10 = 0x3B148 := by decide

/-- The example of 05: stall 11 (row A1) with profile LAMP and ILIM 8 A has the limit 30 A at 0, 21.3 A at 10 ms and 8 A from 60 ms. -/
theorem test_limit_of_lamp_profile :
    let s : State := { regs := { halt := [(Reg.STALL_CFG 11, 80)] } }
    let a : Stall := { st := .inrush, curve := fixedCurve 1, ceilCap := 300, limCap := 1023 }
    limitAt s.regs a 11 0 = 30000 ∧ limitAt s.regs a 11 10000000 = 21333 ∧ limitAt s.regs a 11 60000000 = 8000 := by decide +kernel

/-- 15 R341: a turn-off below one hundredth of E_AR costs one unit, one of E_AR ten, and more than twice E_AR no more than nineteen. -/
theorem test_wear_units : wearUnits 9 1000 = 1 ∧ wearUnits 1000 1000 = 10 ∧ wearUnits 5000 1000 = 19 := by decide

/-- FIPS 180-4: the digest of "abc". -/
theorem test_sha256 : sha256 [0x61, 0x62, 0x63] = 0xba7816bf8f01cfea414140de5dae2223b00361a396177a9cb410ff61f20015ad := by decide +kernel

/-- SP 800-38B: the CMAC of the empty message under the example key. -/
theorem test_cmac :
    aesCmac (beBytes 16 0x2b7e151628aed2a6abf7158809cf4f3c) [] = beBytes 16 0xbb1d6929e95937287fa37d129b756746 := by decide +kernel

/-- SP 800-38A: the first block of the ECB example, decrypted. -/
theorem test_aes_decrypt :
    aesDecrypt (beBytes 16 0x2b7e151628aed2a6abf7158809cf4f3c) (beBytes 16 0x3ad77bb40d7a3660a89ecaf32466ef97) =
      beBytes 16 0x6bc1bee22e409f96e93d7e117393172a := by decide +kernel

/-- 15 R340: three equal results of three RUN periods agree. -/
theorem test_agreeing_results (d : Int) : agreed 20 (addResult d 4 [(0, 4), (d, 3), (d, 2)]) = true := by simp [agreed, addResult]

/-- No word spells a command: the table gives its rows no bits. -/
theorem test_no_word_spells : decodeTableWord 32 0 = none := rfl

/-- With nothing waiting 25 ns pass (log entry 2). -/
theorem test_idle_step : ∃ t, core.step core.reset = .next t ∧ t = State.reset.onChip idleTick := ⟨_, rfl, rfl⟩

-- States that meet the hypotheses of the statements ------------------------------------------------------------------------

/-- The registers of a running module, in the order of their keys: rings of 16 entries on queue 0 of both functions, two host windows, every
domain on. -/
def upRegs : RegFile :=
  [(Reg.RING_CTRL 0, 0x03E80001), (Reg.EQ_CFG 0, 0x41), (Reg.SQ_CFG 0 0, 0x41), (Reg.CQ_CFG 0 0, 0x43), (Reg.RING_CTRL 1, 0x03E80001),
   (Reg.EQ_CFG 1, 0x41), (Reg.SQ_CFG 1 0, 0x41), (Reg.CQ_CFG 1 0, 0x43),
   (Reg.WIN_BASE_LO 0, 7), (Reg.WIN_BASE_HI 0, 1), (Reg.WIN_LIM_LO 0, 0xFFFFF000), (Reg.WIN_LIM_HI 0, 1), (Reg.WIN_BASE_LO 16, 7),
   (Reg.WIN_BASE_HI 16, 2), (Reg.WIN_LIM_LO 16, 0xFFFFF000), (Reg.WIN_LIM_HI 16, 2), (Reg.POWER_CFG, 0x1F1F)]

/-- A unit of the non-secure world, as 03 R70 keeps it: the world assignment table need not be searched. -/
def own (blk unit : Nat) (s : State) : State :=
  { s with regs := { s.regs with ctl := (ownKey blk unit, 1) :: s.regs.ctl } }

/-- Registers written. -/
def setC (l : List (Nat × Nat)) (s : State) : State :=
  { s with regs := { s.regs with ctl := l.foldl (fun f e => f.wr e.1 e.2) s.regs.ctl } }

/-- Registers written in the halters. -/
def setH (l : List (Nat × Nat)) (s : State) : State :=
  { s with regs := { s.regs with halt := l.foldl (fun f e => f.wr e.1 e.2) s.regs.halt } }

/-- A state with its chip changed. -/
def on (s : State) (f : Chip → Chip) : State := { s with chip := f s.chip }

/-- A state with its system part changed. -/
def onSys (s : State) (f : Sys → Sys) : State := on s fun c => { c with sys := f c.sys }

/-- A running module: RUN, four yards adopted, both functions with rings and a host, nothing commanded yet. -/
def up : State :=
  let ring : Ring := { supervised := true, bme := true, msixEn := true, hostUp := true, cs := { mem := true } }
  let yard : Yard := { supplied := true, wdArmed := true, adopted := true }
  let feed : Feed := { mv := 13500, band := 3 }
  { State.reset with regs := { ctl := upRegs }, chip := { State.reset.chip with
    now := 5000000, mt := { val := 5000000, src := .ctl }, ring0 := ring, ring1 := ring
    sys := { power := .run, ctl := .up, aon := true, prereg := true, xtal40 := true, xtal32 := true, link := true, ready := true, lock := true }
    yards := [(0, yard), (1, yard), (2, yard), (3, yard)]
    feeds := [(0, feed), (1, feed), (2, feed), (3, { mv := 48000, band := 3 }), (4, feed)] } }

/-- The state a command answers. -/
def nextOf (o : Host.Outcome State Fault Refusal) : State := match o with
  | .next t => t
  | _ => {}

def down : State := on (onSys up fun y => { y with power := .standby, ctl := .start, lock := true }) fun c => { c with yards := c.yards.map fun e => (e.1, { e.2 with adopted := false }) }
def st (u : Nat) (x : Stall) (s : State) : State := on s fun c => c.setStall u x
def run6 : Stall := { st := .on, req := true, out := true, episode := true, wasOn := true, limNow := 10000 }
def vv (n : Nat) (x : Valve) (s : State) : State := setH [(Reg.VALVE_POLICY n, 0x2001)] (on s fun c => c.setValve n x)
def hold7 : Valve := { phase := .hold, ipk := 300, ihold := 100, holdMs := 50, who := some (9, none), reached := true, actT := 1000 }
def lp (n : Nat) (x : Loop) (s : State) : State := setH [(Reg.LOOP_POLICY n, 0x2001)] (on s fun c => c.setLoop n x)
def mov8 : Loop := { st := .moving, mode := 2, target := 0x8000, duty := 0x7000, dutyOut := 0x7000, job := some 9, sampT := 4900000 }
def sk (n : Nat) (x : Sink) (s : State) : State := setH [(Reg.SINK_CFG n, 0xF)] (on s fun c => c.setSink n x)
def pt (n : Nat) (cfg : Nat) (q : Port) (s : State) : State := setC [(Reg.PORT_CFG n, cfg)] (on s fun c => c.setPort n { q with cfg := if q.cfg = 0 then cfg else q.cfg })
def ready10 : Port := { valid := true, table_ := [(0x00001064, 0), (0x00000032, 0)] }
def lf10 : Instr := .lampFrame {} 0 0 0x100000000 [1, 2]
def job10 (o : Instr) (s : State) : State := on s fun c => { c with jobs := [{ id := 9, op := o }] }
def w10 (l : List Nat) : List (Nat × Nat) := l.map fun w => (w, crc8 32 w)
def dd (n : Nat) (x : DOut) (s : State) : State := on s fun c => c.setDout n x
def sg (n : Nat) (x : Seg) (s : State) : State := on s fun c => c.setSeg n x
def jb (s : State) : State := on s fun c => { c with jobs := [{ id := 9 }] }
def f0 : NetFrm := { id := 0x123, data := [1, 2, 3, 4] }
def jn (s : State) : State := on s fun c => { c with jobs := [{ id := 9, op := .netTx {} 0 true 0 20 0x100000000 f0 }] }
def eth (d a : Nat) : NetFrm := { data := [0, 0, 0, 0, 0, d, 0, 0, 0, 0, 0, a, 8, 0, 1, 2] }
def ethV (d a : Nat) : NetFrm := { data := [0, 0, 0, 0, 0, d, 0, 0, 0, 0, 0, a, 0x81, 0, 0x60, 5, 8, 0, 1, 2] }
def ethM : NetFrm := { data := [1, 0, 0, 0, 0, 7, 0, 0, 0, 0, 0, 7, 0x81, 0, 0x60, 5, 8, 0, 1, 2] }
def ac (f : Acc → Acc) (s : State) : State := on s fun c => { c with acc := f c.acc }
def kt : List Nat := List.replicate 16 7
def tok (a : Acc) : Acc := { a with tokens := [(3, { tid := 0x55, fnMask := 0xFF, ctr := 1000, key := kt })], used := 8, count := 1, prov := true, vid := 77 }
def rg (n : Nat) : Ranged := { slot := n, good := [(0, 100), (0, 102)] }
def rngC : List (Nat × Nat) := [(Reg.ANCHOR_ID 0, 1), (Reg.ACC_CFG 0, 0x00640104), (Reg.ACC_CFG 7, 0x00660104)]
def addBuf : List Nat := leBytes 4 0x99 ++ [3, 0, 0, 0] ++ leBytes 4 500 ++ [0, 0, 0, 0] ++ List.replicate 16 5 ++ leBytes 8 0
def pl (p : Poll) (s : State) : State := ac (fun a => { tok a with poll := some p }) s
def rx : Poll := { job := 9, fn := 0, set := { cfg := 0x00640104, anchor := [(1, 0)] }, rounds := 1, nonce := 12345, roundT := 1000 }
def co : Poll := { job := 9, fn := 6, set := { cfg := 3, tpc := 50 }, nonce := 777, coil := true }
def rm (p : Poll) (cnt : Nat) : Nat := aesCmac64 kt (replyMsg 77 p.set.kind p 0x55 cnt 1 p.rounds)
def cm (cnt : Nat) : Nat := aesCmac64 kt (coilMsg 77 777 0x55 cnt)
def km (cnt cmd : Nat) : Nat := aesCmac64 kt (rkeMsg 77 0x55 cnt cmd)
def rcrc (tid cnt slot round mac : Nat) : Fin 65536 := Fin.ofNat 65536 (replyCrc tid cnt slot round mac)
def ccrc (cnt mac : Nat) : Fin 65536 := Fin.ofNat 65536 (coilCrc 0x55 cnt mac)
def kcrc (cnt cmd mac : Nat) : Fin 65536 := Fin.ofNat 65536 (rkeCrc 0x55 cnt cmd mac)
def sA : AccSet := { cfg := 0x00640104, anchor := [(1, 0)] }
def rg2 : Ranged := { slot := 3, good := [(0, 100), (0, 102), (0, 98)], tried := [0, 0, 0] }
def rg3 : Ranged := { slot := 3, good := [(0, 100), (0, 102)], tried := [0, 0, 0] }
def rg4 : Ranged := { slot := 3, good := [(0, 200), (0, 102)], tried := [0, 0, 0] }
def po (p : Poll) (fns : UMap AccFn) : State := jb (ac (fun a => { a with poll := some p, fns := fns }) up)
def px (p : Poll) (x : Nat) : State := pl p (setC [(x, 1)] up)
def hdr512 : List Nat := leBytes 4 0x5A394F50 ++ leBytes 2 1 ++ [0, 0] ++ leBytes 4 512 ++ [0, 0, 0, 0] ++ leBytes 2 3 ++ leBytes 2 1 ++ leBytes 4 1 ++ leBytes 4 0x123456 ++ List.replicate 484 0
def upd (f : Upd → Upd) (s : State) : State := on s fun c => { c with upd := f c.upd }
def jr (f : Journal → Journal) (s : State) : State := upd (fun u => { u with jr := f u.jr }) s
def sh : Hdr := { pf := 1, world := true }
def mm (s : State) : State := { s with mram := { exec := ByteMem.writeList [] 0 [1, 2, 3, 4], stage := ByteMem.writeList [] 65530 [7, 8, 9, 10, 11, 12, 13, 14], scratch := ByteMem.writeList [] 0 [5, 6] } }
def signed : State := on { up with mram := { up.mram with stage := ByteMem.writeList [] 0 (leBytes 4 0x5A394F50 ++ [1, 0, 0, 2, 0, 2, 0, 0, 0, 0, 0, 0, 3, 0, 1, 0, 1, 0x10, 0, 0] ++ leBytes 4 0x123456 ++ List.replicate 356 0 ++ beBytes 32 0x99e07e23edf2a9d328d8d13ce1e369e3f40c4150764aa2c56e6728507f546338 ++ beBytes 32 0x5ecbe4d1a6330a44c8f7ef951d4bf165e6c6b721efada985fb41661bc6e7fd6c ++ beBytes 32 0x8e46573d0763ab0c55d6b535968bc9d43c557c0e491a39ca2b0a87aa615785be ++ List.replicate 32 0) } } fun c => { c with upd := { c.upd with keys := [(1, { hash := 0xb3d283416a8e6401d39a988f2e469a12968dc63c4387a3f2c67338ad14a1e6d0, prog := true })] } }
def sw (f : Journal → Journal) : State := mm (jr f (onSys up fun y => { y with ctl := .swap }))
def rn (n : Nat) (f : Journal → Journal) : State := jr f (on up fun c => { c with now := n * 1000000000 + 5, mt := { c.mt with val := 5000000 } })
def ag (f : Age → Age) (s : State) : State := on s fun c => { c with age := f c.age }
def ro (i : Nat) (f : Age → Age) : State := ag f (on up fun c => { c.setStall i { st := .on, out := true, iMa := 40000 } with now := 3600000000000 })
def sw_16 (f : Age → Age) : State := ag f (on up fun c => { (c.setValve 0 { iMa := 9000 }).setLoop 9 { iMa := -1000 } with now := 3600000000000 })

/-- The hypotheses of `Obligations.StepRunsTheFront` can be met. -/
theorem test_stepRunsTheFront :
    (∃ (c : Instr) (rest : List Instr) (s : State), s.pending = c :: rest) ∧
    (∃ (s : State), s.pending = []) :=
  ⟨⟨.nop {}, [.brownOut], up.setPending [.nop {}, .brownOut], by decide +kernel⟩,
    ⟨up, by decide +kernel⟩⟩

/-- The hypotheses of `Obligations.StepKeepsStoresCanonical` can be met. -/
theorem test_stepKeepsStoresCanonical :
    (∃ (s : State) (t : State), StoresWf s ∧ step s = .next t) :=
  ⟨up, nextOf (step (up : State)), by
      and_intros <;> first | decide +kernel | rfl⟩

/-- The hypotheses of `Obligations.SystemDescriptorsAndWaits` can be met (its clauses on this subject). -/
theorem test_systemDescriptors :
    (∃ (h : Hdr) (s : State), Admitted (sysDesc 0x00) h s ∧ Answers h s) ∧
    (∃ (h : Hdr) (s : State), Admitted (sysDesc 0x01) { h with fence := true } s ∧ Answers h s) ∧
    (∃ (h : Hdr) (s : State), Admitted (sysDesc 0x02) h s ∧ Answers h s) ∧
    (∃ (h : Hdr) (s : State), Admitted (sysDesc 0x03) h s ∧ Answers h s) :=
  ⟨⟨{}, up, by decide +kernel⟩,
    ⟨{}, up, by decide +kernel⟩,
    ⟨{}, up, by decide +kernel⟩,
    ⟨{}, up, by decide +kernel⟩⟩

/-- The hypotheses of `Obligations.SystemDescriptorsAndWaits` can be met (its clauses on this subject). -/
theorem test_noEntryOnSuccess :
    (∃ (h : Hdr) (s : State), Admitted (sysDesc 0x00) h s ∧ h.ncos = true) :=
  ⟨{ ncos := true }, up, by decide +kernel⟩

/-- The hypotheses of `Obligations.ChecksRefuse` can be met. -/
theorem test_checksRefuse :
    (∃ (c : Instr) (h : Hdr) (s : State) (st : Nat), c.hdr? = some h ∧ s.chip.ctlRuns = true ∧ fenceHolds s.chip { h with fence := true } =
      false ∧ recoveryRefuses s.chip h (descOf s c).opc = false ∧ NoneHeld s ∧ (s.chip.ring h.pf.val).dmaOk = true ∧ firstFail (checks14
      s.regs s.chip (descOf s c) h) = some st ∧ st = St.world) :=
  ⟨.imgConfirm {}, {}, up, St.world, by decide +kernel⟩

/-- The hypotheses of `Obligations.SystemDescriptorsAndWaits` can be met (its clauses on this subject). -/
theorem test_fenceHolds :
    (∃ (h : Hdr) (s : State), s.chip.ctlRuns = true ∧ fenceHolds s.chip { h with fence := true } = true) :=
  ⟨{}, on up fun c => { c with jobs := [{}] }, by decide +kernel⟩

/-- The hypotheses of `Obligations.SystemDescriptorsAndWaits` can be met (its clauses on this subject). -/
theorem test_atTimeWaits :
    (∃ (h : Hdr) (s : State) (at_ : Nat), Admitted (sysDesc 0x00) { h with at_ := none } s ∧ s.chip.mt.val < at_) ∧
    (∃ (h : Hdr) (s : State) (j : Job), s.chip.ctlRuns = true ∧ s.chip.sys.halted = false ∧ s.chip.jobs = [j] ∧ j.op = .nop h ∧ j.h = h ∧
      j.waiting = true ∧ j.drop = false ∧ j.blk = 0 ∧ h.at_.getD 0 - j.lead ≤ s.chip.mt.val ∧ h.ncos = false ∧ (s.chip.ring h.pf.val).dmaOk
      = true ∧ j.held = false) :=
  ⟨⟨{}, up, 5000001, by decide +kernel⟩,
    ⟨{ at_ := some 5000000 }, on up fun c =>
      { c with jobs := [{ id := 3, h := { at_ := some 5000000 }, op := .nop { at_ := some 5000000 }, waiting := true }] },
      { id := 3, h := { at_ := some 5000000 }, op := .nop { at_ := some 5000000 }, waiting := true }, by decide +kernel⟩⟩

/-- The hypotheses of `Obligations.PowerStatesAndParkFrames` can be met (its clauses on this subject). -/
theorem test_powerStateRequests :
    (∃ (h : Hdr) (s : State), Admitted (powerDesc 0) h s ∧ Answers h s ∧ NoneHeld s ∧ s.chip.sys.ctl = .up ∧ s.chip.sys.sleepTo = none ∧
      s.chip.sys.power = .standby ∧ ((∀ n, n < 5 → bit (s.regs.c Reg.POWER_CFG) n = true → bit (s.regs.c Reg.POWER_CFG) (8 + n) = true)) ∧
      ((∀ n, n < 18 → (s.chip.seg n).st ≠ .validating))) ∧
    (∃ (h : Hdr) (s : State), Admitted (powerDesc 1) h s ∧ Answers h s ∧ NoneHeld s ∧ s.chip.sys.ctl = .up ∧ s.chip.sys.sleepTo = none ∧
      s.chip.sys.power = .run ∧ s.chip.upd.jr.st ≠ 4 ∧ ((∀ n, n < 5 → bit (s.regs.c Reg.POWER_CFG) (8 + n) = true → bit (s.regs.c
      Reg.POWER_CFG) n = true)) ∧ ((∀ n, n < 18 → (s.chip.seg n).st ≠ .validating))) ∧
    (∃ (h : Hdr) (s : State) (target : Fin 8), target.val < 2 ∧ Admitted (powerDesc target.val) h s ∧ Answers h s ∧ NoneHeld s ∧
      s.chip.sys.ctl = .up ∧ s.chip.sys.sleepTo = none ∧ s.chip.sys.power = (if target.val = 0 then Power.run else Power.standby)) ∧
    (∃ (h : Hdr) (s : State) (target : Fin 8), (target.val = 2 ∨ target.val = 3) ∧ Admitted (powerDesc target.val) h s ∧ Answers h s ∧
      NoneHeld s ∧ s.chip.sys.ctl = .up ∧ s.chip.sys.sleepTo = none ∧ sleepBusy s.chip = true) ∧
    (∃ (h : Hdr) (s : State) (target : Fin 8), (target.val = 2 ∨ target.val = 3) ∧ Admitted (powerDesc target.val) h s ∧ NoneHeld s ∧
      s.chip.sys.ctl = .up ∧ s.chip.sys.sleepTo = none ∧ sleepBusy s.chip = false ∧ s.chip.cross = [] ∧ s.chip.age.tests = [] ∧
      s.chip.timers = [] ∧ s.chip.sys.wakePin = false ∧ ((∃ y ∈ sleepYards s.chip, (s.chip.yard y).wdArmed = true))) ∧
    (∃ (h : Hdr) (s : State) (target : Fin 8), target.val < 2 ∧ Admitted (powerDesc target.val) h s ∧ NoneHeld s ∧ s.chip.sys.ctl = .up ∧
      s.chip.sys.sleepTo = none ∧ s.chip.sys.power = (if target.val = 0 then Power.standby else Power.run)) ∧
    (∃ (h : Hdr) (s : State) (target : Fin 8), (target.val = 2 ∨ target.val = 3) ∧ Admitted (powerDesc target.val) h s ∧ NoneHeld s ∧
      s.chip.sys.ctl = .up ∧ s.chip.sys.sleepTo = none ∧ sleepBusy s.chip = false) :=
  ⟨⟨{}, onSys up fun y => { y with power := .standby }, by decide +kernel⟩,
    ⟨{}, up, by decide +kernel⟩,
    ⟨{}, up, 0, by decide +kernel⟩,
    ⟨{}, on up fun c => c.setValve 0 { phase := .hold }, 2, by decide +kernel⟩,
    ⟨{}, up, 3, by decide +kernel⟩,
    ⟨{}, onSys (setC [(Reg.POWER_CFG, 0x191F)] up) fun y => { y with power := .standby }, 0, by decide +kernel⟩,
    ⟨{}, up, 2, by decide +kernel⟩⟩

/-- The hypotheses of `Obligations.PowerStatesAndParkFrames` can be met (its clauses on this subject). -/
theorem test_parkFrames :
    (∃ (y : Fin 4) (s : State), (s.chip.yard y.val).supplied = true ∧ (s.chip.sys.sleepTo = none ∨ s.chip.age.tests ≠ [] ∨ (∃ k ∈ sleepYards
      s.chip, k ≠ y.val ∧ (s.chip.yard k).wdArmed = true))) ∧
    (∃ (y : Fin 4) (s : State) (target : Power), (s.chip.yard y.val).supplied = true ∧ s.chip.sys.sleepTo = some target ∧ s.chip.age.tests =
      [] ∧ ((∀ k ∈ sleepYards s.chip, k ≠ y.val → (s.chip.yard k).wdArmed = false))) ∧
    (∃ (y : Fin 4) (s : State), (s.chip.yard y.val).supplied = true) :=
  ⟨⟨3, up, by decide +kernel⟩,
    ⟨0, (on (onSys up fun y => { y with sleepTo := some .park, sleepJob := some 0 }) fun c =>
      { c with jobs := [{ id := 0, op := .powerState {} 2 }], yards := c.yards.map fun e => (e.1, { e.2 with wdArmed := false }) }), .park,
      by decide +kernel⟩,
    ⟨2, up, by decide +kernel⟩⟩

/-- The hypotheses of `Obligations.DoorbellsMove` can be met. -/
theorem test_doorbellsMove :
    (∃ (pf : Fin 2) (n : Fin 16) (v : Fin 4294967296) (s : State), hostReach s.chip pf.val = true ∧ bit (s.regs.c (Reg.SQ_CFG pf.val n.val))
      0 = true ∧ v.val % 4096 < ringSize (s.regs.c (Reg.SQ_CFG pf.val n.val))) ∧
    (∃ (pf : Fin 2) (n : Fin 8) (v : Fin 4294967296) (s : State), hostReach s.chip pf.val = true ∧ bit (s.regs.c (Reg.CQ_CFG pf.val n.val))
      0 = true ∧ v.val % 4096 < ringSize (s.regs.c (Reg.CQ_CFG pf.val n.val)) ∧ headPast (s.regs.c (Reg.CQ_CFG pf.val n.val)) ((s.chip.ring
      pf.val).cqAt n.val).head ((s.chip.ring pf.val).cqAt n.val).tail (v.val % 4096) = false) ∧
    (∃ (pf : Fin 2) (v : Fin 4294967296) (s : State), hostReach s.chip pf.val = true ∧ bit (s.regs.c (Reg.EQ_CFG pf.val)) 0 = true ∧ v.val %
      4096 < ringSize (s.regs.c (Reg.EQ_CFG pf.val)) ∧ headPast (s.regs.c (Reg.EQ_CFG pf.val)) (s.chip.ring pf.val).eq.head (s.chip.ring
      pf.val).eq.tail (v.val % 4096) = false ∧ (s.chip.ring pf.val).eq.collapsing = false) ∧
    (∃ (pf : Fin 2) (v : Fin 4294967296) (s : State), hostReach s.chip pf.val = true ∧ bit (s.regs.c (Reg.EQ_CFG pf.val)) 0 = true ∧ v.val %
      4096 < ringSize (s.regs.c (Reg.EQ_CFG pf.val)) ∧ headPast (s.regs.c (Reg.EQ_CFG pf.val)) (s.chip.ring pf.val).eq.head (s.chip.ring
      pf.val).eq.tail (v.val % 4096) = false) :=
  ⟨⟨0, 0, 15, up, by decide +kernel⟩,
    ⟨1, 0, 3, on up fun c => c.setRing 1 (c.ring1.setCq 0 { tail := 3 }), by decide +kernel⟩,
    ⟨0, 2, on up fun c => c.setRing 0 { c.ring0 with eq := { tail := 2 } }, by decide +kernel⟩,
    ⟨1, 2, on up fun c => c.setRing 1 { c.ring1 with eq := { tail := 2, collapsing := true, cnt := [(3, { cnt := 2 })] } }, by
      decide +kernel⟩⟩

/-- The hypotheses of `Obligations.DoorbellsRefused` can be met. -/
theorem test_doorbellsRefused :
    (∃ (pf : Fin 2) (n : Fin 16) (v : Fin 4294967296) (s : State), hostReach s.chip pf.val = true ∧ (bit (s.regs.c (Reg.SQ_CFG pf.val
      n.val)) 0 = false ∨ ringSize (s.regs.c (Reg.SQ_CFG pf.val n.val)) ≤ v.val % 4096) ∧ EqReady s pf.val 243) ∧
    (∃ (pf : Fin 2) (n : Fin 8) (v : Fin 4294967296) (s : State), hostReach s.chip pf.val = true ∧ (bit (s.regs.c (Reg.CQ_CFG pf.val n.val))
      0 = false ∨ ringSize (s.regs.c (Reg.CQ_CFG pf.val n.val)) ≤ v.val % 4096 ∨ headPast (s.regs.c (Reg.CQ_CFG pf.val n.val)) ((s.chip.ring
      pf.val).cqAt n.val).head ((s.chip.ring pf.val).cqAt n.val).tail (v.val % 4096) = true) ∧ EqReady s pf.val 243) ∧
    (∃ (pf : Fin 2) (v : Fin 4294967296) (s : State), hostReach s.chip pf.val = true ∧ (bit (s.regs.c (Reg.EQ_CFG pf.val)) 0 = false ∨
      ringSize (s.regs.c (Reg.EQ_CFG pf.val)) ≤ v.val % 4096 ∨ headPast (s.regs.c (Reg.EQ_CFG pf.val)) (s.chip.ring pf.val).eq.head
      (s.chip.ring pf.val).eq.tail (v.val % 4096) = true) ∧ EqReady s pf.val 243) :=
  ⟨⟨0, 0, 16, up, by decide +kernel⟩,
    ⟨0, 0, 1, up, by decide +kernel⟩,
    ⟨0, 1, up, by decide +kernel⟩⟩

/-- The hypotheses of `Obligations.DoorbellsMove` can be met (its clauses on this subject). -/
theorem test_heartbeatDoorbell :
    (∃ (pf : Fin 2) (_ : Fin 4294967296) (s : State), hostReach s.chip pf.val = true ∧ (s.chip.ring pf.val).hostLost = false) ∧
    (∃ (pf : Fin 2) (_ : Fin 4294967296) (s : State), hostReach s.chip pf.val = true ∧ (s.chip.ring pf.val).hostLost = true ∧ EqReady s
      pf.val 237) :=
  ⟨⟨0, 7, up, by decide +kernel⟩,
    ⟨1, 7, on up fun c => c.setRing 1 { c.ring1 with hostLost := true }, by decide +kernel⟩⟩

/-- The hypotheses of `Obligations.PagesOfTheOtherFunction` can be met. -/
theorem test_pagesOfTheOtherFunction :
    (∃ (n : Fin 16) (_ : Fin 8) (_ : Fin 4294967296) (k : Fin 3) (s : State), hostReach s.chip 0 = true ∧ ((k.val = 1 → n.val < 8))) ∧
    (∃ (via : Fin 2) (off : Fin 1048576) (_ : Fin 4294967296) (s : State), hostReach s.chip via.val = true ∧ off.val % 4 = 0 ∧ ((via.val = 0
      ∧ (off.val / 0x1000 = 2 ∨ off.val / 0x1000 = 5)) ∨ (via.val = 1 ∧ (off.val / 0x1000 = 1 ∨ off.val / 0x1000 = 4))) ∧ via.val = 0) ∧
    (∃ (via : Fin 2) (off : Fin 1048576) (_ : Fin 4294967296) (s : State), hostReach s.chip via.val = true ∧ off.val % 4 = 0 ∧ ((via.val = 0
      ∧ (off.val / 0x1000 = 2 ∨ off.val / 0x1000 = 5)) ∨ (via.val = 1 ∧ (off.val / 0x1000 = 1 ∨ off.val / 0x1000 = 4))) ∧ via.val = 1) :=
  ⟨⟨15, 7, 0xFFFFFFFF, 0, up, by decide +kernel⟩,
    ⟨0, 0x2000, 7, up, by decide +kernel⟩,
    ⟨1, 0x1400, 7, up, by decide +kernel⟩⟩

/-- The hypotheses of `Obligations.QueueSetUpAndWindows` can be met (its clauses on this subject). -/
theorem test_ringSetUp :
    (∃ (pf : Fin 2) (_ : Fin 4294967296) (s : State), hostReach s.chip pf.val = true) ∧
    (∃ (pf : Fin 2) (n : Fin 16) (v : Fin 4294967296) (s : State), hostReach s.chip pf.val = true ∧ bit (s.regs.c (Reg.SQ_CFG pf.val n.val))
      0 = false ∧ queueFits s.regs pf.val 0 n.val ((v.val ||| 1) &&& 0x7F3F1) = true) ∧
    (∃ (pf : Fin 2) (n : Fin 16) (v : Fin 4294967296) (s : State), hostReach s.chip pf.val = true ∧ n.val < 8 ∧ bit (s.regs.c (Reg.CQ_CFG
      pf.val n.val)) 0 = false ∧ queueFits s.regs pf.val 1 n.val ((v.val ||| 1) &&& 0xFF1FF3) = true) ∧
    (∃ (pf : Fin 2) (n : Fin 16) (v : Fin 4294967296) (s : State), hostReach s.chip pf.val = true ∧ bit (s.regs.c (Reg.EQ_CFG pf.val)) 0 =
      false ∧ queueFits s.regs pf.val 2 n.val ((v.val ||| 1) &&& 0xF1) = true ∧ (s.chip.ring pf.val).held = [] ∧ (s.chip.ring
      pf.val).heldOver = false) ∧
    (∃ (pf : Fin 2) (n : Fin 16) (v : Fin 4294967296) (s : State), hostReach s.chip pf.val = true ∧ bit (s.regs.c (Reg.SQ_CFG pf.val n.val))
      0 = false ∧ queueFits s.regs pf.val 0 n.val ((v.val ||| 1) &&& 0x7F3F1) = false) ∧
    (∃ (pf : Fin 2) (n : Fin 16) (v : Fin 4294967296) (s : State), hostReach s.chip pf.val = true ∧ n.val < 8 ∧ bit (s.regs.c (Reg.CQ_CFG
      pf.val n.val)) 0 = false ∧ queueFits s.regs pf.val 1 n.val ((v.val ||| 1) &&& 0xFF1FF3) = false) ∧
    (∃ (pf : Fin 2) (n : Fin 16) (v : Fin 4294967296) (s : State), hostReach s.chip pf.val = true ∧ bit (s.regs.c (Reg.EQ_CFG pf.val)) 0 =
      false ∧ queueFits s.regs pf.val 2 n.val ((v.val ||| 1) &&& 0xF1) = false) ∧
    (∃ (pf : Fin 2) (n : Fin 16) (v : Fin 4294967296) (s : State), hostReach s.chip pf.val = true ∧ bit (s.regs.c (Reg.EQ_CFG pf.val)) 0 =
      false ∧ queueFits s.regs pf.val 2 n.val ((v.val ||| 1) &&& 0xF1) = true) :=
  ⟨⟨0, 0xFFFFFFFF, up, by decide +kernel⟩,
    ⟨0, 1, 0x40, setC [(Reg.SQ_BASE_HI 0 1, 1)] up, by decide +kernel⟩,
    ⟨0, 7, 0xC2, setC [(Reg.CQ_BASE_HI 0 7, 1)] up, by decide +kernel⟩,
    ⟨1, 0, 0x80, setC [(Reg.EQ_CFG 1, 0), (Reg.EQ_BASE_HI 1, 2)] up, by decide +kernel⟩,
    ⟨0, 1, 0x30, setC [(Reg.SQ_BASE_HI 0 1, 1)] up, by decide +kernel⟩,
    ⟨1, 3, 0x30, up, by decide +kernel⟩,
    ⟨0, 0, 0x30, setC [(Reg.EQ_CFG 0, 0)] up, by decide +kernel⟩,
    ⟨1, 0, 0x80, setC [(Reg.EQ_CFG 1, 0), (Reg.EQ_BASE_HI 1, 2)] (on up fun c => c.setRing 1
      { c.ring1 with held := [{ src := 3 }, { src := 4 }], heldOver := true, heldCnt := [(5, { cnt := 3 })] }), by decide +kernel⟩⟩

/-- The hypotheses of `Obligations.QueueSetUpAndWindows` can be met (its clauses on this subject). -/
theorem test_queuesDisable :
    (∃ (pf : Fin 2) (_ : Fin 16) (_ : Fin 4294967296) (s : State), hostReach s.chip pf.val = true) ∧
    (∃ (pf : Fin 2) (n : Fin 16) (_ : Fin 4294967296) (s : State), hostReach s.chip pf.val = true ∧ n.val < 8 ∧ bit (s.regs.c (Reg.CQ_CFG
      pf.val n.val)) 0 = true) ∧
    (∃ (pf : Fin 2) (_ : Fin 16) (_ : Fin 4294967296) (s : State), hostReach s.chip pf.val = true) :=
  ⟨⟨0, 0, 0x40, up, by decide +kernel⟩,
    ⟨1, 0, 0x43, up, by decide +kernel⟩,
    ⟨1, 9, 0xFFFFFFFF, up, by decide +kernel⟩⟩

/-- The hypotheses of `Obligations.QueueSetUpAndWindows` can be met (its clauses on this subject). -/
theorem test_coalescingWindow :
    (∃ (pf : Fin 2) (n : Fin 8) (s : State), s.chip.ctlRuns = true ∧ ((s.chip.ring pf.val).cqAt n.val).coalOpen = true ∧ ((s.chip.ring
      pf.val).cqAt n.val).coalHit = false) ∧
    (∃ (pf : Fin 2) (n : Fin 8) (s : State), s.chip.ctlRuns = true ∧ ((s.chip.ring pf.val).cqAt n.val).coalOpen = true ∧ ((s.chip.ring
      pf.val).cqAt n.val).coalHit = true ∧ bit (s.regs.c (Reg.CQ_CFG pf.val n.val)) 1 = true ∧ bits (s.regs.c (Reg.CQ_CFG pf.val n.val)) 23
      16 ≠ 0 ∧ (s.chip.ring pf.val).msgOk = true ∧ bit (s.regs.c (Reg.MSIX_CTRL pf.val (bits (s.regs.c (Reg.CQ_CFG pf.val n.val)) 12 8))) 0
      = false) :=
  ⟨⟨0, 0, on up fun c => c.setRing 0 (c.ring0.setCq 0 { coalOpen := true }), by decide +kernel⟩,
    ⟨0, 0, setC [(Reg.CQ_CFG 0 0, 0x00010143), (Reg.MSIX_CTRL 0 1, 0)] (on up fun c => c.setRing 0 (c.ring0.setCq 0
      { coalOpen := true, coalHit := true })), by decide +kernel⟩⟩

/-- The hypotheses of `Obligations.ConfigurationAndLink` can be met (its clauses on this subject). -/
theorem test_configurationSpace :
    (∃ (pf : Fin 2) (_ : Bool) (_ : Bool) (_ : Bool) (_ : Bool) (_ : CfgSpace) (s : State), s.chip.sys.link = true ∧ (s.chip.ring
      pf.val).pba = 0) ∧
    (∃ (_ : Fin 2) (_ : Bool) (_ : Bool) (_ : Bool) (_ : Bool) (_ : CfgSpace) (s : State), s.chip.sys.link = true) ∧
    (∃ (_ : Fin 2) (_ : Bool) (_ : Bool) (_ : Bool) (_ : Bool) (_ : CfgSpace) (s : State), s.chip.sys.link = false) :=
  ⟨⟨0, true, true, false, false, {}, up, by decide +kernel⟩,
    ⟨1, true, true, false, true, { mem := true, bar0 := 5 }, on up fun c => c.setRing 1 { c.ring1 with pba := 3 }, by decide +kernel⟩,
    ⟨0, true, true, false, false, {}, onSys up fun y => { y with link := false }, by decide +kernel⟩⟩

/-- The hypotheses of `Obligations.DescriptorFetch` can be met (its clauses on this subject). -/
theorem test_descriptorsAreFetched :
    (∃ (e : SqHead) (s : State), s.chip.sys.ctl = .up ∧ fetchable s.regs s.chip e = true ∧ fenceHolds s.chip e.hdr = false ∧ e.wordsOk =
      true ∧ e.opc = 0x00 ∧ e.blk = 0 ∧ e.unit = 0 ∧ e.hdr.at_ = none ∧ e.hdr.ncos = false ∧ NoneHeld s) ∧
    (∃ (e : SqHead) (s : State), s.chip.sys.ctl = .up ∧ fetchable s.regs s.chip e = true ∧ fenceHolds s.chip e.hdr = false ∧ e.wordsOk =
      false ∧ NoneHeld s) ∧
    (∃ (e : SqHead) (s : State), s.chip.ctlRuns = true ∧ fetchable s.regs s.chip e = true ∧ fenceHolds s.chip e.hdr = true) ∧
    (∃ (e : SqHead) (s : State), s.chip.ctlRuns = true ∧ fetchable s.regs s.chip e = false) ∧
    (∃ (e : SqHead) (i : Instr) (arb : UMap Arb) (s : State), s.chip.ctlRuns = true ∧ fetchable s.regs s.chip e = true ∧ fenceHolds s.chip
      e.hdr = false ∧ pickNext s.regs s.chip [e] = some (e, arb) ∧ e.wordsOk = true ∧ rawOp e = some i ∧ e.opc ≠ 0x04 ∧ (descOf s i).opc =
      e.opc ∧ (descOf s i).blk = e.blk ∧ (descOf s i).unit = e.unit ∧ (opBlocks e.opc).contains e.blk = true ∧ e.unit < opUnits e.opc e.blk) :=
  ⟨⟨{ words := [0, 0, 0, 0, 0, 0, 0, 0] }, on up fun c => c.setRing 0 (c.ring0.setSq 0 { tail := 1 }), by decide +kernel⟩,
    ⟨{ words := [0xFF, 0, 0, 0, 0, 0, 0, 0] }, on up fun c => c.setRing 0 (c.ring0.setSq 0 { tail := 1 }), by decide +kernel⟩,
    ⟨{ words := [0x101, 0, 0, 0, 0, 0, 0, 0] }, on up fun c => { c.setRing 0 (c.ring0.setSq 0 { tail := 1 }) with jobs := [{}] }, by
      decide +kernel⟩,
    ⟨{}, up, by decide +kernel⟩,
    ⟨{ words := [0x10, 0x310, 1, 0, 0, 0, 0, 0] }, .stallSet { } 3 true false, [(0, { left := 0, cur := 0 })], on up fun c => c.setRing 0
      (c.ring0.setSq 0 { tail := 1 }), by decide +kernel⟩⟩

/-- The hypotheses of `Obligations.DescriptorFetch` can be met (its clauses on this subject). -/
theorem test_nothingFetchable :
    (∃ (e : SqHead) (s : State), ((s.chip.ring e.pf.val).hostLost = true ∨ bit (s.regs.c (Reg.RING_CTRL e.pf.val)) 0 = false ∨ ((s.chip.ring
      e.pf.val).sqAt e.sq.val).head = ((s.chip.ring e.pf.val).sqAt e.sq.val).tail ∨ slotFree s.regs s.chip e.pf.val (sqCq s.regs e.pf.val
      e.sq.val) = false ∨ s.chip.sys.halted = true ∨ (s.chip.ring e.pf.val).dmaOk = false)) :=
  ⟨{}, up, by decide +kernel⟩

/-- The hypotheses of `Obligations.HostLossDeclared` can be met. -/
theorem test_hostLossDeclared :
    (∃ (pf : Fin 2) (s : State), s.chip.fwRuns = true ∧ s.chip.sys.halted = false ∧ (s.chip.ring pf.val).supervised = true ∧ (s.chip.ring
      pf.val).hostLost = false ∧ ownerSecure s.regs 0x17 0 ≠ (pf.val == 1) ∧ ownerSecure s.regs 0x1C 0 ≠ (pf.val == 1) ∧ ((∀ y ∈ sleepYards
      s.chip, ∀ src ∈ yardOutputs s.regs s.chip y, srcSecure s.regs src = (pf.val == 1) → policySafe s.regs s.chip src = true → 0 <
      safeDelay s.regs s.chip src)) ∧ NoneHeld s ∧ EqReady s pf.val 237) ∧
    (∃ (pf : Fin 2) (s : State), s.chip.fwRuns = true ∧ (s.chip.sys.halted && bit (s.regs.c Reg.DEBUG_CFG) 1) = false ∧ (s.chip.ring
      pf.val).supervised = true ∧ (s.chip.ring pf.val).hostLost = false ∧ NoneHeld s) :=
  ⟨⟨1, on ((List.range 16).foldl (fun s k => own 0x10 (48 + k) s) up) fun c => { c with yards := [(2, c.yard 2)] }, by decide +kernel⟩,
    ⟨0, up, by decide +kernel⟩⟩

/-- The hypotheses of `Obligations.EventsReachTheQueue` can be met. -/
theorem test_eventsReachTheQueue :
    (∃ (s : State) (pf : Nat) (src : Nat) (_ : Nat) (_ : Nat), s.chip.ctlRuns = true ∧ neverRaised s.chip src = false ∧ srcFns s.regs src =
      [pf] ∧ EqReady s pf src) ∧
    (∃ (s : State) (pf : Nat) (src : Nat) (_ : Nat) (_ : Nat), srcFns s.regs src = [pf] ∧ bit (s.regs.c (Reg.EQ_CFG pf)) 0 = true ∧ bit
      (s.regs.c (Reg.EVT_ROUTE pf src)) 8 = false) ∧
    (∃ (s : State) (pf : Nat) (src : Nat) (_ : Nat) (_ : Nat), s.chip.ctlRuns = true ∧ neverRaised s.chip src = false ∧ srcFns s.regs src =
      [pf] ∧ bit (s.regs.c (Reg.EQ_CFG pf)) 0 = true ∧ bit (s.regs.c (Reg.EVT_ROUTE pf src)) 8 = true ∧ (s.chip.ring pf).eq.collapsing =
      false ∧ (s.chip.ring pf).dmaOk = true ∧ (s.chip.ring pf).eq.cnt = [] ∧ ringSize (s.regs.c (Reg.EQ_CFG pf)) - 2 ≤ occupied (ringSize
      (s.regs.c (Reg.EQ_CFG pf))) (s.chip.ring pf).eq.head (s.chip.ring pf).eq.tail) ∧
    (∃ (s : State) (pf : Nat) (src : Nat) (_ : Nat) (_ : Nat), s.chip.ctlRuns = true ∧ neverRaised s.chip src = false ∧ srcFns s.regs src =
      [pf] ∧ bit (s.regs.c (Reg.EQ_CFG pf)) 0 = true ∧ bit (s.regs.c (Reg.EVT_ROUTE pf src)) 8 = true ∧ (s.chip.ring pf).eq.collapsing =
      true ∧ ringSize (s.regs.c (Reg.EQ_CFG pf)) - 2 ≤ occupied (ringSize (s.regs.c (Reg.EQ_CFG pf))) (s.chip.ring pf).eq.head (s.chip.ring
      pf).eq.tail) :=
  ⟨⟨setC [(Reg.EVT_ROUTE 0 3, 0x100)] up, 0, 3, 2, 0xFFFFFFFFFFFF, by decide +kernel⟩,
    ⟨setC [(Reg.EVT_ROUTE 0 3, 0)] up, 0, 3, 2, 1, by decide +kernel⟩,
    ⟨setC [(Reg.EVT_ROUTE 0 3, 0x100)] (on up fun c => c.setRing 0 { c.ring0 with eq := { tail := 14 } }), 0, 3, 2, 1, by decide +kernel⟩,
    ⟨setC [(Reg.EVT_ROUTE 0 3, 0x100)] (on up fun c => c.setRing 0
      { c.ring0 with eq := { tail := 15, collapsing := true, cnt := [(3, { cnt := 255 })] } }), 0, 3, 2, 1, by decide +kernel⟩⟩

/-- The hypotheses of `Obligations.EventsReachTheQueue` can be met (its clauses on this subject). -/
theorem test_eventsAreHeld :
    (∃ (s : State) (pf : Nat) (src : Nat) (_ : Nat) (_ : Nat), s.chip.ctlRuns = true ∧ neverRaised s.chip src = false ∧ srcFns s.regs src =
      [pf] ∧ bit (s.regs.c (Reg.EQ_CFG pf)) 0 = false ∧ (s.chip.ring pf).heldOver = false ∧ s.chip.ring0.held.length +
      s.chip.ring1.held.length < 1024) ∧
    (∃ (s : State) (pf : Nat) (src : Nat) (_ : Nat) (_ : Nat), s.chip.ctlRuns = true ∧ neverRaised s.chip src = false ∧ srcFns s.regs src =
      [pf] ∧ bit (s.regs.c (Reg.EQ_CFG pf)) 0 = false ∧ (s.chip.ring pf).heldOver = false ∧ 1024 ≤ s.chip.ring0.held.length +
      s.chip.ring1.held.length) :=
  ⟨⟨setC [(Reg.EQ_CFG 1, 0x40)] up, 1, 242, 9, 1, by decide +kernel⟩,
    ⟨setC [(Reg.EQ_CFG 0, 0x40)] (on up fun c =>
      { c with ring0 := { c.ring0 with held := List.replicate 1000 {} }, ring1 := { c.ring1 with held := List.replicate 24 {} } }), 0, 0, 1,
      1, by decide +kernel⟩⟩

/-- The hypotheses of `Obligations.ConfigurationAndLink` can be met (its clauses on this subject). -/
theorem test_linkComesUp :
    (∃ (s : State), s.chip.sys.ctl = .up ∧ s.chip.sys.sleepTo = none ∧ s.chip.parked = false ∧ s.chip.sys.wnaAbsent = false) ∧
    (∃ (s : State), s.chip.sys.ready = true ∧ s.chip.sys.perst = false) ∧
    (∃ (s : State), (s.chip.sys.ready = false ∨ s.chip.sys.perst = true)) :=
  ⟨⟨onSys up fun y => { y with perst := true, link := false, ready := false }, by decide +kernel⟩,
    ⟨onSys up fun y => { y with link := false }, by decide +kernel⟩,
    ⟨onSys up fun y => { y with ready := false }, by decide +kernel⟩⟩

/-- The hypotheses of `Obligations.RegisterWritesAndKeySlots` can be met (its clauses on this subject). -/
theorem test_registerWriteTakes :
    (∃ (via : Fin 2) (off : Fin 1048576) (v : Fin 4294967296) (w : RegRow) (s : State), hostReach s.chip via.val = true ∧ off.val % 4 = 0 ∧
      0x08000 ≤ off.val ∧ off.val < 0x10000 ∧ regRow off.val = some w ∧ regAbsent s.chip off.val = false ∧ w.w1c = 0 ∧ takeMask s.regs
      s.chip.sys.lock via.val w (w.index off.val) ≠ 0 ∧ ((via.val = 0 → Nat.xor v.val (s.regs.c off.val) &&& rwsMask s.regs w (w.index
      off.val) = 0))) ∧
    (∃ (_ : Fin 2) (off : Fin 1048576) (_ : Fin 4294967296) (be : Fin 16) (_ : State), (be.val ≠ 15 ∨ off.val % 4 ≠ 0)) :=
  ⟨⟨1, Fin.ofNat _ (Reg.FEED_LIM 0), 0xFFFFFFFF, (regRow (Fin.ofNat _ (Reg.FEED_LIM 0) : Fin 1048576).val).get (by decide +kernel), onSys
      up fun y => { y with lock := false }, by decide +kernel⟩,
    ⟨0, 0x0A044, 0, 7, up, by decide +kernel⟩⟩

/-- The hypotheses of `Obligations.RegisterWritesAndKeySlots` can be met (its clauses on this subject). -/
theorem test_bootLockHolds :
    (∃ (via : Fin 2) (off : Fin 1048576) (v : Fin 4294967296) (be : Fin 16) (s : State) (t : State) (k : Nat) (w : RegRow), s.chip.sys.lock
      = true ∧ off.val ≠ Reg.RST_CMD ∧ exec (.registerWrite via off v be) s = .next t ∧ regRow k = some w) :=
  ⟨1, 0x08000, 0xC0000018, 15, up, nextOf (exec (.registerWrite (1 : Fin 2) (0x08000 : Fin 1048576) (0xC0000018 : Fin 4294967296) (15 : Fin
    16)) (up : State)), 0x08000, (regRow 0x08000).get (by decide +kernel), by
      and_intros <;> first | decide +kernel | rfl⟩

/-- The hypotheses of `Obligations.RegisterWritesAndKeySlots` can be met (its clauses on this subject). -/
theorem test_secureRegistersKeep :
    (∃ (off : Fin 1048576) (v : Fin 4294967296) (be : Fin 16) (w : RegRow) (s : State) (t : State), regRow off.val = some w ∧ rowSecure
      s.regs w (w.index off.val) = true ∧ exec (.registerWrite 0 off v be) s = .next t) ∧
    (∃ (off : Fin 1048576) (v : Fin 4294967296) (w : RegRow) (s : State), hostReach s.chip 0 = true ∧ off.val % 4 = 0 ∧ 0x08000 ≤ off.val ∧
      off.val < 0x10000 ∧ regRow off.val = some w ∧ regAbsent s.chip off.val = false ∧ w.w1c = 0 ∧ rowSecure s.regs w (w.index off.val) =
      true ∧ Nat.xor v.val (s.regs.c off.val) &&& rwsMask s.regs w (w.index off.val) ≠ 0) :=
  ⟨⟨Fin.ofNat _ (Reg.STALL_CFG 0), 0xFFFFFFFF, 15, (regRow (Fin.ofNat _ (Reg.STALL_CFG 0) : Fin 1048576).val).get (by decide +kernel), setC
      [(Reg.WT 0, 0xC03F0010)] up, nextOf (exec (.registerWrite 0 (Fin.ofNat _ (Reg.STALL_CFG 0) : Fin 1048576) (0xFFFFFFFF : Fin
      4294967296) (15 : Fin 16)) (setC [(Reg.WT 0, 0xC03F0010)] up : State)), by
        and_intros <;> first | decide +kernel | rfl⟩,
    ⟨Fin.ofNat _ (Reg.WT 63), 0xC0000018, (regRow (Fin.ofNat _ (Reg.WT 63) : Fin 1048576).val).get (by decide +kernel), up, by
      decide +kernel⟩⟩

/-- The hypotheses of `Obligations.RegisterWritesAndKeySlots` can be met (its clauses on this subject). -/
theorem test_keySlots :
    (∃ (slot : Fin 4) (_ : Bool) (s : State), hostReach s.chip 1 = true ∧ (keyAt s.chip.upd slot.val).prog = false) ∧
    (∃ (slot : Fin 4) (_ : Bool) (s : State), hostReach s.chip 1 = true ∧ (keyAt s.chip.upd slot.val).prog = true) ∧
    (∃ (slot : Fin 4) (other : Fin 4) (s : State), hostReach s.chip 1 = true ∧ (keyAt s.chip.upd slot.val).prog = true ∧ ((s.chip.fwRuns =
      true → s.chip.upd.execSlot ≠ slot.val)) ∧ other ≠ slot ∧ (keyAt s.chip.upd other.val).prog = true ∧ (keyAt s.chip.upd
      other.val).revoked = false) ∧
    (∃ (slot : Fin 4) (s : State), hostReach s.chip 1 = true ∧ ((s.chip.fwRuns = true ∧ s.chip.upd.execSlot = slot.val) ∨ (keyAt s.chip.upd
      slot.val).prog = false ∨ (∀ k, k < 4 → k ≠ slot.val → (keyAt s.chip.upd k).prog = false ∨ (keyAt s.chip.upd k).revoked = true))) ∧
    (∃ (_ : Fin 4) (_ : Fin 65536) (_ : Bool) (s : State), hostReach s.chip 0 = true) ∧
    (∃ (_ : Fin 4) (key : Fin 65536) (_ : Bool) (s : State), hostReach s.chip 1 = true ∧ key.val ≠ 0x5E1F) :=
  ⟨⟨1, true, up, by decide +kernel⟩,
    ⟨0, false, up, by decide +kernel⟩,
    ⟨2, 0, on up fun c => { c with upd := { c.upd with keys := [(2, { prog := true })], execSlot := 0 } }, by decide +kernel⟩,
    ⟨0, up, by decide +kernel⟩,
    ⟨3, 0x5E1F, true, up, by decide +kernel⟩,
    ⟨1, 7, true, up, by decide +kernel⟩⟩

/-- The hypotheses of `Obligations.PowerOnAndOff` can be met (its clauses on this subject). -/
theorem test_aonPower :
    (∃ (mv : Nat) (s : State), s.chip.sys.aon = false ∧ 3500 ≤ mv) ∧
    (∃ (mv : Nat) (_ : State), mv < 3500) ∧
    (∃ (s : State), s.chip.sys.aon = true) ∧
    (∃ (s : State), s.chip.sys.aon = true ∧ s.chip.sys.ctl = .off ∧ (s.chip.sys.power = .off ∨ s.chip.sys.wakeRec ≠ [])) ∧
    (∃ (s : State), (s.chip.sys.aon = false ∨ s.chip.sys.ctl ≠ .off ∨ (s.chip.sys.power ≠ .off ∧ s.chip.sys.wakeRec = []))) :=
  ⟨⟨3500, State.reset, by decide +kernel⟩,
    ⟨3499, State.reset, by decide +kernel⟩,
    ⟨up, by decide +kernel⟩,
    ⟨onSys State.reset fun y => { y with aon := true }, by decide +kernel⟩,
    ⟨onSys State.reset fun y => { y with aon := true, power := .park }, by decide +kernel⟩⟩

/-- The hypotheses of `Obligations.PowerOnAndOff` can be met (its clauses on this subject). -/
theorem test_halterPower :
    (∃ (y : Fin 4) (mv : Nat) (s : State), yardPresent s.chip y.val = true ∧ (s.chip.yard y.val).supplied = false ∧ (if y.val = 2 then 14000 else
      3500) ≤ mv) ∧
    (∃ (y : Fin 4) (mv : Nat) (s : State), (s.chip.yard y.val).supplied = true ∧ mv < (if y.val = 2 then 12000 else 2500) ∧ s.chip.cross =
      [] ∧ s.chip.ctlRuns = true ∧ (s.chip.yard y.val).ctlAbsent = false ∧ (s.chip.yard y.val).unreach = false ∧ (s.chip.yard y.val).adopted
      = true) :=
  ⟨⟨0, 3500, State.reset, by decide +kernel⟩,
    ⟨3, 2499, up, by decide +kernel⟩⟩

/-- The hypotheses of `Obligations.FeedBandsAndLockOut` can be met (its clauses on this subject). -/
theorem test_feedBands :
    (∃ (f : Fin 5) (y : Nat) (mv : Nat) (new : Nat) (s : State), f.val < 4 ∧ feedYard f.val = some y ∧ (s.chip.yard y).supplied = true ∧
      (s.chip.feed f.val).dwell = false ∧ (s.chip.feed f.val).band ≠ new ∧ (s.chip.feed f.val).band ≠ 1 ∧ NoneWaits s ∧ Safety.Reports y s ∧
      ((f.val < 3 ∧ bit (supplyCfg s.regs y) 0 = false ∧ ((3000 ≤ mv ∧ mv < 6000 ∧ new = 2) ∨ (6000 ≤ mv ∧ mv < 18000 ∧ new = 3) ∨ (18000 ≤
      mv ∧ new = 4))) ∨ (f.val < 3 ∧ bit (supplyCfg s.regs y) 0 = true ∧ ((3000 ≤ mv ∧ mv < 16000 ∧ new = 2) ∨ (16000 ≤ mv ∧ mv < 32000 ∧
      new = 3) ∨ (32000 ≤ mv ∧ new = 4))) ∨ (f.val = 3 ∧ ((24000 ≤ mv ∧ mv < 36000 ∧ new = 2) ∨ (36000 ≤ mv ∧ mv < 52000 ∧ new = 3) ∨ (52000
      ≤ mv ∧ mv < 60000 ∧ new = 4) ∨ (60000 ≤ mv ∧ new = 5))))) ∧
    (∃ (f : Fin 5) (_ : Nat) (s : State), feedMeasured s.chip f.val = true ∧ NoneHeld s) ∧
    (∃ (f : Fin 5) (_ : Nat) (s : State), feedMeasured s.chip f.val = false ∧ NoneWaits s) :=
  ⟨⟨0, 0, 3000, 2, up, by decide +kernel⟩,
    ⟨4, 2000, up, by decide +kernel⟩,
    ⟨1, 2000, State.reset, by decide +kernel⟩⟩

/-- The hypotheses of `Obligations.FeedBandsAndLockOut` can be met (its clauses on this subject). -/
theorem test_lockOut :
    (∃ (f : Fin 5) (y : Nat) (mv : Nat) (s : State), feedYard f.val = some y ∧ (s.chip.yard y).supplied = true ∧ (s.chip.feed f.val).band ≠
      1 ∧ mv < (if f.val = 3 then 24000 else 3000) ∧ NoneWaits s) ∧
    (∃ (f : Fin 5) (y : Nat) (mv : Nat) (ms : Nat) (s : State), f.val < 2 ∧ feedYard f.val = some y ∧ (s.chip.yard y).supplied = true ∧ bit
      (supplyCfg s.regs y) 0 = false ∧ (s.chip.feed f.val).band = 1 ∧ (s.chip.feed f.val).dwell = true ∧ 6000 ≤ mv ∧ mv < 18000 ∧ 10 * min
      100 (bits (s.regs.h (Reg.SHED_HYS f.val)) 22 16) ≤ ms) ∧
    (∃ (f : Fin 5) (mv : Nat) (ms : Nat) (s : State), ((s.chip.feed f.val).dwell = false ∨ mv ≤ (if f.val = 3 then 26000 else 3500) ∨ ms <
      feedDwell s.regs s.chip f.val)) ∧
    (∃ (f : Fin 5) (y : Nat) (mv : Nat) (ms : Nat) (s : State), feedYard f.val = some y ∧ (s.chip.yard y).supplied = true ∧ (s.chip.feed
      f.val).band = 1 ∧ (s.chip.feed f.val).dwell = true ∧ (if f.val = 3 then 26000 else 3500) < mv ∧ feedDwell s.regs s.chip f.val ≤ ms) :=
  ⟨⟨0, 0, 2999, up, by decide +kernel⟩,
    ⟨1, 1, 6000, 1000, on up fun c => (c.setFeed 1 { band := 1, dwell := true, mv := 2000 }).setYard 1 { c.yard 1 with lockout := true }, by
      decide +kernel⟩,
    ⟨4, 13500, 10, up, by decide +kernel⟩,
    ⟨3, 2, 26001, 1000, on up fun c => (c.setFeed 3 { band := 1, dwell := true, mv := 2000 }).setYard 2 { c.yard 2 with lockout := true },
      by decide +kernel⟩⟩

/-- The hypotheses of `Obligations.FeedBandsAndLockOut` can be met (its clauses on this subject). -/
theorem test_boostMode :
    (∃ (mv : Nat) (s : State), s.chip.sys.prereg = true ∧ s.chip.sys.boost = false ∧ mv < 6500 ∧ s.chip.ctlRuns = true) ∧
    (∃ (mv : Nat) (s : State), s.chip.sys.prereg = true ∧ s.chip.sys.boost = true ∧ 7000 < mv ∧ s.chip.ctlRuns = true) ∧
    (∃ (mv : Nat) (s : State), (s.chip.sys.prereg = false ∨ s.chip.sys.boost = true ∨ 6500 ≤ mv)) ∧
    (∃ (mv : Nat) (s : State), (s.chip.sys.prereg = false ∨ s.chip.sys.boost = false ∨ mv ≤ 7000)) :=
  ⟨⟨5500, up, by decide +kernel⟩,
    ⟨7001, onSys up fun y => { y with boost := true }, by decide +kernel⟩,
    ⟨6500, up, by decide +kernel⟩,
    ⟨7000, onSys up fun y => { y with boost := true }, by decide +kernel⟩⟩

/-- The hypotheses of `Obligations.BudgetSheddingAndRestores` can be met (its clauses on this subject). -/
theorem test_sheddingOfAClass :
    (∃ (y : Fin 4) (k : Fin 4) (mv : Nat) (s : State), (s.chip.yard y.val).supplied = true ∧ k.val ≠ 0 ∧ classShed (s.chip.yard y.val) k.val
      = false ∧ mv < shedBelow s.regs (yardFeed y.val) k.val ∧ Safety.Reports y.val s ∧ NoneHeld s ∧ ((∀ src ∈ shedUnits s.regs s.chip
      y.val, shedClass s.regs src ≠ k.val))) ∧
    (∃ (y : Fin 4) (k : Fin 4) (mv : Nat) (ms : Nat) (s : State), (s.chip.yard y.val).supplied = true ∧ classShed (s.chip.yard y.val) k.val
      = true ∧ (s.chip.yard y.val).lockout = false ∧ Safety.Reports y.val s ∧ shedBelow s.regs (yardFeed y.val) k.val + 100 * bits (s.regs.h
      (Reg.SHED_HYS (yardFeed y.val))) 7 0 ≤ mv ∧ 10 * min 100 (bits (s.regs.h (Reg.SHED_HYS (yardFeed y.val))) 22 16) ≤ ms) ∧
    (∃ (y : Fin 4) (k : Fin 4) (mv : Nat) (s : State), (s.chip.yard y.val).supplied = true ∧ k.val ≠ 0 ∧ classShed (s.chip.yard y.val) k.val
      = false ∧ mv < shedBelow s.regs (yardFeed y.val) k.val ∧ NoneHeld s) ∧
    (∃ (y : Fin 4) (k : Fin 4) (mv : Nat) (s : State), shedBelow s.regs (yardFeed y.val) k.val ≤ mv ∧ NoneHeld s) ∧
    (∃ (y : Fin 4) (k : Fin 4) (mv : Nat) (ms : Nat) (s : State), (s.chip.yard y.val).supplied = true ∧ classShed (s.chip.yard y.val) k.val
      = true ∧ shedBelow s.regs (yardFeed y.val) k.val + 100 * bits (s.regs.h (Reg.SHED_HYS (yardFeed y.val))) 7 0 ≤ mv ∧ 10 * min 100 (bits
      (s.regs.h (Reg.SHED_HYS (yardFeed y.val))) 22 16) ≤ ms) :=
  ⟨⟨2, 3, 6000, setH ((List.range 16).map (fun i => (Reg.STALL_PROT (48 + i), 0))) up, by decide +kernel⟩,
    ⟨0, 1, 60000, 1000, on up fun c => c.setYard 0 { c.yard 0 with shed1 := true }, by decide +kernel⟩,
    ⟨1, 2, 0, on up fun c => c.setStall 16 { st := .on, req := true, out := true }, by decide +kernel⟩,
    ⟨1, 2, 60000, up, by decide +kernel⟩,
    ⟨0, 1, 60000, 1000, on up fun c => c.setYard 0 { c.yard 0 with shed1 := true, lockout := true }, by decide +kernel⟩⟩

/-- The hypotheses of `Obligations.BudgetSheddingAndRestores` can be met (its clauses on this subject). -/
theorem test_budgetManager :
    (∃ (inA : Nat) (inB : Nat) (preMw : Nat) (loads : List Load) (hs : List (Fin 4 × Nat)) (s : State), s.chip.fwRuns = true ∧
      s.chip.sys.halted = false ∧
      let c := coilLoads loads s.chip;
      ((∀ f, f < 4 → feedMa c loads inA inB f ≤ feedLimit s.regs f * 1000 ∧ (s.chip.feed f).overRaised = false)) ∧ moduleMw c loads hs preMw
      ≤ dissLimit s.regs * 1000 ∧ s.chip.budget.overRaised = false ∧ s.chip.ycOff = true) ∧
    (∃ (_ : Nat) (_ : Nat) (_ : Nat) (s : State), s.chip.fwRuns = true ∧ s.chip.sys.halted = false ∧ s.chip.ycOff = false) ∧
    (∃ (inA : Nat) (inB : Nat) (_ : Nat) (loads : List Load) (_ : List (Fin 4 × Nat)) (s : State), s.chip.fwRuns = true ∧ s.chip.sys.halted
      = false ∧ 9 ≤ (s.chip.feed 0).overN ∧ (s.chip.feed 0).overRaised = false ∧
      let a := feedMa (coilLoads loads s.chip) loads inA inB 0;
      feedLimit s.regs 0 * 1000 < a) ∧
    (∃ (s : State), s.chip.sys.halted = false) :=
  ⟨⟨10, 20, 30, [], [], onSys up fun y => { y with ycUse := false }, by decide +kernel⟩,
    ⟨7, 8, 9, on up fun c => { c.setLoop 0 { st := .moving } with budget := { clampUj := 5 } }, by decide +kernel⟩,
    ⟨feedLimit (on up fun c => c.setFeed 0 { c.feed 0 with overN := 9 } : State).regs 0 * 1000 + 1, 0, 0, [], [], on up fun c => c.setFeed 0
      { c.feed 0 with overN := 9 }, by decide +kernel⟩,
    ⟨on up fun c => { c with budget := { c.budget with resv := [{ id := 1, feed := 0, dI := 30, dP := 4 }] } }, by decide +kernel⟩⟩

/-- The hypotheses of `Obligations.CtlResets` can be met. -/
theorem test_ctlResets :
    (∃ (s : State), s.chip.powered = true) :=
  ⟨up, by decide +kernel⟩

/-- The hypotheses of `Obligations.CtlResets` can be met (its clauses on this subject). -/
theorem test_resetCauseRegister :
    (∃ (via : Fin 2) (s : State), hostReach s.chip via.val = true) ∧
    (∃ (via : Fin 2) (_ : Fin 4294967296) (s : State), hostReach s.chip via.val = true) ∧
    (∃ (mv : Nat) (s : State), s.chip.sys.aon = false ∧ 3500 ≤ mv) ∧
    (∃ (k : Int) (s : State), s.chip.powered = true ∧ 145000 ≤ k ∧ 0 < s.chip.sys.hotRun) :=
  ⟨⟨0, onSys up fun y => { y with causes := 0x101, count := 255 }, by decide +kernel⟩,
    ⟨0, 0xFFFFFF03, onSys up fun y => { y with causes := 0x107, count := 9 }, by decide +kernel⟩,
    ⟨3500, State.reset, by decide +kernel⟩,
    ⟨145000, onSys up fun y => { y with hotRun := 1, causes := 1, count := 255 }, by decide +kernel⟩⟩

/-- The hypotheses of `Obligations.TemperaturesAndCrystals` can be met (its clauses on this subject). -/
theorem test_temperatures :
    (∃ (k : Int) (s : State), s.chip.powered = true ∧ s.chip.ctlRuns = true ∧ 135000 ≤ k ∧ k < 145000 ∧ s.chip.sys.hot = false) ∧
    (∃ (k : Int) (s : State), s.chip.powered = true ∧ s.chip.ctlRuns = true ∧ k < 130000 ∧ s.chip.sys.hot = true) ∧
    (∃ (k : Int) (s : State), s.chip.powered = true ∧ 145000 ≤ k ∧ 0 < s.chip.sys.hotRun) ∧
    (∃ (_ : Int) (s : State), s.chip.sys.thermHold = true) ∧
    (∃ (k : Int) (s : State), s.chip.powered = true ∧ (k < 145000 ∨ s.chip.sys.hotRun = 0)) ∧
    (∃ (_ : Int) (s : State), s.chip.sys.thermHold = false) :=
  ⟨⟨135000, up, by decide +kernel⟩,
    ⟨129999, onSys up fun y => { y with hot := true }, by decide +kernel⟩,
    ⟨145000, onSys up fun y => { y with hotRun := 1 }, by decide +kernel⟩,
    ⟨125000, onSys State.reset fun y => { y with thermHold := true }, by decide +kernel⟩,
    ⟨132000, up, by decide +kernel⟩,
    ⟨3, up, by decide +kernel⟩⟩

/-- The hypotheses of `Obligations.TemperaturesAndCrystals` can be met (its clauses on this subject). -/
theorem test_crystals :
    (∃ (s : State), s.chip.sys.xtal40 = true ∧ s.chip.powered = true) ∧
    (∃ (s : State), s.chip.sys.aon = true ∧ ((∀ n, n < 18 → (s.chip.seg n).st ≠ .validating))) ∧
    (∃ (s : State), s.chip.sys.xtal32 = true) ∧
    (∃ (s : State), s.chip.sys.aon = true) ∧
    (∃ (s : State), s.chip.awake = true ∧ s.chip.sys.xtal32 = false) ∧
    (∃ (s : State), s.chip.sys.aon = true) ∧
    (∃ (s : State), s.chip.sys.xtal40 = true ∧ s.chip.powered = false) :=
  ⟨⟨up, by decide +kernel⟩,
    ⟨onSys up fun y => { y with xtal40 := false, wnaRc := true }, by decide +kernel⟩,
    ⟨up, by decide +kernel⟩,
    ⟨onSys up fun y => { y with xtal32 := false }, by decide +kernel⟩,
    ⟨onSys up fun y => { y with xtal32 := false }, by decide +kernel⟩,
    ⟨on (onSys up fun y => { y with xtal40 := false, wnaRc := true }) fun c => c.setSeg 2 { st := .validating }, by decide +kernel⟩,
    ⟨onSys State.reset fun y => { y with xtal40 := true }, by decide +kernel⟩⟩

/-- The hypotheses of `Obligations.StartOfCtl` can be met (its clauses on this subject). -/
theorem test_ctlReleased :
    (∃ (s : State), s.chip.sys.ctl = .held ∧ s.chip.sys.aon = true ∧ s.chip.sys.prereg = true ∧ s.chip.sys.thermHold = false) ∧
    (∃ (s : State), (s.chip.sys.ctl ≠ .held ∨ s.chip.sys.aon = false ∨ s.chip.sys.prereg = false ∨ s.chip.sys.thermHold = true)) :=
  ⟨⟨onSys up fun y => { y with ctl := .held }, by decide +kernel⟩,
    ⟨up, by decide +kernel⟩⟩

/-- The hypotheses of `Obligations.StartOfCtl` can be met (its clauses on this subject). -/
theorem test_bootLoaderChoices :
    (∃ (_ : Fin 8) (_ : Fin 8) (s : State), s.chip.sys.ctl = .bist) ∧
    (∃ (_ : Fin 8) (_ : Fin 8) (s : State), s.chip.sys.ctl = .bist ∧ s.chip.upd.jr.st = 3) ∧
    (∃ (_ : Fin 8) (_ : Fin 8) (s : State), s.chip.sys.ctl = .bist ∧ s.chip.upd.jr.st = 2) ∧
    (∃ (_ : Fin 8) (s : State), s.chip.sys.ctl = .bist ∧ s.chip.upd.jr.st = 0 ∧ s.mram.exec = [] ∧ (settingsOf s.chip.upd 0).isSome = true) ∧
    (∃ (exe : Fin 8) (s : State), s.chip.sys.ctl = .bist ∧ s.chip.upd.jr.st = 0 ∧ s.mram.exec = [] ∧ s.mram.stage = [] ∧ exe.val ≠ 0) ∧
    (∃ (exe : Fin 8) (stage : Fin 8) (s : State), s.chip.sys.ctl = .bist ∧ s.chip.upd.jr.st = 0 ∧ s.mram.exec = [] ∧ s.mram.stage = [] ∧
      exe.val ≠ 0 ∧ stage.val ≠ 0) ∧
    (∃ (_ : Fin 8) (_ : Fin 8) (s : State), s.chip.sys.ctl = .bist ∧ s.chip.upd.jr.st = 6) ∧
    (∃ (_ : Fin 8) (_ : Fin 8) (s : State), s.chip.sys.ctl = .bist ∧ (s.chip.upd.jr.st = 5 ∨ (s.chip.upd.jr.st = 4 ∧ s.chip.upd.noteB = true
      ∧ 3 ≤ s.chip.upd.jr.boots))) ∧
    (∃ (_ : Fin 8) (_ : Fin 8) (s : State), s.chip.sys.ctl = .bist ∧ s.chip.upd.jr.st = 7) ∧
    (∃ (exe : Fin 8) (_ : Fin 8) (s : State), s.chip.sys.ctl = .bist ∧ (s.chip.upd.jr.st ≤ 1 ∨ s.chip.upd.jr.st = 4) ∧ ((s.chip.upd.jr.st =
      4 ∧ s.chip.upd.noteB = true → s.chip.upd.jr.boots < 3)) ∧ slotReason s.chip s.mram.exec exe.val = 0) ∧
    (∃ (exe : Fin 8) (stage : Fin 8) (s : State), s.chip.sys.ctl = .bist ∧ (s.chip.upd.jr.st ≤ 1 ∨ s.chip.upd.jr.st = 4) ∧
      ((s.chip.upd.jr.st = 4 ∧ s.chip.upd.noteB = true → s.chip.upd.jr.boots < 3)) ∧ slotReason s.chip s.mram.exec exe.val ≠ 0 ∧ slotReason
      s.chip s.mram.stage stage.val = 0) ∧
    (∃ (exe : Fin 8) (stage : Fin 8) (s : State), s.chip.sys.ctl = .bist ∧ (s.chip.upd.jr.st ≤ 1 ∨ s.chip.upd.jr.st = 4) ∧
      ((s.chip.upd.jr.st = 4 ∧ s.chip.upd.noteB = true → s.chip.upd.jr.boots < 3)) ∧ slotReason s.chip s.mram.exec exe.val ≠ 0 ∧ slotReason
      s.chip s.mram.stage stage.val ≠ 0) :=
  ⟨⟨7, 0, onSys up fun y => { y with ctl := .bist }, by decide +kernel⟩,
    ⟨7, 0, on (onSys up fun y => { y with ctl := .bist }) fun c => { c with upd := { c.upd with jr := { c.upd.jr with st := 3 } } }, by
      decide +kernel⟩,
    ⟨7, 0, on (onSys up fun y => { y with ctl := .bist }) fun c => { c with upd := { c.upd with jr := { c.upd.jr with st := 2 } } }, by
      decide +kernel⟩,
    ⟨7, on (onSys up fun y => { y with ctl := .bist }) fun c => { c with upd := { c.upd with setA := { valid := true } } }, by
      decide +kernel⟩,
    ⟨1, onSys up fun y => { y with ctl := .bist, lock := false }, by decide +kernel⟩,
    ⟨7, 1, onSys up fun y => { y with ctl := .bist, lock := false }, by decide +kernel⟩,
    ⟨7, 0, on (onSys up fun y => { y with ctl := .bist }) fun c =>
      { c with upd := { c.upd with jr := { c.upd.jr with st := 6, boots := 3 } } }, by decide +kernel⟩,
    ⟨7, 0, on (onSys up fun y => { y with ctl := .bist }) fun c =>
      { c with upd := { c.upd with noteB := true, jr := { c.upd.jr with st := 4, boots := 3 } } }, by decide +kernel⟩,
    ⟨7, 0, on (onSys up fun y => { y with ctl := .bist }) fun c => { c with upd := { c.upd with jr := { c.upd.jr with st := 7 } } }, by
      decide +kernel⟩,
    ⟨0, 1, on (onSys up fun y => { y with ctl := .bist }) fun c =>
      { c with upd := { c.upd with noteB := true, jr := { c.upd.jr with st := 4, boots := 2 } } }, by decide +kernel⟩,
    ⟨5, 0, on (onSys up fun y => { y with ctl := .bist }) fun c => { c with upd := { c.upd with jr := { c.upd.jr with st := 1 } } }, by
      decide +kernel⟩,
    ⟨5, 7, on (onSys up fun y => { y with ctl := .bist }) fun c => { c with upd := { c.upd with jr := { c.upd.jr with st := 1 } } }, by
      decide +kernel⟩⟩

/-- The hypotheses of `Obligations.StartOfCtl` can be met (its clauses on this subject). -/
theorem test_firmwareStarts :
    (∃ (s : State), s.chip.sys.ctl = .firmware) ∧
    (∃ (s : State), s.chip.sys.ctl = .firmware ∧ (settingsOf s.chip.upd s.chip.upd.setFmt).getD {} = {}) ∧
    (∃ (x : Settings) (off : Nat) (v : Nat) (w : RegRow) (s : State), s.chip.sys.ctl = .firmware ∧ settingsOf s.chip.upd s.chip.upd.setFmt =
      some x ∧ x.words = [(off, v)] ∧ regRow off = some w ∧ 0x8000 ≤ off ∧ (off < 0x30000 ∨ 0x30400 ≤ off) ∧ coefWord off = none ∧ regAbsent
      s.chip off = false) :=
  ⟨⟨onSys down fun y => { y with ctl := .firmware, lock := false }, by decide +kernel⟩,
    ⟨onSys down fun y => { y with ctl := .firmware, lock := false }, by decide +kernel⟩,
    ⟨{ valid := true, words := [(Reg.POWER_CFG, 0x101)] }, Reg.POWER_CFG, 0x101, (regRow (Reg.POWER_CFG : Nat)).get (by decide +kernel), on
      (onSys down fun y => { y with ctl := .firmware, lock := false }) fun c =>
      { c with upd := { c.upd with setA := { valid := true, words := [(Reg.POWER_CFG, 0x101)] } } }, by decide +kernel⟩⟩

/-- The hypotheses of `Obligations.AdoptionAndStandby` can be met (its clauses on this subject). -/
theorem test_adoptionReadsBack :
    (∃ (y : Fin 4) (corrupt : List (Fin 125)) (s : State), ((s.chip.sys.ctl = .start ∧ (s.chip.yard y.val).adopted = false) ∨ (s.chip.fwRuns
      = true ∧ (s.chip.yard y.val).adopting = true)) ∧ yardPresent s.chip y.val = true ∧ (s.chip.yard y.val).unreach = false ∧ (s.chip.yard
      y.val).readback = false ∧ (s.chip.yard y.val).supplied = true ∧ (s.chip.yard y.val).cleared = false ∧ corrupt = [] ∧ (y.val ≠ 3 ∨
      s.chip.parked = false)) ∧
    (∃ (y : Fin 4) (corrupt : List (Fin 125)) (s : State), ((s.chip.sys.ctl = .start ∧ (s.chip.yard y.val).adopted = false) ∨ (s.chip.fwRuns
      = true ∧ (s.chip.yard y.val).adopting = true)) ∧ yardPresent s.chip y.val = true ∧ (s.chip.yard y.val).unreach = false ∧ (s.chip.yard
      y.val).readback = false ∧ (s.chip.yard y.val).supplied = true ∧ (s.chip.yard y.val).cleared = false ∧ ((∃ src ∈ corrupt, src.val ∈
      yardOutputs s.regs s.chip y.val)) ∧ (y.val ≠ 3 ∨ s.chip.parked = false)) ∧
    (∃ (y : Fin 4) (_ : List (Fin 125)) (s : State), ((s.chip.sys.ctl = .start ∧ (s.chip.yard y.val).adopted = false) ∨ (s.chip.fwRuns =
      true ∧ (s.chip.yard y.val).adopting = true)) ∧ yardPresent s.chip y.val = true ∧ (s.chip.yard y.val).unreach = false ∧ (s.chip.yard
      y.val).readback = false ∧ (s.chip.yard y.val).supplied = true ∧ (s.chip.yard y.val).cleared = true) ∧
    (∃ (y : Fin 4) (_ : List (Fin 125)) (s : State), ((s.chip.sys.ctl = .start ∧ (s.chip.yard y.val).adopted = false) ∨ (s.chip.fwRuns =
      true ∧ (s.chip.yard y.val).adopting = true)) ∧ yardPresent s.chip y.val = true ∧ (s.chip.yard y.val).unreach = false ∧ (s.chip.yard
      y.val).readback = false ∧ (s.chip.yard y.val).supplied = false) :=
  ⟨⟨0, [], down, by decide +kernel⟩,
    ⟨3, [64], down, by decide +kernel⟩,
    ⟨1, [], on down fun c => c.setYard 1 { c.yard 1 with cleared := true }, by decide +kernel⟩,
    ⟨2, [], on down fun c => c.setYard 2 { c.yard 2 with supplied := false }, by decide +kernel⟩⟩

/-- The hypotheses of `Obligations.AdoptionAndStandby` can be met (its clauses on this subject). -/
theorem test_adoptionEnds :
    (∃ (y : Fin 4) (s : State), s.chip.fwRuns = true ∧ (s.chip.yard y.val).adopting = true ∧ (s.chip.yard y.val).readback = true ∧
      (s.chip.yard y.val).supplied = true ∧ NoneHeld s) :=
  ⟨3, on down fun c => c.setYard 3 { c.yard 3 with adopting := true, readback := true, cleared := true, frames := [{}] }, by decide +kernel⟩

/-- The hypotheses of `Obligations.AdoptionAndStandby` can be met (its clauses on this subject). -/
theorem test_standbyReached :
    (∃ (s : State), s.chip.sys.ctl = .start ∧ ((∀ y, y < 4 → yardPresent s.chip y = true → (s.chip.yard y).adopted = true ∨ (s.chip.yard
      y).unreach = true))) ∧
    (∃ (s : State), s.chip.sys.ctl ≠ .start) :=
  ⟨⟨on down fun c => { c with yards := c.yards.map fun e => (e.1, { e.2 with adopted := e.1 != 1, unreach := e.1 == 1 }) }, by
      decide +kernel⟩,
    ⟨up, by decide +kernel⟩⟩

/-- The hypotheses of `Obligations.DebugHaltAndUnlock` can be met (its clauses on this subject). -/
theorem test_debugHaltAndRelease :
    (∃ (secure : Bool) (s : State), s.chip.fwRuns = true ∧ s.chip.sys.halted = false ∧ (if secure then s.chip.sys.unlocked else bit
      (s.regs.c Reg.DEBUG_CFG) 0) = true) ∧
    (∃ (secure : Bool) (s : State), s.chip.fwRuns = true ∧ s.chip.sys.halted = false ∧ (if secure then s.chip.sys.unlocked else bit
      (s.regs.c Reg.DEBUG_CFG) 0) = false) ∧
    (∃ (s : State), s.chip.sys.halted = true ∧ s.chip.jobs = [] ∧ s.chip.acc.queue = [] ∧ s.chip.ports = [] ∧ s.chip.sys.sleepTo = none) ∧
    (∃ (s : State), s.chip.sys.halted = false) ∧
    (∃ (s : State), s.chip.sys.halted = true) :=
  ⟨⟨true, onSys up fun y => { y with unlocked := true }, by decide +kernel⟩,
    ⟨true, setC [(Reg.DEBUG_CFG, 1)] up, by decide +kernel⟩,
    ⟨onSys up fun y => { y with halted := true }, by decide +kernel⟩,
    ⟨up, by decide +kernel⟩,
    ⟨onSys up fun y => { y with halted := true }, by decide +kernel⟩⟩

/-- The hypotheses of `Obligations.DebugHaltAndUnlock` can be met (its clauses on this subject). -/
theorem test_secureDebugUnlock :
    (∃ (_ : Nat) (_ : Nat) (s : State), s.chip.ctlRuns = true ∧ s.chip.sys.refuse = false) ∧
    (∃ (_ : Nat) (_ : Nat) (s : State), s.chip.ctlRuns = true ∧ s.chip.sys.refuse = true) ∧
    (∃ (s : State), s.chip.sys.refuseT + 10000000000 ≤ s.chip.now) ∧
    (∃ (s : State), s.chip.now < s.chip.sys.refuseT + 10000000000) :=
  ⟨⟨1, 2, up, by decide +kernel⟩,
    ⟨1, 2, onSys up fun y => { y with refuse := true }, by decide +kernel⟩,
    ⟨on (onSys up fun y => { y with refuse := true, refuseT := 1000 }) fun c => { c with now := 10000001000 }, by decide +kernel⟩,
    ⟨on (onSys up fun y => { y with refuse := true, refuseT := 1000 }) fun c => { c with now := 10000000999 }, by decide +kernel⟩⟩

/-- The hypotheses of `Obligations.GuylineFrames` can be met (its clauses on this subject). -/
theorem test_commandFrames :
    (∃ (y : Fin 4) (f : Frame) (l : List Frame) (s : State), (s.chip.yard y.val).supplied = true ∧ (s.chip.yard y.val).frames = f :: l ∧
      f.seq = (s.chip.yard y.val).nextExec ∧ 0 < f.tx ∧ f.done = false ∧ f.ack = false ∧ f.who = none ∧ ((∀ g ∈ l, g.seq ≠ f.seq ∧ g.rx =
      false ∧ g.done = false)) ∧ NoneHeld s ∧ f.off ≠ 0) ∧
    (∃ (y : Fin 4) (f : Frame) (s : State), (s.chip.yard y.val).supplied = true ∧ (s.chip.yard y.val).frames = [f] ∧ f.seq < (s.chip.yard
      y.val).nextExec ∧ 0 < f.tx ∧ f.done = true ∧ f.ack = false ∧ NoneHeld s) ∧
    (∃ (y : Fin 4) (f : Frame) (g : Frame) (s : State), (s.chip.yard y.val).supplied = true ∧ frameOf (s.chip.yard y.val) f.seq = some f ∧ 0
      < f.tx ∧ frameOf (s.chip.yard y.val) (s.chip.yard y.val).nextExec = some g ∧ g.seq ≠ f.seq ∧ g.rx = false ∧ g.done = false ∧ NoneHeld
      s) ∧
    (∃ (y : Fin 4) (seq : Nat) (s : State), ((s.chip.yard y.val).supplied = false ∨ (frameOf (s.chip.yard y.val) seq = none ∧ (s.chip.yard
      y.val).nextSeq ≤ seq)) ∧ NoneHeld s) :=
  ⟨⟨0, { seq := 0, off := Reg.STALL_CFG 0, val := 55 }, [], on up fun c => c.setYard 0
      { c.yard 0 with frames := [{ seq := 0, off := Reg.STALL_CFG 0, val := 55 }], nextSeq := 1 }, by decide +kernel⟩,
    ⟨1, { seq := 7, done := true, rx := true }, on up fun c => c.setYard 1
      { c.yard 1 with frames := [{ seq := 7, done := true, rx := true }], nextSeq := 8, nextExec := 8 }, by decide +kernel⟩,
    ⟨1, { seq := 8 }, { seq := 7 }, on up fun c => c.setYard 1
      { c.yard 1 with frames := [{ seq := 7 }, { seq := 8 }], nextSeq := 9, nextExec := 7 }, by decide +kernel⟩,
    ⟨2, 3, up, by decide +kernel⟩⟩

/-- The hypotheses of `Obligations.GuylineFrames` can be met (its clauses on this subject). -/
theorem test_acknowledgedOrRepeated :
    (∃ (y : Fin 4) (f : Frame) (l : List Frame) (j : Job) (st : Nat) (res : Nat) (time : Nat) (s : State), (s.chip.yard y.val).frames = f ::
      l ∧ f.done = true ∧ ((∀ g ∈ l, g.seq ≠ f.seq ∧ 0 < g.tx ∧ (g.ack && g.done) = false)) ∧ s.chip.jobs = [j] ∧ j.unack = [(y.val, f.seq)]
      ∧ j.outc = some (st, res, time) ∧ j.drop = false ∧ j.turn = none ∧ (j.h.ncos && st == St.ok) = false ∧ (s.chip.ring j.h.pf.val).dmaOk
      = true ∧ (st < 0x10 ∨ 0x16 < st ∨ resultKept j.op = true ∨ res = 0)) ∧
    (∃ (y : Fin 4) (f : Frame) (l : List Frame) (s : State), (s.chip.yard y.val).frames = f :: l ∧ ((∀ g ∈ l, g.seq ≠ f.seq)) ∧ (f.tx = 1 ∨
      f.tx = 2 ∨ f.tx = 3) ∧ f.ack = false ∧ yardCommandable s.chip y.val = true ∧ s.chip.fwRuns = true) ∧
    (∃ (y : Fin 4) (f : Frame) (s : State), frameOf (s.chip.yard y.val) f.seq = some f ∧ f.tx = 4 ∧ f.ack = false ∧ yardCommandable s.chip
      y.val = true ∧ s.chip.fwRuns = true) ∧
    (∃ (y : Fin 4) (_ : Nat) (s : State), yardCommandable s.chip y.val = false) ∧
    (∃ (y : Fin 4) (f : Frame) (l : List Frame) (s : State), (s.chip.yard y.val).frames = f :: l ∧ (f.rx = true ∨ f.done = true) ∧ ((∀ g ∈
      l, g.seq ≠ f.seq ∧ 0 < g.tx ∧ (g.ack && g.done) = false)) ∧ ((∀ j ∈ s.chip.jobs, (y.val, f.seq) ∉ j.unack))) :=
  ⟨⟨1, { seq := 7, done := true, rx := true }, [], { id := 9, unack := [(1, 7)], outc := some (0, 5, 77), h := { pf := 1, tag := 3 } }, 0,
      5, 77, on up fun c =>
      { c.setYard 1 { c.yard 1 with frames := [{ seq := 7, done := true, rx := true }], nextSeq := 8, nextExec := 8 } with jobs := [{ id := 9, unack := [(1, 7)], outc := some (0, 5, 77), h := { pf := 1, tag := 3 } }] },
      by decide +kernel⟩,
    ⟨1, { seq := 7, tx := 3 }, [], on up fun c => c.setYard 1
      { c.yard 1 with frames := [{ seq := 7, tx := 3 }], nextSeq := 8, nextExec := 7 }, by decide +kernel⟩,
    ⟨3, { seq := 65536, tx := 4 }, on up fun c => c.setYard 3 { c.yard 3 with frames := [{ seq := 65536, tx := 4 }] }, by decide +kernel⟩,
    ⟨3, 1, on up fun c => c.setYard 3 { c.yard 3 with unreach := true }, by decide +kernel⟩,
    ⟨1, { seq := 7, rx := true }, [], on up fun c => c.setYard 1
      { c.yard 1 with frames := [{ seq := 7, rx := true }], nextSeq := 8, nextExec := 7 }, by decide +kernel⟩⟩

/-- The hypotheses of `Obligations.GuylineFrames` can be met (its clauses on this subject). -/
theorem test_statusMirrors :
    (∃ (y : Fin 4) (s : State), (s.chip.yard y.val).supplied = true ∧ s.chip.sys.ctl ≠ .off) ∧
    (∃ (y : Fin 4) (ev : Ev) (s : State), (s.chip.yard y.val).mirrorUp = true ∧ s.chip.fwRuns = true ∧ yardPresent s.chip y.val = true ∧
      (s.chip.yard y.val).adopted = true ∧ (s.chip.yard y.val).unreach = false ∧ (s.chip.yard y.val).cleared = false ∧ (s.chip.yard
      y.val).resetting = false ∧ (s.chip.yard y.val).defer = [] ∧ (s.chip.yard y.val).evTx = [ev] ∧ (s.chip.yard y.val).resTx = [] ∧
      neverRaised s.chip ev.src = false ∧ NoneHeld s) ∧
    (∃ (y : Fin 4) (x : YRes) (j : Job) (s : State), (s.chip.yard y.val).mirrorUp = true ∧ s.chip.fwRuns = true ∧ yardPresent s.chip y.val =
      true ∧ (s.chip.yard y.val).adopted = true ∧ (s.chip.yard y.val).unreach = false ∧ (s.chip.yard y.val).cleared = false ∧ (s.chip.yard
      y.val).resetting = false ∧ (s.chip.yard y.val).defer = [] ∧ (s.chip.yard y.val).evTx = [] ∧ (s.chip.yard y.val).resTx = [x] ∧ x.step =
      none ∧ x.job = j.id ∧ OnlyJob s j ∧ j.held = false ∧ j.unack = [] ∧ j.turn = none ∧ (x.st < 0x10 ∨ 0x16 < x.st ∨ resultKept j.op =
      true ∨ x.res = 0)) ∧
    (∃ (y : Fin 4) (s : State), (s.chip.yard y.val).mirrorUp = true ∧ s.chip.fwRuns = true ∧ yardPresent s.chip y.val = true ∧ (s.chip.yard
      y.val).unreach = true ∧ (s.chip.yard y.val).evTx = [] ∧ (s.chip.yard y.val).resTx = [] ∧ NoneHeld s) ∧
    (∃ (y : Fin 4) (s : State), (s.chip.yard y.val).mirrorUp = true ∧ s.chip.fwRuns = true ∧ yardPresent s.chip y.val = true ∧ (s.chip.yard
      y.val).unreach = false ∧ (s.chip.yard y.val).adopted = false ∧ (s.chip.yard y.val).readback = false ∧ NoneHeld s) ∧
    (∃ (y : Fin 4) (s : State), (s.chip.yard y.val).mirrorUp = true ∧ s.chip.fwRuns = true ∧ yardPresent s.chip y.val = true ∧ NoneHeld s) ∧
    (∃ (y : Fin 4) (s : State), ((s.chip.yard y.val).mirrorUp = false ∨ s.chip.fwRuns = false ∨ yardPresent s.chip y.val = false) ∧ NoneHeld
      s) :=
  ⟨⟨2, on up fun c => c.setYard 2 { c.yard 2 with evq := [{ src := 48 }], results := [{}] }, by decide +kernel⟩,
    ⟨0, { src := 5, cls := 2, pay := 1, t := 4 }, on up fun c => c.setYard 0
      { c.yard 0 with mirrorUp := true, evTx := [{ src := 5, cls := 2, pay := 1, t := 4 }] }, by decide +kernel⟩,
    ⟨0, { job := 9, st := 0, res := 5, t := 77 }, { id := 9, h := { pf := 1, tag := 3 } }, on up fun c =>
      { c.setYard 0 { c.yard 0 with mirrorUp := true, resTx := [{ job := 9, st := 0, res := 5, t := 77 }] } with jobs := [{ id := 9, h := { pf := 1, tag := 3 } }] },
      by decide +kernel⟩,
    ⟨1, on up fun c => c.setYard 1 { c.yard 1 with mirrorUp := true, unreach := true }, by decide +kernel⟩,
    ⟨1, on down fun c => c.setYard 1 { c.yard 1 with mirrorUp := true, evTx := [{ src := 33 }] }, by decide +kernel⟩,
    ⟨3, on up fun c => c.setYard 3 { c.yard 3 with mirrorUp := true }, by decide +kernel⟩,
    ⟨2, up, by decide +kernel⟩⟩

/-- The hypotheses of `Obligations.AbsenceAndSafeStates` can be met (its clauses on this subject). -/
theorem test_keepAlives :
    (∃ (y : Fin 5) (s : State), s.chip.fwRuns = true ∧ (y.val = 4 ∨ yardCommandable s.chip y.val = true)) ∧
    (∃ (y : Fin 5) (s : State), y.val ≠ 4 ∧ yardCommandable s.chip y.val = false) ∧
    (∃ (y : Fin 5) (s : State), y.val < 4 ∧ (s.chip.yard y.val).supplied = true) ∧
    (∃ (y : Fin 5) (s : State), y.val < 4 ∧ (s.chip.yard y.val).supplied = false) :=
  ⟨⟨4, up, by decide +kernel⟩,
    ⟨3, on up fun c => c.setYard 3 { c.yard 3 with unreach := true }, by decide +kernel⟩,
    ⟨1, on up fun c => (c.setYard 1 { c.yard 1 with ctlAbsent := true }).setSafe 24 { running := true }, by decide +kernel⟩,
    ⟨3, on up fun c => c.setYard 3 { c.yard 3 with supplied := false }, by decide +kernel⟩⟩

/-- The hypotheses of `Obligations.AbsenceAndSafeStates` can be met (its clauses on this subject). -/
theorem test_ctlAbsence :
    (∃ (y : Fin 5) (s : State), y.val < 3 ∧ (s.chip.yard y.val).supplied = true ∧ (s.chip.yard y.val).ctlAbsent = false ∧ NoneHeld s ∧ ((∀
      src ∈ yardOutputs s.regs s.chip y.val, policySafe s.regs s.chip src = true → 0 < safeDelay s.regs s.chip src))) ∧
    (∃ (y : Fin 5) (s : State), y.val < 4 ∧ (s.chip.yard y.val).wdArmed = false ∧ NoneHeld s) ∧
    (∃ (s : State), s.chip.sys.aon = true ∧ s.chip.parked = false ∧ NoneHeld s) ∧
    (∃ (y : Fin 5) (s : State), y.val < 4 ∧ (s.chip.yard y.val).supplied = true ∧ (s.chip.yard y.val).ctlAbsent = false) ∧
    (∃ (s : State), s.chip.sys.aon = true) ∧
    (∃ (y : Fin 5) (s : State), y.val < 4 ∧ (s.chip.yard y.val).supplied = true ∧ (s.chip.yard y.val).ctlAbsent = false ∧ (s.chip.yard
      y.val).wdArmed = true ∧ NoneHeld s) :=
  ⟨⟨0, setH [(Reg.STALL_POLICY 0, 0x2001)] up, by decide +kernel⟩,
    ⟨3, on up fun c => c.setYard 3 { c.yard 3 with wdArmed := false }, by decide +kernel⟩,
    ⟨up, by decide +kernel⟩,
    ⟨3, up, by decide +kernel⟩,
    ⟨up, by decide +kernel⟩,
    ⟨3, up, by decide +kernel⟩⟩

/-- The hypotheses of `Obligations.AbsenceAndSafeStates` can be met (its clauses on this subject). -/
theorem test_yardUnreachable :
    (∃ (y : Fin 4) (s : State), s.chip.fwRuns = true ∧ yardPresent s.chip y.val = true ∧ (s.chip.yard y.val).unreach = false ∧ (s.chip.yard
      y.val).adopted = true ∧ NoneWaits s ∧ ((∀ j ∈ s.chip.jobs, j.turn = none)) ∧ s.chip.sys.sleepTo = none ∧ s.chip.age.tests = [] ∧ y.val
      ≠ 3) ∧
    (∃ (y : Fin 4) (j : Job) (s : State), s.chip.fwRuns = true ∧ yardPresent s.chip y.val = true ∧ (s.chip.yard y.val).unreach = false ∧
      (s.chip.yard y.val).adopted = true ∧ NoneWaits s ∧ s.chip.sys.sleepTo = none ∧ s.chip.age.tests = [] ∧ y.val ≠ 3 ∧ OnlyJob s j ∧
      unitYard j.blk j.unit = some y.val ∧ j.waiting = false ∧ j.turn = none) ∧
    (∃ (y : Fin 4) (s : State), s.chip.fwRuns = true ∧ yardPresent s.chip y.val = true ∧ (s.chip.yard y.val).unreach = false ∧ ((s.chip.yard
      y.val).adopted = true ∨ (s.chip.yard y.val).adopting = true) ∧ s.chip.sys.sleepTo = none ∧ NoneHeld s) :=
  ⟨⟨2, up, by decide +kernel⟩,
    ⟨0, { id := 3, blk := 0x10, unit := 0, op := .stallSet {} 0 true true }, on up fun c =>
      { c with jobs := [{ id := 3, blk := 0x10, unit := 0, op := .stallSet {} 0 true true }] }, by decide +kernel⟩,
    ⟨3, up, by decide +kernel⟩⟩

/-- The hypotheses of `Obligations.AbsenceAndSafeStates` can be met (its clauses on this subject). -/
theorem test_safeDelayEnds :
    (∃ (src : Fin 125) (s : State), (src.val = 90 ∨ src.val = 91) ∧ (s.chip.safe src.val).running = true ∧ policySafe s.regs s.chip src.val
      = true ∧ unitTesting s.chip (srcBlock src.val) (srcUnit src.val) = false ∧ NoneHeld s ∧ (s.chip.boost (src.val - 90)).running = true ∧
      Safety.Reports 3 s) ∧
    (∃ (src : Fin 125) (s : State), 64 ≤ src.val ∧ src.val < 80 ∧ (s.chip.safe src.val).running = true ∧ policySafe s.regs s.chip src.val =
      true ∧ (s.chip.valve (src.val - 64)).phase = .idle ∧ (s.chip.valve (src.val - 64)).testing = false ∧ s.chip.seqs = [] ∧ NoneHeld s) ∧
    (∃ (src : Fin 125) (s : State), src.val < 64 ∧ (s.chip.safe src.val).running = true ∧ policySafe s.regs s.chip src.val = true ∧ bit
      (s.regs.h (Reg.STALL_POLICY src.val)) 14 = false ∧ (s.chip.stall src.val).st = .off ∧ (s.chip.stall src.val).crossTest = false ∧
      (s.chip.stall src.val).testing = false ∧ (s.chip.stall src.val).offJobs = [] ∧ (s.chip.stall src.val).diagJobs = [] ∧ (s.chip.stall
      src.val).job = none ∧ (s.chip.stall src.val).jobsP = [] ∧ Safety.Reports (stallYard src.val) s ∧ NoneHeld s) ∧
    (∃ (src : Fin 125) (s : State), (s.chip.safe src.val).running = false ∧ NoneHeld s) ∧
    (∃ (src : Fin 125) (s : State), (s.chip.safe src.val).running = true ∧ policySafe s.regs s.chip src.val = true ∧ ((src.val < 64 →
      (s.chip.stall src.val).crossTest = false)) ∧ NoneHeld s) ∧
    (∃ (src : Fin 125) (s : State), src.val < 64 ∧ (s.chip.safe src.val).running = true ∧ policySafe s.regs s.chip src.val = true ∧
      (s.chip.stall src.val).crossTest = true ∧ NoneHeld s) ∧
    (∃ (src : Fin 125) (s : State), src.val < 64 ∧ (s.chip.safe src.val).running = true ∧ policySafe s.regs s.chip src.val = true ∧ bit
      (s.regs.h (Reg.STALL_POLICY src.val)) 14 = false ∧ (s.chip.stall src.val).st = .on ∧ gang s.regs s.chip src.val = [src.val] ∧
      (s.chip.stall src.val).crossTest = false ∧ (s.chip.stall src.val).testing = false ∧ NoneHeld s) :=
  ⟨⟨91, on up fun c => (c.setSafe 91 { running := true }).setBoost 1 { running := true, pol := 0x2001 }, by decide +kernel⟩,
    ⟨79, setH [(Reg.VALVE_POLICY 15, 0x2001)] (on up fun c => c.setSafe 79 { running := true }), by decide +kernel⟩,
    ⟨63, setH [(Reg.STALL_POLICY 63, 0x2001)] (on up fun c => c.setSafe 63 { running := true }), by decide +kernel⟩,
    ⟨124, up, by decide +kernel⟩,
    ⟨64, setH [(Reg.VALVE_POLICY 0, 0x2001)] (on up fun c => c.setSafe 64 { running := true }), by decide +kernel⟩,
    ⟨63, setH [(Reg.STALL_POLICY 63, 0x2001)] (on up fun c => (c.setSafe 63 { running := true }).setStall 63
      { c.stall 63 with crossTest := true }), by decide +kernel⟩,
    ⟨0, setH [(Reg.STALL_POLICY 0, 0x2001)] (on up fun c => (c.setSafe 0 { running := true }).setStall 0
      { c.stall 0 with st := .on, req := true, out := true }), by decide +kernel⟩⟩

/-- The hypotheses of `Obligations.WakesOfTheModule` can be met (its clauses on this subject). -/
theorem test_wakes :
    (∃ (src : Fin 256) (_ : Fin 281474976710656) (s : State), s.chip.parked = true ∧ s.chip.sys.armed = true ∧ src.val < 173 ∧
      s.chip.sys.sleepTo = none ∧ s.chip.sys.wakeRec = [] ∧ s.chip.sys.wakePin = false ∧ s.chip.sys.ctl = .off ∧ s.chip.sys.prereg = true) ∧
    (∃ (t0 : Nat) (s : State), s.chip.acc.lfSearchT = some t0 ∧ s.chip.sys.power = .watch ∧ s.chip.mt.val ≤ t0 + 10000000 ∧ s.chip.sys.armed
      = true ∧ s.chip.sys.sleepTo = none ∧ s.chip.sys.wakeRec = [] ∧ s.chip.sys.wakePin = false ∧ s.chip.sys.ctl = .off ∧ s.chip.sys.prereg
      = true) ∧
    (∃ (src : Fin 256) (_ : Fin 281474976710656) (s : State), s.chip.parked = true ∧ s.chip.sys.armed = true ∧ (src.val < 173 ∨ 191 ≤
      src.val) ∧ s.chip.sys.sleepTo = none) ∧
    (∃ (src : Fin 256) (_ : Fin 281474976710656) (s : State), s.chip.parked = false ∧ s.chip.sys.wnaAbsent = true ∧ s.chip.sys.wnaWoke =
      false ∧ src.val < 173 ∧ s.chip.sys.sleepTo = none) :=
  ⟨⟨172, 0xFFFFFFFFFFFF, onSys up fun y => { y with power := .park, armed := true, ctl := .off }, by decide +kernel⟩,
    ⟨5000000, on (onSys up fun y => { y with power := .watch, armed := true, ctl := .off }) fun c =>
      { c with acc := { c.acc with lfSearchT := some 5000000 }, mt := { c.mt with val := 15000000 } }, by decide +kernel⟩,
    ⟨200, 0xFFFFFFFFFFFF, onSys up fun y => { y with power := .park, armed := true, ctl := .off }, by decide +kernel⟩,
    ⟨5, 0xFFFFFFFFFFFF, onSys up fun y => { y with wnaAbsent := true }, by decide +kernel⟩⟩

/-- The hypotheses of `Obligations.WakesOfTheModule` can be met (its clauses on this subject). -/
theorem test_lateWakeAborts :
    (∃ (src : Fin 256) (_ : Fin 281474976710656) (target : Power) (s : State) (j : Job), s.chip.sys.armed = true ∧ src.val < 173 ∧
      s.chip.parked = false ∧ s.chip.sys.sleepTo = some target ∧ s.chip.sys.sleepJob = some j.id ∧ s.chip.jobs = [j] ∧ j.drop = false ∧
      (s.chip.ring j.h.pf.val).dmaOk = true ∧ s.chip.sys.halted = false ∧ s.chip.sys.wnaAbsent = false) :=
  ⟨0, 1, .park, on (onSys up fun y => { y with armed := true, sleepTo := some .park, sleepJob := some 3 }) (fun c =>
    { c with jobs := [{ id := 3, op := .powerState {} 2 }], mt := { c.mt with src := .lf } }), { id := 3, op := .powerState {} 2 }, by
    decide +kernel⟩

/-- The hypotheses of `Obligations.StallSwitchesAndPwm` can be met (its clauses on this subject). -/
theorem test_stallSwitches :
    (∃ (h : Hdr) (u : Fin 64) (_ : Bool) (s : State), shedClass s.regs u.val = 0 ∧ (s.chip.stall u.val).st = .off ∧ AdmittedYard (stallDesc
      s 0x10 u.val) h (stallYard u.val) (checks56 s.regs s.chip 0x10 u.val ++ turnOnChecks s.regs s.chip u.val) s ∧ canStart s.regs s.chip
      u.val = true) ∧
    (∃ (h : Hdr) (u : Fin 64) (_ : Bool) (s : State), (s.chip.stall u.val).active = true ∧ (s.chip.stall u.val).out = true ∧ AdmittedYard
      (stallDesc s 0x10 u.val) h (stallYard u.val) (checks56 s.regs s.chip 0x10 u.val ++ [(u.val / 24 == 2 && s.chip.ycOff, St.supplyLow)])
      s) ∧
    (∃ (h : Hdr) (u : Fin 64) (_ : Bool) (s : State), (s.chip.stall u.val).st = .off ∧ (s.chip.stall u.val).falling = false ∧ AdmittedYard
      (stallDesc s 0x10 u.val) h (stallYard u.val) (checks56 s.regs s.chip 0x10 u.val ++ [(u.val / 24 == 2 && s.chip.ycOff, St.supplyLow)])
      s) ∧
    (∃ (h : Hdr) (u : Fin 64) (_ : Bool) (s : State), (s.chip.stall u.val).st = .off ∧ AdmittedYard (stallDesc s 0x10 u.val) h (stallYard
      u.val) (checks56 s.regs s.chip 0x10 u.val ++ turnOnChecks s.regs s.chip u.val) s ∧ canStart s.regs s.chip u.val = false) ∧
    (∃ (h : Hdr) (u : Fin 64) (_ : Bool) (s : State), staticInForce (s.chip.stall u.val) = true ∧ AdmittedYard (stallDesc s 0x10 u.val) h
      (stallYard u.val) (checks56 s.regs s.chip 0x10 u.val ++ [(authFails s.regs s.chip u.val, St.authFail)]) s) ∧
    (∃ (h : Hdr) (u : Fin 64) (_ : Bool) (s : State), ((s.chip.stall u.val).st = .wait ∨ (s.chip.stall u.val).st = .shed) ∧ (s.chip.stall
      u.val).falling = false ∧ AdmittedYard (stallDesc s 0x10 u.val) h (stallYard u.val) (checks56 s.regs s.chip 0x10 u.val ++ [(u.val / 24
      == 2 && s.chip.ycOff, St.supplyLow)]) s) :=
  ⟨⟨{}, 0, false, own 0x10 0 (setH [(Reg.STALL_POLICY 0, 0)] up), by decide +kernel⟩,
    ⟨{}, 23, false, own 0x10 23 (st 23 run6 up), by decide +kernel⟩,
    ⟨{ tag := 5 }, 24, false, own 0x10 24 up, by decide +kernel⟩,
    ⟨{}, 0, false, own 0x10 0 (setH [(Reg.STALL_POLICY 0, 0)] (st 0 { pauseEnd := 9000000 } up)), by decide +kernel⟩,
    ⟨{}, 1, true, own 0x10 1 (st 1 run6 up), by decide +kernel⟩,
    ⟨{}, 2, false, own 0x10 2 (st 2 { st := .wait, req := true } up), by decide +kernel⟩⟩

/-- The hypotheses of `Obligations.StallSwitchesAndPwm` can be met (its clauses on this subject). -/
theorem test_stallPwmAndProfiles :
    (∃ (h : Hdr) (u : Fin 64) (duty : Fin 131072) (s : State), 0 < duty.val ∧ duty.val < 0x10000 ∧ (s.chip.stall u.val).active = true ∧
      AdmittedYard (descStallPwm u duty s) h (stallYard u.val) (checks56 s.regs s.chip 0x10 u.val ++ checkSupply s.regs s.chip u.val ++
      [(authFails s.regs s.chip u.val, St.authFail)]) s) ∧
    (∃ (h : Hdr) (u : Fin 64) (slot : Fin 16) (s : State), ((∀ w, w < 8 → rowPending s.regs s.chip w = false)) ∧ AdmittedYard
      (descStallProfileSelect u slot s) h (stallYard u.val) (checks56 s.regs s.chip 0x10 u.val ++ [(u.val / 24 == 2 && s.chip.ycOff,
      St.supplyLow)]) s) ∧
    (∃ (h : Hdr) (u : Fin 64) (user : Bool) (addr : Nat) (pts : List (Nat × Nat)) (s : State), Admitted (descStallProfileLoadUser h u user
      addr pts s) h s ∧ ((∀ y, y < 4 → (s.chip.yard y).frames = [])) ∧ firstFail (checks56 s.regs s.chip 0x10 u.val ++ [(u.val / 24 == 2 &&
      s.chip.ycOff, St.supplyLow)]) = none ∧ ((∃ y : Fin 4, yardCommandable s.chip y.val = true))) ∧
    (∃ (h : Hdr) (u : Fin 64) (duty : Fin 131072) (s : State), 0 < duty.val ∧ duty.val < 0x10000 ∧ shedClass s.regs u.val = 0 ∧
      (s.chip.stall u.val).st = .off ∧ canStart s.regs s.chip u.val = true ∧ AdmittedYard (descStallPwm u duty s) h (stallYard u.val)
      (checks56 s.regs s.chip 0x10 u.val ++ turnOnChecks s.regs s.chip u.val) s) ∧
    (∃ (h : Hdr) (u : Fin 64) (s : State), (s.chip.stall u.val).st = .off ∧ (s.chip.stall u.val).falling = false ∧ AdmittedYard
      (descStallPwm u 0 s) h (stallYard u.val) (checks56 s.regs s.chip 0x10 u.val ++ [(u.val / 24 == 2 && s.chip.ycOff, St.supplyLow)]) s) ∧
    (∃ (h : Hdr) (u : Fin 64) (s : State), shedClass s.regs u.val = 0 ∧ (s.chip.stall u.val).st = .off ∧ canStart s.regs s.chip u.val = true
      ∧ AdmittedYard (descStallPwm u 0x10000 s) h (stallYard u.val) (checks56 s.regs s.chip 0x10 u.val ++ turnOnChecks s.regs s.chip u.val)
      s) :=
  ⟨⟨{}, 0, 1, own 0x10 0 (st 0 run6 up), by decide +kernel⟩,
    ⟨{}, 0, 8, own 0x10 0 (setH ((List.range 8).map fun w => (Reg.ROW_CFG w, 5)) (on up fun c => (List.range 8).foldl (fun c w => c.setRow w
      { cfg := 5 }) c)), by decide +kernel⟩,
    ⟨{}, 0, true, 0x100000000, [(0, 0x50), (16777215, 0x10)], own 0x10 0 up, by decide +kernel⟩,
    ⟨{}, 0, 1, own 0x10 0 (setH [(Reg.STALL_POLICY 0, 0)] up), by decide +kernel⟩,
    ⟨{}, 63, own 0x10 63 up, by decide +kernel⟩,
    ⟨{}, 0, own 0x10 0 (setH [(Reg.STALL_POLICY 0, 0)] up), by decide +kernel⟩⟩

/-- The hypotheses of `Obligations.StallClearAndDiag` can be met. -/
theorem test_stallClearAndDiag :
    (∃ (h : Hdr) (u : Fin 64) (_ : Bool) (s : State), (s.chip.stall u.val).st = .latched ∧ AdmittedYard (stallDesc s 0x13 u.val) h
      (stallYard u.val) (checks56 s.regs s.chip 0x10 u.val ++ [(u.val / 24 == 2 && s.chip.ycOff, St.supplyLow)]) s ∧ Safety.Reports
      (stallYard u.val) s) ∧
    (∃ (h : Hdr) (u : Fin 64) (_ : Bool) (s : State), (s.chip.stall u.val).st ≠ .latched ∧ AdmittedYard (stallDesc s 0x13 u.val) h
      (stallYard u.val) (checks56 s.regs s.chip 0x10 u.val ++ [(u.val / 24 == 2 && s.chip.ycOff, St.supplyLow)]) s) ∧
    (∃ (h : Hdr) (u : Fin 64) (addr : Nat) (s : State), (s.chip.ring h.fn).dmaOk = true ∧ AdmittedYard (descStallDiag u addr s) h (stallYard
      u.val) (checks56 s.regs s.chip 0x10 u.val ++ [(u.val / 24 == 2 && s.chip.ycOff, St.supplyLow)]) s ∧ addr ≠ 0) ∧
    (∃ (h : Hdr) (u : Fin 64) (addr : Nat) (s : State), (s.chip.stall u.val).active = false ∧ diagBand s.chip u.val = true ∧ (s.chip.stall
      u.val).crossTest = false ∧ AdmittedYard (descStallDiag u addr s) h (stallYard u.val) (checks56 s.regs s.chip 0x10 u.val ++ [(u.val /
      24 == 2 && s.chip.ycOff, St.supplyLow)]) s) ∧
    (∃ (h : Hdr) (u : Fin 64) (_ : Bool) (s : State), AdmittedYard (stallDesc s 0x13 u.val) h (stallYard u.val) (checks56 s.regs s.chip 0x10
      u.val ++ [(u.val / 24 == 2 && s.chip.ycOff, St.supplyLow)]) s) ∧
    (∃ (h : Hdr) (u : Fin 64) (addr : Nat) (s : State), ((s.chip.stall u.val).active = true ∨ diagBand s.chip u.val = false ∨ (s.chip.stall
      u.val).crossTest = true) ∧ AdmittedYard (descStallDiag u addr s) h (stallYard u.val) (checks56 s.regs s.chip 0x10 u.val ++ [(u.val /
      24 == 2 && s.chip.ycOff, St.supplyLow)]) s) :=
  ⟨⟨{}, 7, false, own 0x10 7 (st 7 { st := .latched, latchTh := true, att := 5, th := 3 } up), by decide +kernel⟩,
    ⟨{}, 8, true, own 0x10 8 (st 8 { run6 with att := 2, onLow := true } up), by decide +kernel⟩,
    ⟨{ pf := 0 }, 63, 0x100000000, own 0x10 63 (st 63 run6 up), by decide +kernel⟩,
    ⟨{}, 9, 0, own 0x10 9 up, by decide +kernel⟩,
    ⟨{}, 7, false, own 0x10 7 (st 8 { cross := 0x80 } (st 7 { st := .latched, cross := 0x100 } up)), by decide +kernel⟩,
    ⟨{}, 7, 0x100000000, own 0x10 7 (st 7 run6 up), by decide +kernel⟩⟩

/-- The hypotheses of `Obligations.StallTripsAndWireModel` can be met (its clauses on this subject). -/
theorem test_stallTrips :
    (∃ (u : Fin 64) (ma : Nat) (s : State), ((s.chip.stall (leader s.regs s.chip u.val)).st = .inrush ∨ (s.chip.stall (leader s.regs s.chip
      u.val)).st = .on) ∧ (s.chip.stall (leader s.regs s.chip u.val)).limNow < ma ∧ NoneHeld s) ∧
    (∃ (u : Fin 64) (ma : Nat) (_ : Nat) (s : State), (s.chip.stall (leader s.regs s.chip u.val)).active = true ∧ scThreshold (s.chip.stall
      (leader s.regs s.chip u.val)) (leader s.regs s.chip u.val) < ma ∧ NoneHeld s) ∧
    (∃ (u : Fin 64) (s : State), (s.chip.stall (leader s.regs s.chip u.val)).active = true ∧ tripHot s.regs s.chip u.val = true ∧ NoneHeld
      s) ∧
    (∃ (u : Fin 64) (s : State), (s.chip.stall (leader s.regs s.chip u.val)).active = true ∧ NoneHeld s) ∧
    (∃ (u : Fin 64) (s : State), (s.chip.stall u.val).st = .ramp ∧ NoneHeld s) ∧
    (∃ (u : Fin 64) (ma : Nat) (_ : Nat) (s : State), (s.chip.stall (leader s.regs s.chip u.val)).active = false ∧ (s.chip.stall (leader
      s.regs s.chip u.val)).falling = true ∧ scThreshold (s.chip.stall (leader s.regs s.chip u.val)) (leader s.regs s.chip u.val) < ma ∧
      NoneHeld s) :=
  ⟨⟨0, 10001, st 0 run6 up, by decide +kernel⟩,
    ⟨1, 80000, 100, st 1 run6 up, by decide +kernel⟩,
    ⟨2, st 2 { run6 with tHot := 2, th := 7 } up, by decide +kernel⟩,
    ⟨2, st 2 run6 up, by decide +kernel⟩,
    ⟨2, st 2 { run6 with st := .ramp } up, by decide +kernel⟩,
    ⟨3, 80000, 13000, st 3 { falling := true } up, by decide +kernel⟩⟩

/-- The hypotheses of `Obligations.StallTripsAndWireModel` can be met (its clauses on this subject). -/
theorem test_wireModel :
    (∃ (u : Fin 64) (i2 : Nat) (s : State), (bit (s.regs.h (Reg.STALL_WIRE u.val)) 31 = false ∨ wireAmb s.regs s.chip u.val + wireStep
      s.regs s.chip u.val i2 < (wireLimit s.regs u.val : Rat)) ∧ NoneHeld s) ∧
    (∃ (u : Fin 64) (i2 : Nat) (s : State), bit (s.regs.h (Reg.STALL_WIRE u.val)) 31 = true ∧ (s.chip.stall u.val).active = true ∧
      (wireLimit s.regs u.val : Rat) ≤ wireAmb s.regs s.chip u.val + wireStep s.regs s.chip u.val i2 ∧ NoneHeld s) :=
  ⟨⟨0, 100, setH [(Reg.STALL_WIRE 0, 0)] up, by decide +kernel⟩,
    ⟨0, 100000, st 0 { run6 with rise := 2000 } up, by decide +kernel⟩⟩

/-- The hypotheses of `Obligations.StallRuns` can be met. -/
theorem test_stallRuns :
    (∃ (u : Fin 64) (_ : Int) (_ : Int) (_ : Int) (_ : Int) (s : State), leader s.regs s.chip u.val = u.val ∧ NoneHeld s) ∧
    (∃ (u : Fin 64) (s : State), (s.chip.stall u.val).st = .ramp ∧ NoneHeld s) ∧
    (∃ (u : Fin 64) (s : State), (s.chip.stall u.val).st = .inrush ∧ (s.chip.stall u.val).pulseDue = false ∧ NoneHeld s) ∧
    (∃ (u : Fin 64) (s : State), (s.chip.stall u.val).st = .wait ∧ canStart s.regs s.chip u.val = true ∧ NoneHeld s ∧ Safety.Reports
      (stallYard u.val) s) ∧
    (∃ (u : Fin 64) (s : State), (s.chip.stall u.val).st = .on ∧ bits (s.regs.h (Reg.STALL_PROT u.val)) 23 16 ≠ 0 ∧ NoneHeld s) ∧
    (∃ (_ : Fin 8) (s : State), NoneHeld s) ∧
    (∃ (u : Fin 64) (s : State), (s.chip.stall u.val).active = true ∧ 0 < (s.chip.stall u.val).duty ∧ (s.chip.stall u.val).duty < 0x10000 ∧
      (s.chip.stall u.val).dutyNew = none ∧ NoneHeld s) ∧
    (∃ (u : Fin 64) (s : State), ((s.chip.stall u.val).st = .inrush ∨ (s.chip.stall u.val).st = .on) ∧ 0 < (s.chip.stall u.val).duty ∧
      (s.chip.stall u.val).duty < 0x10000 ∧ (s.chip.stall u.val).rampHold = false ∧ NoneHeld s) :=
  ⟨⟨0, 5000, 13400, 150000, 70000, st 0 run6 up, by decide +kernel⟩,
    ⟨0, st 0 { run6 with st := .ramp, dutyNew := some 0x8000 } up, by decide +kernel⟩,
    ⟨0, st 0 { run6 with st := .inrush } up, by decide +kernel⟩,
    ⟨0, st 0 { run6 with st := .wait, out := false, att := 1, curve := [(0, 0x50), (5000, 0x10)] } up, by decide +kernel⟩,
    ⟨0, st 0 { run6 with att := 3 } up, by decide +kernel⟩,
    ⟨0, st 7 { run6 with dutyNew := some 0x8000, phaseNew := some 3 } up, by decide +kernel⟩,
    ⟨0, st 0 { run6 with duty := 0x8000, jobsP := [4, 5] } up, by decide +kernel⟩,
    ⟨0, st 0 { run6 with duty := 1 } up, by decide +kernel⟩⟩

/-- The hypotheses of `Obligations.StallDiagnosisAndCrossCheck` can be met (its clauses on this subject). -/
theorem test_stallDiagnosis :
    (∃ (u : Fin 64) (up : Int) (dn : Int) (k : Nat) (s : State), (s.chip.stall u.val).active = false ∧ diagBand s.chip u.val = true ∧
      (s.chip.stall u.val).crossTest = false ∧ (s.chip.stall u.val).testing = false ∧ (s.chip.stall u.val).diagJobs = [] ∧ bit (s.regs.h
      (Reg.STALL_DIAG_CFG u.val)) 0 = true ∧ s.chip.awake = true ∧ Safety.Reports (stallYard u.val) s ∧ k = verdict up dn (s.chip.feed
      (srcFeed u.val)).mv ∧ (s.chip.stall u.val).dgKind = k ∧ (s.chip.stall u.val).dgCnt = 2 ∧ ((k ≠ 0 ∧ (s.chip.stall u.val).openLoad =
      false ∧ (s.chip.stall u.val).shortVbat = false ∧ (s.chip.stall u.val).onLow = false) ∨ (k = 0 ∧ (s.chip.stall u.val).openLoad = true))
      ∧ NoneHeld s) ∧
    (∃ (u : Fin 64) (_ : Int) (_ : Int) (s : State), (s.chip.stall u.val).active = false ∧ diagBand s.chip u.val = true ∧ (s.chip.stall
      u.val).crossTest = false ∧ (s.chip.stall u.val).testing = false ∧ (s.chip.stall u.val).diagJobs = [] ∧ bit (s.regs.h
      (Reg.STALL_DIAG_CFG u.val)) 0 = true ∧ s.chip.awake = true ∧ (s.chip.stall u.val).dgCnt = 0 ∧ NoneHeld s) ∧
    (∃ (u : Fin 64) (low : Bool) (s : State), (s.chip.stall u.val).st = .on ∧ bits (s.regs.h (Reg.STALL_DIAG_CFG u.val)) 15 8 ≠ 0 ∧
      (s.chip.feed (srcFeed u.val)).band = 3 ∧ (s.chip.stall u.val).onLow = !low ∧ Safety.Reports (stallYard u.val) s ∧ NoneHeld s) :=
  ⟨⟨0, 13500, 0, 1, st 0 { dgKind := 1, dgCnt := 2 } up, by decide +kernel⟩,
    ⟨0, 13500, 0, up, by decide +kernel⟩,
    ⟨0, true, setH [(Reg.STALL_DIAG_CFG 0, 0x0103)] (st 0 run6 up), by decide +kernel⟩⟩

/-- The hypotheses of `Obligations.StallDiagnosisAndCrossCheck` can be met (its clauses on this subject). -/
theorem test_crossCheck :
    (∃ (h : Hdr) (u : Fin 64) (mask : Nat) (addr : Nat) (s : State), Admitted (descStallCrosscheck h u mask addr s) h s ∧ (firstFail
      (checks56 s.regs s.chip 0x10 u.val ++ [((maskYards mask).any fun y => !(y == 2 && s.chip.ycOff) && ((s.chip.yard y).unreach ||
      (s.chip.yard y).adopting || (s.chip.yard y).resetting), St.busy), (u.val / 24 == 2 && s.chip.ycOff, St.supplyLow)]) = none) ∧
      s.chip.cross = [] ∧ firstFail (crossStepOne s.regs s.chip mask) = none ∧ ((maskStalls s.regs s.chip mask).any (fun i => pulsable
      s.regs s.chip i) = true)) ∧
    (∃ (_ : List (Fin 64)) (_ : Bool) (x : Cross) (i : Nat) (j : Nat) (todo : List Nat) (rest : List Cross) (s : State), s.chip.cross = x ::
      rest ∧ x.started = true ∧ x.todo = i :: j :: todo ∧ s.chip.sys.halted = false ∧ ((∀ k, k < 64 → (s.chip.safe k).due = false)) ∧
      NoneHeld s) ∧
    (∃ (h : Hdr) (u : Fin 64) (mask : Nat) (addr : Nat) (x : Cross) (rest : List Cross) (s : State), Admitted (descStallCrosscheck h u mask
      addr s) h s ∧ (firstFail (checks56 s.regs s.chip 0x10 u.val ++ [((maskYards mask).any fun y => !(y == 2 && s.chip.ycOff) &&
      ((s.chip.yard y).unreach || (s.chip.yard y).adopting || (s.chip.yard y).resetting), St.busy), (u.val / 24 == 2 && s.chip.ycOff,
      St.supplyLow)]) = none) ∧ s.chip.cross = x :: rest ∧ x.started = true ∧ x.todo ≠ []) :=
  ⟨⟨{}, 0, 7, 0x100000000, own 0x10 0 up, by decide +kernel⟩,
    ⟨[1, 2], true, { job := 60, mask := 7, todo := [0, 1, 2], started := true }, 0, 1, [2], [], on up fun c =>
      { c with cross := [{ job := 60, mask := 7, todo := [0, 1, 2], started := true }] }, by decide +kernel⟩,
    ⟨{}, 0, 7, 0x100000000, { job := 60, mask := 7, todo := [0, 1], started := true }, [], own 0x10 0 (on up fun c =>
      { c with cross := [{ job := 60, mask := 7, todo := [0, 1], started := true }] }), by decide +kernel⟩⟩

/-- The hypotheses of `Obligations.ValveCommandsAndSequences` can be met (its clauses on this subject). -/
theorem test_valveCommands :
    (∃ (h : Hdr) (u : Fin 16) (hold : Fin 65536) (ipk : Fin 2048) (ihold : Fin 1024) (peak : Nat) (s : State), AdmittedYard (fireDesc s
      u.val ipk.val ihold.val) h 3 (fireChecks s.regs s.chip u.val hold.val ipk.val) s ∧ (s.chip.vg (u.val / 4)).queue = [] ∧ peak = (if
      ipk.val = 0 then cfgPeak s.regs u.val else ipk.val) ∧ peakSum s.chip (u.val / 4) + peak ≤ peakBudget s.regs (u.val / 4)) ∧
    (∃ (h : Hdr) (u : Fin 16) (hold : Fin 65536) (ipk : Fin 2048) (ihold : Fin 1024) (s : State), AdmittedYard (fireDesc s u.val ipk.val
      ihold.val) h 3 (fireChecks s.regs s.chip u.val hold.val ipk.val) s ∧ (s.chip.valve u.val).phase = .idle ∧ (s.chip.vg (u.val /
      4)).queue = [] ∧ 0 < peakSum s.chip (u.val / 4) ∧ peakBudget s.regs (u.val / 4) < peakSum s.chip (u.val / 4) + (if ipk.val = 0 then
      cfgPeak s.regs u.val else ipk.val) ∧ 0 < peakWait s.regs (u.val / 4) ∧ Safety.Reports 3 s) ∧
    (∃ (h : Hdr) (u : Fin 16) (_ : Fin 65536) (ipk : Fin 2048) (ihold : Fin 1024) (s : State), AdmittedYard (fireDesc s u.val ipk.val
      ihold.val) h 3 (checks56 s.regs s.chip 0x13 u.val) s ∧ (s.chip.valve u.val).phase = .idle) ∧
    (∃ (h : Hdr) (u : Fin 16) (hold : Fin 65536) (ipk : Fin 2048) (ihold : Fin 1024) (s : State), AdmittedYard (fireDesc s u.val ipk.val
      ihold.val) h 3 (checks56 s.regs s.chip 0x13 u.val) s ∧ ((s.chip.valve u.val).phase = .peak ∨ (s.chip.valve u.val).phase = .trans ∨
      (s.chip.valve u.val).phase = .hold) ∧ u.val ∉ (s.chip.vg (u.val / 4)).queue) ∧
    (∃ (h : Hdr) (u : Fin 16) (_ : Fin 65536) (ipk : Fin 2048) (ihold : Fin 1024) (s : State), AdmittedYard (fireDesc s u.val ipk.val
      ihold.val) h 3 (checks56 s.regs s.chip 0x13 u.val) s ∧ (s.chip.valve u.val).phase = .defer) ∧
    (∃ (h : Hdr) (u : Fin 16) (_ : Bool) (group : Bool) (s : State), (AdmittedYard (descValveClear u) h 3 (checks56 s.regs s.chip 0x13 u.val
      ++ [(group && (groupChannels (u.val / 4)).any fun m => (s.chip.valve m).active, St.busy)]) s)) ∧
    (∃ (h : Hdr) (u : Fin 16) (hold : Fin 65536) (ihold : Fin 1024) (s : State), AdmittedYard (fireDesc s u.val 0 ihold.val) h 3 (fireChecks
      s.regs s.chip u.val hold.val 0) s ∧ (s.chip.vg (u.val / 4)).queue = [] ∧ peakBudget s.regs (u.val / 4) < cfgPeak s.regs u.val ∧
      peakSum s.chip (u.val / 4) = 0) :=
  ⟨⟨{}, 0, 65535, 0, 0, cfgPeak (own 0x13 0 (vv 0 {} up) : State).regs 0, own 0x13 0 (vv 0 {} up), by decide +kernel⟩,
    ⟨{}, 0, 5, 0, 0, own 0x13 0 (setH [(Reg.VG_CFG 0, 0x000200C8)] (on (vv 0 {} up) fun c => c.setValve 3 { phase := .peak, ipk := 200 })),
      by decide +kernel⟩,
    ⟨{}, 1, 0, 0, 0, own 0x13 1 up, by decide +kernel⟩,
    ⟨{}, 1, 0, 0, 0, own 0x13 1 (vv 1 hold7 up), by decide +kernel⟩,
    ⟨{}, 1, 0, 0, 0, own 0x13 1 (on (vv 1 { phase := .defer, who := some (9, none), tReq := 1000 } up) fun c => c.setVg 0 { queue := [1] }),
      by decide +kernel⟩,
    ⟨{}, 2, true, true, own 0x13 2 (on (vv 2 { latched := true, latchCause := 4, openLoad := true } up) fun c => c.setVg 0
      { latch := true }), by decide +kernel⟩,
    ⟨{}, 0, 5, 0, own 0x13 0 (setH [(Reg.VG_CFG 0, 0x000200C8), (Reg.VALVE_CFG 0, 0x00C800FF)] (vv 0 {} up)), by decide +kernel⟩⟩

/-- The hypotheses of `Obligations.ValveCommandsAndSequences` can be met (its clauses on this subject). -/
theorem test_valveSequences :
    (∃ (h : Hdr) (u : Fin 16) (trig : Option (Fin 32)) (addr : Nat) (steps : List SeqStep) (s : State), Admitted (descValveSeq u trig addr
      steps) h s ∧ (firstFail (checks56 s.regs s.chip 0x13 u.val ++ [(s.chip.seqs.any fun q => q.steps.any fun k => steps.any fun x =>
      x.ch.val == k.ch, St.busy)]) = none)) ∧
    (∃ (k : Fin 64) (x : VSeq) (y : VStep) (s : State), s.chip.fwRuns = true ∧ s.chip.seqs = [x] ∧ x.steps[k.val]? = some y ∧ y.fired =
      false ∧ y.st = none ∧ y.rel = false ∧ stepDue s.chip x k.val y = true ∧ firstFail (fireChecks s.regs s.chip y.ch y.hold 0) = none ∧
      (s.chip.yard 3).frames = [] ∧ (s.chip.vg (y.ch / 4)).queue = [] ∧ peakSum s.chip (y.ch / 4) + cfgPeak s.regs y.ch ≤ peakBudget s.regs
      (y.ch / 4)) ∧
    (∃ (k : Fin 64) (x : VSeq) (y : VStep) (s : State), s.chip.fwRuns = true ∧ s.chip.seqs = [x] ∧ x.steps[k.val]? = some y ∧ y.fired =
      false ∧ y.st = none ∧ y.rel = true ∧ stepDue s.chip x k.val y = true ∧ firstFail (checks56 s.regs s.chip 0x13 y.ch) = none ∧
      (s.chip.yard 3).frames = [] ∧ (s.chip.valve y.ch).phase = .idle) ∧
    (∃ (k : Fin 64) (j : Fin 64) (x : VSeq) (y : VStep) (z : VStep) (st : Nat) (s : State), s.chip.fwRuns = true ∧ s.chip.seqs = [x] ∧
      x.steps[k.val]? = some y ∧ y.fired = false ∧ y.st = none ∧ y.rel = false ∧ stepDue s.chip x k.val y = true ∧ firstFail (fireChecks
      s.regs s.chip y.ch y.hold 0) = some st ∧ x.steps[j.val]? = some z ∧ j ≠ k ∧ z.st = none) :=
  ⟨⟨{}, 0, none, 0x100000000, [⟨0, false, 5, 0, false⟩, ⟨3, true, 0, 16777215, false⟩], own 0x13 0 up, by decide +kernel⟩,
    ⟨0, { job := 9, steps := [{ ch := 3, hold := 5 }], t0 := 0 }, { ch := 3, hold := 5 }, on (vv 3 {} up) fun c =>
      { c with seqs := [{ job := 9, steps := [{ ch := 3, hold := 5 }], t0 := 0 }], jobs := [{ id := 9, op := .valveSeq {} 0 none 0 [⟨3, false, 5, 0, false⟩] }] },
      by decide +kernel⟩,
    ⟨0, { job := 9, steps := [{ ch := 3, rel := true }], t0 := 0 }, { ch := 3, rel := true }, on (vv 3 {} up) fun c =>
      { c with seqs := [{ job := 9, steps := [{ ch := 3, rel := true }], t0 := 0 }], jobs := [{ id := 9, op := .valveSeq {} 0 none 0 [⟨3, true, 0, 0, false⟩] }] },
      by decide +kernel⟩,
    ⟨0, 1, { job := 9, steps := [{ ch := 3, hold := 5 }, { ch := 4, hold := 5, delay := 9000000 }], t0 := 0 }, { ch := 3, hold := 5 },
      { ch := 4, hold := 5, delay := 9000000 }, St.latched, on (vv 3 { latched := true } up) fun c =>
      { c with seqs := [{ job := 9, steps := [{ ch := 3, hold := 5 }, { ch := 4, hold := 5, delay := 9000000 }], t0 := 0 }], jobs := [{ id := 9, op := .valveSeq {} 0 none 0 [⟨3, false, 5, 0, false⟩] }] },
      by decide +kernel⟩⟩

/-- The hypotheses of `Obligations.ValvePhases` can be met. -/
theorem test_valvePhases :
    (∃ (u : Fin 16) (s : State), (s.chip.valve u.val).phase = .peak ∧ (s.chip.valve u.val).reached = false ∧ NoneHeld s) ∧
    (∃ (u : Fin 16) (s : State), (s.chip.valve u.val).phase = .peak ∧ (s.chip.valve u.val).reached = true ∧ NoneHeld s ∧ (s.chip.vg (u.val /
      4)).queue = []) ∧
    (∃ (u : Fin 16) (s : State), (s.chip.valve u.val).phase = .peak ∧ (s.chip.valve u.val).reached = false ∧ 0 < (s.chip.valve u.val).holdMs
      ∧ (s.chip.valve u.val).holdMs < 65535 ∧ NoneHeld s ∧ Safety.Reports 3 s ∧ (s.chip.vg (u.val / 4)).queue = []) ∧
    (∃ (u : Fin 16) (s : State), (s.chip.valve u.val).phase = .trans ∧ NoneHeld s ∧ 0 < (s.chip.valve u.val).holdMs ∧ (s.chip.valve
      u.val).holdMs < 65535 ∧ (s.chip.vg (u.val / 4)).queue = []) ∧
    (∃ (u : Fin 16) (s : State), (s.chip.valve u.val).phase = .trans ∧ NoneHeld s ∧ (s.chip.valve u.val).holdMs = 0) ∧
    (∃ (u : Fin 16) (s : State), (s.chip.valve u.val).phase = .hold ∧ (s.chip.valve u.val).holdMs ≠ 65535 ∧ NoneHeld s) ∧
    (∃ (u : Fin 16) (_ : Nat) (id : Nat) (step : Option Nat) (s : State), (s.chip.valve u.val).phase = .end_ ∧ (s.chip.valve u.val).who =
      some (id, step) ∧ (s.chip.valve u.val).reached = true ∧ (s.chip.valve u.val).pkTmo = false ∧ NoneHeld s) ∧
    (∃ (u : Fin 16) (id : Nat) (step : Option Nat) (s : State), (s.chip.valve u.val).phase = .defer ∧ (s.chip.valve u.val).who = some (id,
      step) ∧ NoneHeld s ∧ Safety.Reports 3 s ∧ (s.chip.vg (u.val / 4)).queue = [u.val]) :=
  ⟨⟨3, vv 3 { hold7 with phase := .peak, reached := false } up, by decide +kernel⟩,
    ⟨3, vv 3 { hold7 with phase := .peak } up, by decide +kernel⟩,
    ⟨3, vv 3 { hold7 with phase := .peak, reached := false, holdMs := 65534 } up, by decide +kernel⟩,
    ⟨3, vv 3 { hold7 with phase := .trans, holdMs := 1 } up, by decide +kernel⟩,
    ⟨3, vv 3 { hold7 with phase := .trans, holdMs := 0, chop := 0x080A0A14 } up, by decide +kernel⟩,
    ⟨3, vv 3 { hold7 with holdMs := 65534 } up, by decide +kernel⟩,
    ⟨3, 25000, 9, none, vv 3 { hold7 with phase := .end_, released := true } up, by decide +kernel⟩,
    ⟨3, 9, none, on (vv 3 { phase := .defer, who := some (9, none), tReq := 1000 } up) fun c => c.setVg 0 { queue := [3] }, by
      decide +kernel⟩⟩

/-- The hypotheses of `Obligations.ValveProtection` can be met. -/
theorem test_valveProtection :
    (∃ (_ : Fin 16) (s : State), NoneHeld s) ∧
    (∃ (u : Fin 16) (s : State), (s.chip.valve u.val).active = true ∧ (s.chip.valve u.val).endSt ≠ St.duty ∧ dutyPct (s.chip.valve
      u.val).dutyCfg < 100 ∧ dutyPct (s.chip.valve u.val).dutyCfg * dutyWin (s.chip.valve u.val).dutyCfg ≤ 100 * dutyUsed s.chip
      (s.chip.valve u.val) ∧ NoneHeld s ∧ Safety.Reports 3 s ∧ (s.chip.valve u.val).phase ≠ .end_ ∧ (s.chip.vg (u.val / 4)).queue = []) ∧
    (∃ (u : Fin 16) (_ : Fin 3) (s : State), ((s.chip.valve u.val).phase = .peak ∨ (s.chip.valve u.val).phase = .trans ∨ (s.chip.valve
      u.val).phase = .hold) ∧ NoneHeld s ∧ Safety.Reports 3 s ∧ (s.chip.vg (u.val / 4)).queue = []) ∧
    (∃ (g : Fin 4) (_ : Bool) (s : State), ((∀ n ∈ (s.chip.vg g.val).queue, n ∈ groupChannels g.val)) ∧ NoneHeld s ∧ Safety.Reports 3 s ∧
      (s.chip.vg g.val).queue = []) ∧
    (∃ (s : State), bit (supplyCfg s.regs 3) 0 = true ∧ s.chip.halt.ovCut = false ∧ NoneHeld s) ∧
    (∃ (s : State), NoneHeld s) ∧
    (∃ (u : Fin 16) (mv : Nat) (s : State), bit (s.regs.h (Reg.VALVE_DIAG_CFG u.val)) 0 = true ∧ (s.chip.valve u.val).phase = .idle ∧
      s.chip.awake = true ∧ ((s.chip.feed 2).band = 3 ∨ (s.chip.feed 2).band = 4) ∧ s.chip.halt.ovCut = false ∧ (s.chip.valve u.val).testing
      = false ∧ 2500 ≤ mv ∧ mv ≤ 5000 ∧ (s.chip.valve u.val).dgKind = 1 ∧ (s.chip.valve u.val).dgCnt = 2 ∧ (s.chip.valve u.val).openLoad =
      false ∧ (s.chip.valve u.val).shortGnd = false ∧ (s.chip.valve u.val).shortVbat = false ∧ Safety.Reports 3 s ∧ NoneHeld s) ∧
    (∃ (u : Fin 16) (mv : Nat) (k : Nat) (s : State), bit (s.regs.h (Reg.VALVE_DIAG_CFG u.val)) 0 = true ∧ (s.chip.valve u.val).phase =
      .idle ∧ s.chip.awake = true ∧ ((s.chip.feed 2).band = 3 ∨ (s.chip.feed 2).band = 4) ∧ s.chip.halt.ovCut = false ∧ (s.chip.valve
      u.val).testing = false ∧ drainVerdict (s.chip.vg (u.val / 4)).hsOn mv = some k ∧ (s.chip.valve u.val).dgCnt = 0 ∧ NoneHeld s) :=
  ⟨⟨3, vv 3 { hold7 with bins := List.replicate 100 5 } up, by decide +kernel⟩,
    ⟨3, vv 3 { hold7 with bins := [1000000], dutyCfg := 0x0101 } up, by decide +kernel⟩,
    ⟨3, 2, vv 3 hold7 up, by decide +kernel⟩,
    ⟨3, true, vv 13 hold7 up, by decide +kernel⟩,
    ⟨setH [(haltKey 3 Reg.SUPPLY_CFG, 1)] (vv 13 hold7 up), by decide +kernel⟩,
    ⟨on (vv 13 hold7 up) fun c => { c with halt := { c.halt with ovCut := true } }, by decide +kernel⟩,
    ⟨3, 2500, setH [(Reg.VALVE_DIAG_CFG 3, 1)] (vv 3 { dgKind := 1, dgCnt := 2 } up), by decide +kernel⟩,
    ⟨3, 2500, 1, setH [(Reg.VALVE_DIAG_CFG 3, 1)] (vv 3 {} up), by decide +kernel⟩⟩

/-- The hypotheses of `Obligations.LoopMovesAndStops` can be met (its clauses on this subject). -/
theorem test_loopMoves :
    (∃ (h : Hdr) (u : Fin 10) (mode : Fin 4) (endAct : Fin 4) (_ : Bool) (target : Int) (_ : Fin 16777216) (_ : Fin 65536) (_ : Fin 65536)
      (s : State), Admitted (descMove u mode endAct target) h s ∧ (s.chip.loop u.val).st = .idle ∧ (s.chip.loop u.val).job = none ∧
      firstFail (moveChecks u.val mode.val target (latchLoop u.val s).regs s.chip) = none) ∧
    (∃ (h : Hdr) (u : Fin 10) (s : State), Admitted (loopDesc 0x41 u.val) h s ∧ Answers h s ∧ firstFail (checks56 s.regs s.chip 0x14 u.val)
      = none ∧ ((s.chip.loop u.val).st = .moving ∨ (s.chip.loop u.val).st = .regulating)) ∧
    (∃ (h : Hdr) (u : Fin 10) (s : State), Admitted (loopDesc 0x41 u.val) h s ∧ Answers h s ∧ firstFail (checks56 s.regs s.chip 0x14 u.val)
      = none ∧ (s.chip.loop u.val).st = .held) ∧
    (∃ (h : Hdr) (u : Fin 10) (s : State), Admitted (loopDesc 0x41 u.val) h s ∧ firstFail (checks56 s.regs s.chip 0x14 u.val) = none ∧
      (s.chip.loop u.val).st ≠ .held) ∧
    (∃ (h : Hdr) (u : Fin 10) (mode : Fin 4) (endAct : Fin 4) (_ : Bool) (target : Int) (_ : Fin 16777216) (_ : Fin 65536) (_ : Fin 65536)
      (s : State), Admitted (descMove u mode endAct target) h s ∧ ((s.chip.loop u.val).st = .moving ∨ (s.chip.loop u.val).st = .regulating)
      ∧ firstFail (moveChecks u.val mode.val target s.regs s.chip) = none) :=
  ⟨⟨{}, 0, 0, 2, true, 100000, 0, 0, 0, own 0x14 0 (setC [(Reg.LOOP_CFG 0, 0x1)] (lp 0 { pos := 7 } up)), by decide +kernel⟩,
    ⟨{}, 5, own 0x14 5 (lp 5 mov8 up), by decide +kernel⟩,
    ⟨{}, 5, own 0x14 5 (lp 5 { mov8 with st := .held, prev := .regulating } up), by decide +kernel⟩,
    ⟨{}, 5, own 0x14 5 (lp 5 mov8 up), by decide +kernel⟩,
    ⟨{}, 9, 2, 0, false, -65536, 0, 0, 0, own 0x14 9 (on (lp 9 mov8 up) fun c =>
      { c with jobs := [{ id := 9, op := .move {} 9 2 0 false 5 0 0 0 }], nextJob := 10 }), by decide +kernel⟩⟩

/-- The hypotheses of `Obligations.LoopMovesAndStops` can be met (its clauses on this subject). -/
theorem test_loopStops :
    (∃ (h : Hdr) (u : Fin 10) (mode : Fin 4) (s : State), Admitted (descStop u mode) h s ∧ Answers h s ∧ firstFail (checks56 (latchIdle
      u.val s).regs s.chip 0x14 u.val) = none ∧ ((s.chip.loop u.val).st = .idle ∨ (s.chip.loop u.val).st = .fault)) ∧
    (∃ (h : Hdr) (u : Fin 10) (s : State), Admitted (descStop u 1) h s ∧ firstFail (checks56 s.regs s.chip 0x14 u.val) = none ∧ (s.chip.loop
      u.val).running = true ∧ (s.chip.loop u.val).coefQ = []) ∧
    (∃ (h : Hdr) (u : Fin 10) (mode : Fin 4) (s : State), (s.chip.loop u.val).st = .fault ∧ AdmittedYard (descStopClear u mode) h 3
      (checks56 s.regs s.chip 0x14 u.val) s) ∧
    (∃ (h : Hdr) (u : Fin 10) (addr : Nat) (pairs : List (Fin 8 × Fin 4294967296)) (s : State), Admitted (descCoefWrite u addr pairs) h s ∧
      firstFail (checks56 s.regs s.chip 0x14 u.val) = none ∧ (s.chip.loop u.val).running = true ∧ (s.chip.loop u.val).coefQ.length +
      pairs.length ≤ 32) ∧
    (∃ (h : Hdr) (u : Fin 10) (addr : Nat) (i : Fin 8) (v : Fin 4294967296) (s : State), Admitted (descCoefWrite u addr [(i, v)]) h s ∧
      Answers h s ∧ firstFail (checks56 s.regs s.chip 0x14 u.val) = none ∧ (s.chip.loop u.val).running = false) ∧
    (∃ (h : Hdr) (u : Fin 10) (s : State), Admitted (descStop u 2) h s ∧ firstFail (checks56 s.regs s.chip 0x14 u.val) = none ∧ (s.chip.loop
      u.val).running = true) ∧
    (∃ (h : Hdr) (u : Fin 10) (s : State), Admitted (descStop u 0) h s ∧ firstFail (checks56 s.regs s.chip 0x14 u.val) = none ∧ (s.chip.loop
      u.val).running = true) ∧
    (∃ (h : Hdr) (u : Fin 10) (mode : Fin 4) (s : State), Admitted (descStopClear u mode) h s ∧ Answers h s ∧ firstFail (checks56 (latchLoop
      u.val s).regs s.chip 0x14 u.val) = none ∧ (s.chip.loop u.val).st = .idle) :=
  ⟨⟨{}, 5, 2, own 0x14 5 up, by decide +kernel⟩,
    ⟨{}, 5, own 0x14 5 (lp 5 mov8 up), by decide +kernel⟩,
    ⟨{}, 5, 0, own 0x14 5 (lp 5 { st := .fault, latch := true, fault := 5 } up), by decide +kernel⟩,
    ⟨{}, 5, 0x100000000, [(7, 0xFFFFFFFF), (0, 1)], own 0x14 5 (lp 5 { mov8 with coefQ := List.replicate 30 (0, 0, 1) } up), by
      decide +kernel⟩,
    ⟨{}, 5, 0x100000000, 7, 0xFFFFFFFF, own 0x14 5 up, by decide +kernel⟩,
    ⟨{}, 5, own 0x14 5 (lp 5 mov8 up), by decide +kernel⟩,
    ⟨{}, 5, own 0x14 5 (lp 5 mov8 up), by decide +kernel⟩,
    ⟨{}, 5, 0, own 0x14 5 up, by decide +kernel⟩⟩

/-- The hypotheses of `Obligations.LoopLearns` can be met. -/
theorem test_loopLearns :
    (∃ (h : Hdr) (u : Fin 10) (addr : Nat) (s : State), Admitted (descLearnRun u addr) h s ∧ (s.chip.loop u.val).st = .idle ∧ (s.chip.loop
      u.val).job = none ∧ (s.chip.loop u.val).toFault = false ∧ firstFail (checks56 (latchLoop u.val s).regs s.chip 0x14 u.val ++
      checkSupply (latchLoop u.val s).regs s.chip (80 + u.val)) = none) ∧
    (∃ (h : Hdr) (u : Fin 10) (addr : Nat) (ref : List Nat) (vlearn : List Nat) (s : State), Admitted (descLearnLoad u addr ref vlearn) h s
      ∧ Answers h s ∧ firstFail (learnBusy u.val (latchIdle u.val s).regs s.chip) = none) ∧
    (∃ (h : Hdr) (u : Fin 10) (addr : Nat) (s : State), Admitted (descLearnRead u addr) h s ∧ Answers h s ∧ (s.chip.ring h.fn).dmaOk = true
      ∧ firstFail (learnBusy u.val (latchIdle u.val s).regs s.chip) = none) :=
  ⟨⟨{}, 0, 0, own 0x14 0 up, by decide +kernel⟩,
    ⟨{}, 3, 0x100000000, List.replicate 256 65535, List.replicate 256 1, own 0x14 3 up, by decide +kernel⟩,
    ⟨{}, 3, 0x100000000, own 0x14 3 (lp 3 { tabRef := [1, 2], tabV := [3] } up), by decide +kernel⟩⟩

/-- The hypotheses of `Obligations.LoopSamplesAndBrakes` can be met (its clauses on this subject). -/
theorem test_loopSamples :
    (∃ (u : Fin 10) (_ : Int) (_ : Int) (_ : Int) (_ : Bool) (_ : Int) (s : State), s.chip.fwRuns = true ∧ (s.chip.loop u.val).st = .moving
      ∧ (s.chip.loop u.val).mode = 2 ∧ (s.chip.loop u.val).stopping = false ∧ (s.chip.loop u.val).reversing = false ∧ engineNext s.chip
      u.val = true ∧ (s.chip.loop u.val).coefQ = [] ∧ bits (lv s.regs (Reg.PLAUS_CFG u.val)) 15 0 = 0 ∧ bit (lv s.regs (Reg.PINCH_CFG
      u.val)) 0 = false) ∧
    (∃ (u : Fin 10) (s : State), (s.chip.loop u.val).sent = true ∧ (s.chip.loop u.val).dutyJob = none ∧ bit (lv s.regs (Reg.TLM_CFG u.val))
      0 = false ∧ NoneHeld s) ∧
    (∃ (u : Fin 10) (s : State), s.chip.ctlRuns = true ∧ (s.chip.loop u.val).running = true ∧ (s.chip.loop u.val).missRun = false ∧
      sampleLate s.regs s.chip u.val = true ∧ posSrc s.regs u.val = 0 ∧ NoneHeld s) ∧
    (∃ (u : Fin 10) (s : State), s.chip.ctlRuns = true ∧ (s.chip.loop u.val).ilimAct = true ∧ (s.chip.loop u.val).limRaised = false ∧
      NoneHeld s) ∧
    (∃ (u : Fin 10) (_ : Int) (_ : Int) (s : State), posSrc s.regs u.val ≠ 3 ∧ NoneHeld s) ∧
    (∃ (u : Fin 10) (_ : Int) (_ : Int) (_ : Int) (_ : Bool) (_ : Int) (s : State), s.chip.fwRuns = true ∧ engineNext s.chip u.val = true ∧
      (s.chip.loop u.val).coefQ = [] ∧ NoneHeld s) ∧
    (∃ (u : Fin 10) (s : State), (s.chip.loop u.val).sent = true ∧ NoneHeld s) ∧
    (∃ (u : Fin 10) (dropped : Bool) (s : State), (s.chip.loop u.val).running = true ∧ (if dropped then (s.chip.loop u.val).sample else
      sampleLate s.regs s.chip u.val) = true ∧ NoneHeld s) ∧
    (∃ (_ : Fin 10) (_ : Int) (_ : Int) (s : State), NoneHeld s) :=
  ⟨⟨3, -5000, 12000, 13000, true, 3, setH [(liveKey (Reg.PLAUS_CFG 3), 0)] <| lp 3 { mov8 with sample := true } up, by decide +kernel⟩,
    ⟨3, lp 3 { mov8 with mode := 1, sent := true, late := 65535, sampT := 4996799 } up, by decide +kernel⟩,
    ⟨3, lp 3 { mov8 with missed := 65535, missT := 1 } up, by decide +kernel⟩,
    ⟨3, lp 3 { mov8 with ilimAct := true } up, by decide +kernel⟩,
    ⟨3, 40000, 5, up, by decide +kernel⟩,
    ⟨3, 700, 12000, 13000, false, 1000000, setH [(liveKey (Reg.LOOP_CFG 3), 1)] <| lp 3
      { mov8 with sample := true, mode := 0, target := 5000, vmax := 900 } up, by decide +kernel⟩,
    ⟨3, lp 3 { mov8 with sent := true, dutyJob := some 9 } up, by decide +kernel⟩,
    ⟨3, true, lp 3 { mov8 with sample := true } up, by decide +kernel⟩,
    ⟨3, 40000, 5, setH [(liveKey (Reg.LOOP_CFG 3), 3), (liveKey (Reg.MOTOR_KE 3), 65536)] up, by decide +kernel⟩⟩

/-- The hypotheses of `Obligations.LoopSamplesAndBrakes` can be met (its clauses on this subject). -/
theorem test_loopBrakesAndCounts :
    (∃ (u : Fin 10) (s : State), (s.chip.loop u.val).st = .braking ∧ (s.chip.loop u.val).brakeShort = false ∧ NoneHeld s ∧ (s.chip.loop
      u.val).toFault = false ∧ (s.chip.loop u.val).stopJobs = [] ∧ (s.chip.loop u.val).job = none ∧ (s.chip.loop u.val).coefQ = []) ∧
    (∃ (u : Fin 10) (s : State), (s.chip.loop u.val).st = .braking ∧ (s.chip.loop u.val).brakeShort = false ∧ NoneHeld s ∧ (s.chip.loop
      u.val).toFault = true ∧ (s.chip.loop u.val).stopJobs = []) ∧
    (∃ (u : Fin 10) (s : State), (s.chip.loop u.val).st = .braking ∧ (s.chip.loop u.val).brakeShort = true ∧ NoneHeld s ∧ (s.chip.loop
      u.val).pinched = true) ∧
    (∃ (u : Fin 10) (s : State), (s.chip.loop u.val).st = .braking ∧ (s.chip.loop u.val).brakeShort = true ∧ NoneHeld s ∧ (s.chip.loop
      u.val).pinched = false) ∧
    (∃ (u : Fin 10) (kind : Fin 4) (s : State), (s.chip.loop u.val).st ≠ .fault ∧ bridgeHas u.val kind.val = true ∧ NoneHeld s ∧
      Safety.Reports 3 s ∧ (s.chip.loop u.val).coefQ = []) ∧
    (∃ (u : Fin 10) (_ : Bool) (s : State), s.chip.ctlRuns = true ∧ (s.chip.loop u.val).running = true ∧ (s.chip.loop u.val).st ≠ .learning
      ∧ (s.chip.loop u.val).job = none ∧ (s.chip.loop u.val).coefQ = [] ∧ bits (lv s.regs (Reg.LOOP_LIM u.val)) 31 16 ≠ 0 ∧ NoneHeld s) ∧
    (∃ (u : Fin 10) (k : Int) (s : State), posSrc s.regs u.val = 3 ∧ NoneHeld s ∧ k = (if bit (lv s.regs (Reg.LOOP_CFG u.val)) 2 then -sgn
      (s.chip.loop u.val).dutyOut else sgn (s.chip.loop u.val).dutyOut) ∧ 50 * 65536 < 1000 * (s.chip.loop u.val).wEst.natAbs ∧ (s.chip.loop
      u.val).fills + 1 ≤ bits (lv s.regs (Reg.RIPPLE_CFG u.val)) 15 8) ∧
    (∃ (u : Fin 10) (k : Int) (s : State), posSrc s.regs u.val = 3 ∧ NoneHeld s ∧ k = (if bit (lv s.regs (Reg.LOOP_CFG u.val)) 2 then -sgn
      (s.chip.loop u.val).dutyOut else sgn (s.chip.loop u.val).dutyOut) ∧ 50 * 65536 < 1000 * (s.chip.loop u.val).wEst.natAbs ∧ bits (lv
      s.regs (Reg.RIPPLE_CFG u.val)) 15 8 < (s.chip.loop u.val).fills) ∧
    (∃ (u : Fin 10) (_ : Bool) (s : State), (s.chip.loop u.val).running = true ∧ (s.chip.loop u.val).st ≠ .learning ∧ bits (lv s.regs
      (Reg.LOOP_LIM u.val)) 31 16 ≠ 0 ∧ NoneHeld s) ∧
    (∃ (u : Fin 10) (_ : Bool) (s : State), (s.chip.loop u.val).st = .learning ∧ (s.chip.loop u.val).stopping = false ∧ bits (lv s.regs
      (Reg.LOOP_LIM u.val)) 31 16 ≠ 0 ∧ NoneHeld s ∧ (s.chip.loop u.val).learnPh = 1) ∧
    (∃ (u : Fin 10) (_ : Bool) (s : State), (s.chip.loop u.val).st = .learning ∧ (s.chip.loop u.val).stopping = false ∧ bits (lv s.regs
      (Reg.LOOP_LIM u.val)) 31 16 ≠ 0 ∧ NoneHeld s ∧ (s.chip.loop u.val).learnPh = 2) :=
  ⟨⟨3, lp 3 { st := .braking, duty := 5 } up, by decide +kernel⟩,
    ⟨3, lp 3 { st := .braking, toFault := true, job := some 5 } up, by decide +kernel⟩,
    ⟨3, lp 3 { st := .braking, brakeShort := true, job := some 9, pos := 50, pinched := true } up, by decide +kernel⟩,
    ⟨3, lp 3 { st := .braking, brakeShort := true, pos := 50 } up, by decide +kernel⟩,
    ⟨3, 3, lp 3 mov8 up, by decide +kernel⟩,
    ⟨3, true, setH [(liveKey (Reg.LOOP_LIM 3), 0x00640000)] (lp 3 { mov8 with job := none, ref := true } up), by decide +kernel⟩,
    ⟨3, 1, setH [(liveKey (Reg.LOOP_CFG 3), 3), (liveKey (Reg.RIPPLE_CFG 3), 0x0100)] (lp 3 { mov8 with wEst := 3342336, pos := 2147483647 }
      up), by decide +kernel⟩,
    ⟨3, 1, setH [(liveKey (Reg.LOOP_CFG 3), 7), (liveKey (Reg.RIPPLE_CFG 3), 0x0100)] (lp 3
      { mov8 with dutyOut := -1, wEst := -3342336, fills := 2 } up), by decide +kernel⟩,
    ⟨3, true, setH [(liveKey (Reg.LOOP_LIM 3), 0x00640000)] (lp 3 mov8 up), by decide +kernel⟩,
    ⟨3, true, setH [(liveKey (Reg.LOOP_LIM 3), 0x00640000)] (lp 3 { mov8 with st := .learning, learnPh := 1 } up), by decide +kernel⟩,
    ⟨3, true, setH [(liveKey (Reg.LOOP_LIM 3), 0x00640000)] (lp 3 { mov8 with st := .learning, learnPh := 2 } up), by decide +kernel⟩⟩

/-- The hypotheses of `Obligations.SinkCommandsAndProtection` can be met (its clauses on this subject). -/
theorem test_sinkCommands :
    (∃ (h : Hdr) (u : Fin 32) (iSet : Fin 1024) (dim : Fin 65536) (clear : Bool) (s : State), u.val < 12 ∧ AdmittedYard (descSinkSet u iSet
      dim) h 3 (sinkChecks u.val iSet.val dim.val clear false s.regs s.chip) s) ∧
    (∃ (h : Hdr) (u : Fin 32) (_ : Bool) (s : State), (u.val = 16 ∨ u.val = 17) ∧ AdmittedYard (descSinkSet u 0 0) h 3 (checks56 s.regs
      s.chip 0x15 u.val) s) ∧
    (∃ (h : Hdr) (u : Fin 32) (_ : Fin 1024) (_ : Fin 65536) (clear : Bool) (s : State), AdmittedYard (descSinkCalibrate u) h 3 (sinkChecks
      u.val 0 0 clear true s.regs s.chip) s) ∧
    (∃ (hi : Bool) (_ : Int) (_ : Int) (n : Nat) (id : Nat) (s : State), n = (if hi then 11 else 5) ∧ (s.chip.sink n).calJob = some id ∧ 32
      < bits (s.chip.sink n).vfCfg 25 16 ∧ NoneHeld s) ∧
    (∃ (s : State), NoneHeld s) ∧
    (∃ (hi : Bool) (_ : Int) (_ : Int) (n : Nat) (id : Nat) (s : State), n = (if hi then 11 else 5) ∧ (s.chip.sink n).calJob = some id ∧
      NoneHeld s) :=
  ⟨⟨{}, 11, 1023, 65535, true, own 0x15 11 (sk 11 {} up), by decide +kernel⟩,
    ⟨{}, 17, true, own 0x15 17 (on up fun c => c.setBoost 1 { short := true }), by decide +kernel⟩,
    ⟨{}, 11, 0, 0, true, own 0x15 11 (sk 11 { openS := true } up), by decide +kernel⟩,
    ⟨true, 2500, 3300, 11, 9, sk 11 { calJob := some 9 } up, by decide +kernel⟩,
    ⟨sk 11 { new := some (13, 1), jobs := [4, 5] } up, by decide +kernel⟩,
    ⟨true, 2500, 3300, 11, 9, sk 11 { calJob := some 9, vfCfg := 0x0010F830 } up, by decide +kernel⟩⟩

/-- The hypotheses of `Obligations.SinkCommandsAndProtection` can be met (its clauses on this subject). -/
theorem test_sinkProtection :
    (∃ (u : Fin 12) (s : State), (s.chip.sink u.val).on = true ∧ (s.chip.boost (stageOf u.val)).inlim = false ∧ NoneHeld s ∧ Safety.Reports
      3 s) ∧
    (∃ (u : Fin 12) (tj : Int) (s : State), 170000 ≤ tj ∧ (s.chip.sink u.val).hot = false ∧ NoneHeld s ∧ Safety.Reports 3 s) ∧
    (∃ (u : Fin 12) (s : State), (s.chip.sink u.val).on = true ∧ NoneHeld s ∧ Safety.Reports 3 s) ∧
    (∃ (_ : Fin 8) (_ : Nat) (s : State), NoneHeld s) ∧
    (∃ (hi : Bool) (_ : Int) (n : Nat) (s : State), n = (if hi then 11 else 5) ∧ (s.chip.sink n).valid = true ∧ (s.chip.sink n).on = true ∧
      toSigned 16 (s.chip.sink n).vfCfg ≠ 0 ∧ NoneHeld s) ∧
    (∃ (u : Fin 12) (tj : Int) (s : State), tj < 150000 ∧ (s.chip.sink u.val).hot = true ∧ (s.chip.sink u.val).req = false ∧ NoneHeld s) ∧
    (∃ (hi : Bool) (_ : Int) (n : Nat) (s : State), n = (if hi then 11 else 5) ∧ (s.chip.sink n).valid = true ∧ (s.chip.sink n).on = true ∧
      NoneHeld s) :=
  ⟨⟨6, sk 6 { on := true, iSet := 100, dim := 30000, req := true } up, by decide +kernel⟩,
    ⟨6, 170000, sk 6 { on := true, iSet := 100, dim := 30000, req := true } up, by decide +kernel⟩,
    ⟨6, sk 6 { on := true, iSet := 100, dim := 30000, req := true } up, by decide +kernel⟩,
    ⟨7, 99, setH [(Reg.SINK_CFG 7, 0x7)] (on up fun c => c.setSink 7 { cfg := 7 }), by decide +kernel⟩,
    ⟨true, 3000, 11, sk 11 { on := true, iSet := 100, dim := 30000, req := true, valid := true, vf0 := 2500, rs := 900, tCal := 25 } up, by
      decide +kernel⟩,
    ⟨6, 149999, sk 6 { hot := true } up, by decide +kernel⟩,
    ⟨true, 3000, 11, sk 11 { on := true, iSet := 100, dim := 30000, req := true, valid := true, vfCfg := 0 } up, by decide +kernel⟩⟩

/-- The hypotheses of `Obligations.BoostStagesAndMatrix` can be met (its clauses on this subject). -/
theorem test_boostStages :
    (∃ (b : Fin 2) (_ : Int) (_ : Int) (_ : Int) (_ : Bool) (n : Fin 12) (_ : Int) (s : State), stageOf n.val = b.val ∧ (s.chip.boost
      b.val).running = true ∧ (s.chip.sink n.val).on = true ∧ (s.chip.sink n.val).openS = false ∧ stageCal s.chip b.val = false ∧ ((∀ m ∈
      stageSinks b.val, m ≠ n.val → (s.chip.sink m).on = false)) ∧ NoneHeld s) ∧
    (∃ (b : Fin 2) (vout : Int) (s : State), (s.chip.boost b.val).ov = false ∧ boostVmax (s.chip.boost b.val).cfg + 3000 < vout ∧ NoneHeld s
      ∧ Safety.Reports 3 s) ∧
    (∃ (b : Fin 2) (s : State), (s.chip.boost b.val).short = false ∧ NoneHeld s ∧ Safety.Reports 3 s) ∧
    (∃ (b : Fin 2) (_ : Int) (_ : Int) (_ : Int) (_ : Bool) (s : State), stageCal s.chip b.val = false ∧ ((∀ m ∈ stageSinks b.val,
      (s.chip.sink m).on = false)) ∧ NoneHeld s) ∧
    (∃ (b : Fin 2) (vout : Int) (s : State), (s.chip.boost b.val).ov = true ∧ vout < boostVmax (s.chip.boost b.val).cfg ∧ NoneHeld s) ∧
    (∃ (_ : Fin 2) (_ : Int) (_ : Int) (_ : Int) (_ : Bool) (_ : List (Fin 12 × Int)) (s : State), NoneHeld s) :=
  ⟨⟨0, 13500, 30000, 2000, false, 3, 100, on (sk 3 { on := true, iSet := 100, dim := 30000, req := true } up) fun c => c.setBoost 0
      { running := true, vset := 30000, k := 100 }, by decide +kernel⟩,
    ⟨0, 70000, on up fun c => c.setBoost 0 { running := true, vset := 30000 }, by decide +kernel⟩,
    ⟨1, on (sk 11 { on := true, iSet := 100, dim := 30000, req := true } up) fun c => c.setBoost 1 { running := true, vset := 30000 }, by
      decide +kernel⟩,
    ⟨1, 13500, 30000, 100, false, on up fun c => c.setBoost 1 { running := true, vset := 30000, k := 100 }, by decide +kernel⟩,
    ⟨1, 64999, on up fun c => c.setBoost 1 { ov := true, vset := 30000 }, by decide +kernel⟩,
    ⟨0, 13500, 30000, 2000, false, [(3, 100), (4, 700)], on (sk 3 { on := true, iSet := 100, dim := 30000, req := true } up) fun c =>
      c.setBoost 0 { running := true, vset := 30000, k := 100 }, by decide +kernel⟩⟩

/-- The hypotheses of `Obligations.BoostStagesAndMatrix` can be met (its clauses on this subject). -/
theorem test_matrixFrames :
    (∃ (h : Hdr) (clear : Bool) (addr : Nat) (data : List Nat) (s : State), s.chip.halt.mx.shed = false ∧ (s.chip.yard 3).lockout = false ∧
      classShed (s.chip.yard 3) (shedClass s.regs 104) = false ∧ AdmittedYard (descMatrixFrame addr data) h 3 (checks56 s.regs s.chip 0x16 0
      ++ [(s.chip.halt.mx.short && !clear, St.latched)]) s) ∧
    (∃ (_ : Nat) (s : State), s.chip.halt.mx.scanning = true ∧ s.chip.halt.mx.started = true ∧ s.chip.halt.mx.line < 7 ∧ mxSlotEnd
      s.chip.halt.mx ≤ s.chip.now ∧ NoneHeld s) ∧
    (∃ (_ : Nat) (f : List Nat) (s : State), s.chip.halt.mx.scanning = true ∧ s.chip.halt.mx.started = false ∧ s.chip.halt.mx.next = some f
      ∧ NoneHeld s) ∧
    (∃ (s : State), s.chip.halt.mx.scanning = true ∧ NoneHeld s ∧ Safety.Reports 3 s) ∧
    (∃ (h : Hdr) (clear : Bool) (addr : Nat) (data : List Nat) (s : State), (s.chip.halt.mx.shed = true ∨ (s.chip.yard 3).lockout = true ∨
      classShed (s.chip.yard 3) (shedClass s.regs 104) = true) ∧ AdmittedYard (descMatrixFrame addr data) h 3 (checks56 s.regs s.chip 0x16 0
      ++ [(s.chip.halt.mx.short && !clear, St.latched)]) s) ∧
    (∃ (_ : Nat) (s : State), s.chip.halt.mx.scanning = true ∧ mxSlotEnd s.chip.halt.mx ≤ s.chip.now ∧ NoneHeld s) :=
  ⟨⟨{}, true, 0x100000000, List.replicate 192 255, own 0x16 0 (on up fun c =>
      { c with halt := { c.halt with mx := { short := true, shortLine := 3 } } }), by decide +kernel⟩,
    ⟨0xFFFFFF, on up fun c =>
      { c with halt := { c.halt with mx := { scanning := true, started := true, line := 6, frame := List.replicate 192 1 } } }, by
      decide +kernel⟩,
    ⟨0, List.replicate 192 1, on up fun c =>
      { c with halt := { c.halt with mx := { scanning := true, next := some (List.replicate 192 1), nextJobs := [4] } } }, by
      decide +kernel⟩,
    ⟨on up fun c =>
      { c with halt := { c.halt with mx := { scanning := true, started := true, line := 7, next := some (List.replicate 192 1), nextJobs := [4] } } },
      by decide +kernel⟩,
    ⟨{}, true, 0x100000000, List.replicate 192 255, own 0x16 0 (on up fun c =>
      { c with halt := { c.halt with mx := { short := true, shed := true } } }), by decide +kernel⟩,
    ⟨0xFFFFFF, on up fun c =>
      { c with halt := { c.halt with mx := { scanning := true, started := true, line := 7, used := 1, next := some (List.replicate 192 1), frame := List.replicate 192 1 } } },
      by decide +kernel⟩⟩

/-- The hypotheses of `Obligations.PortFramesAndLatches` can be met (its clauses on this subject). -/
theorem test_portFrames :
    (∃ (h : Hdr) (u : Fin 8) (start : Fin 1024) (addr : Nat) (data : List Nat) (s : State), Admitted (descLampFrame u start addr data s) h s
      ∧ firstFail (checks56 s.regs s.chip 0x17 u.val) = none ∧ portEn s.regs u.val = true ∧ (portSlow s.regs u.val = true ∨ (s.chip.port
      u.val).valid = true)) ∧
    (∃ (u : Fin 8) (id : Nat) (f : Nat × List Nat) (s : State), (s.chip.port u.val).loadJob = some id ∧ jobFrame s.chip id = some f ∧
      LineFree s u.val ∧ (s.chip.port u.val).latchQ = []) ∧
    (∃ (u : Fin 8) (id : Nat) (f : Nat × List Nat) (s : State), (s.chip.port u.val).loadJob = some id ∧ jobFrame s.chip id = some f ∧
      (s.chip.port u.val).load = none ∧ frameMayStart s.regs s.chip u.val f.1 f.2.length = false ∧ (s.chip.port u.val).enumQ = []) ∧
    (∃ (u : Fin 8) (f : Nat × List Nat) (j : Job) (s : State), OnlyJob s j ∧ j.turn = none ∧ (s.chip.port u.val).txBusy = true ∧
      (s.chip.port u.val).send = some f ∧ (s.chip.port u.val).rep = false ∧ (s.chip.port u.val).sendJob = some j.id ∧ (s.chip.port
      u.val).load = none ∧ (s.chip.port u.val).enumQ = []) ∧
    (∃ (u : Fin 8) (f : Nat × List Nat) (s : State), (s.chip.port u.val).txBusy = true ∧ (s.chip.port u.val).send = some f ∧ (s.chip.port
      u.val).rep = true ∧ (s.chip.port u.val).sendJob = none ∧ (s.chip.port u.val).load = none ∧ (s.chip.port u.val).enumQ = []) ∧
    (∃ (u : Fin 8) (f : Nat × List Nat) (s : State), bits (s.chip.port u.val).cfg 15 8 ≠ 0 ∧ portEn s.regs u.val = true ∧ domOn s.regs
      s.chip 0x17 = true ∧ s.chip.fwRuns = true ∧ s.chip.sys.halted = false ∧ portHostLost s.regs s.chip = false ∧ (s.chip.port
      u.val).running = false ∧ (s.chip.port u.val).sentUnl = false ∧ (s.chip.port u.val).statWait = false ∧ (portSlow s.regs u.val = true ∨
      (s.chip.port u.val).valid = true) ∧ (s.chip.port u.val).shown = some f) ∧
    (∃ (q : Port) (start : Nat) (d : Nat × Nat) (data : List Nat), q.slow = false ∧ q.table_.drop start = [d] ∧ data.length = nodeShare d.1
      ∧ data ≠ []) :=
  ⟨⟨{}, 0, 0, 0x100000000, List.replicate 250 9, own 0x17 0 (pt 0 2 ready10 up), by decide +kernel⟩,
    ⟨0, 9, (0, [1, 2]), job10 lf10 (pt 0 2 { ready10 with loadJob := some 9, frameQ := [4] } up), by decide +kernel⟩,
    ⟨0, 9, (0, [1, 2]), job10 lf10 (pt 0 2 { ready10 with loadJob := some 9, txBusy := true } up), by decide +kernel⟩,
    ⟨0, (0, [1, 2]), { id := 9, op := .lampFrame {} 0 0 0x100000000 [1, 2] }, job10 lf10 (pt 0 2
      { ready10 with sendJob := some 9, send := some (0, [1, 2]), txBusy := true, txNs := 1234567 } up), by decide +kernel⟩,
    ⟨0, (0, [1, 2]), pt 0 2 { ready10 with rep := true, send := some (0, [1, 2]), txBusy := true, txNs := 1234567 } up, by decide +kernel⟩,
    ⟨0, (0, [1, 2]), pt 0 0x102 { ready10 with shown := some (0, [1, 2]) } up, by decide +kernel⟩,
    ⟨{ ready10 with cfg := 2 }, 1, (0x32, 0), List.replicate 50 9, by decide +kernel⟩⟩

/-- The hypotheses of `Obligations.PortFramesAndLatches` can be met (its clauses on this subject). -/
theorem test_portLatches :
    (∃ (h : Hdr) (u : Fin 8) (ports : Fin 256) (s : State), Admitted (descLampLatch u ports s) h s ∧ firstFail (checks56 s.regs s.chip 0x17
      u.val) = none ∧ ((∀ p ∈ latchPorts u.val ports.val, portEn s.regs p = true))) ∧
    (∃ (u : Fin 8) (id : Nat) (s : State), (s.chip.port u.val).latchJob = some id ∧ (s.chip.port u.val).latchWait = true ∧ ((∀ t,
      (s.chip.port u.val).latchAt = some t → t ≤ s.chip.mt.val + latchLead (s.chip.port u.val))) ∧ (s.chip.port u.val).txBusy = false ∧
      (s.chip.port u.val).enumAt = none ∧ (s.chip.port u.val).statWait = false ∧ s.chip.sys.halted = false ∧ (s.chip.port u.val).slow =
      false ∧ (s.chip.port u.val).load = none ∧ (s.chip.port u.val).enumQ = [] ∧ (s.chip.port u.val).latchLate = true ∧ s.chip.ctlRuns =
      true) ∧
    (∃ (u : Fin 8) (j : Job) (x : LatchReq) (s : State), OnlyJob s j ∧ j.turn = none ∧ (s.chip.port u.val).latchJob = some j.id ∧
      s.chip.latches = [x] ∧ x.job = j.id ∧ x.ports = [u.val] ∧ x.unit = u.val ∧ (s.chip.port u.val).latchWait = true ∧ (s.chip.port
      u.val).latchAt = none ∧ (s.chip.port u.val).latchLate = false ∧ (s.chip.port u.val).txBusy = false ∧ (s.chip.port u.val).enumAt = none
      ∧ (s.chip.port u.val).statWait = false ∧ s.chip.sys.halted = false ∧ (s.chip.port u.val).slow = true ∧ (s.chip.port u.val).load = none
      ∧ (s.chip.port u.val).enumQ = [] ∧ (s.chip.port u.val).latchQ = []) ∧
    (∃ (u : Fin 8) (words : List (Nat × Nat)) (s : State), (s.chip.port u.val).statWait = true ∧ ((∀ w ∈ words, wordGood w = true)) ∧
      (fallsToZero (words.map fun w => w.1) = true) ∧ (s.chip.port u.val).load = none ∧ (s.chip.port u.val).enumQ = [] ∧ bits (words.headD
      (0, 0)).1 9 0 + 1 ≠ (s.chip.port u.val).table_.length ∧ s.chip.ctlRuns = true) ∧
    (∃ (u : Fin 8) (words : List (Nat × Nat)) (whole : Bool) (s : State), (s.chip.port u.val).statWait = true ∧ ((whole = false ∨ words.all
      wordGood = false ∨ fallsToZero (words.map fun w => w.1) = false)) ∧ (s.chip.port u.val).load = none ∧ (s.chip.port u.val).enumQ = []) ∧
    (∃ (u : Fin 8) (words : List (Nat × Nat)) (j : Job) (x : LatchReq) (s : State), OnlyJob s j ∧ j.turn = none ∧ (s.chip.port
      u.val).statWait = true ∧ (s.chip.port u.val).latchJob = some j.id ∧ (s.chip.port u.val).latchWait = false ∧ s.chip.latches = [x] ∧
      x.job = j.id ∧ x.ports = [u.val] ∧ x.unit = u.val ∧ ((∀ w ∈ words, wordGood w = true)) ∧ (fallsToZero (words.map fun w => w.1) = true)
      ∧ bits (words.headD (0, 0)).1 9 0 + 1 = (s.chip.port u.val).table_.length ∧ ((∀ w ∈ words, ∀ y, (s.chip.port u.val).table_[bits w.1 9
      0]? = some y → bits w.1 17 10 = bits y.2 17 10)) ∧ (s.chip.port u.val).load = none ∧ (s.chip.port u.val).enumQ = []) ∧
    (∃ (u : Fin 8) (s : State), (s.chip.port u.val).statWait = true ∧ (s.chip.port u.val).load = none ∧ (s.chip.port u.val).enumQ = [] ∧
      s.chip.ctlRuns = true) ∧
    (∃ (u : Fin 8) (s : State), (s.chip.port u.val).statWait = true ∧ (s.chip.port u.val).latchJob = none ∧ (s.chip.port u.val).latchWait =
      false ∧ (s.chip.port u.val).load = none ∧ (s.chip.port u.val).enumQ = []) :=
  ⟨⟨{}, 3, 0, own 0x17 3 (pt 3 2 ready10 up), by decide +kernel⟩,
    ⟨3, 9, on (pt 3 2 { ready10 with latchJob := some 9, latchWait := true, latchLate := true, latchAt := some 5 } up) fun c =>
      { c with latches := [{ job := 9, ports := [3], unit := 3 }], jobs := [{ id := 9, op := .lampLatch {} 3 0 }] }, by decide +kernel⟩,
    ⟨3, { id := 9, op := .lampLatch {} 3 0 }, { job := 9, ports := [3], unit := 3 }, on (pt 3 3
      { cfg := 3, latchJob := some 9, latchWait := true, sentUnl := true, send := some (0, [1]) } up) fun c =>
      { c with latches := [{ job := 9, ports := [3], unit := 3 }], jobs := [{ id := 9, op := .lampLatch {} 3 0 }] }, by decide +kernel⟩,
    ⟨3, w10 [0], pt 3 2 { ready10 with statWait := true } up, by decide +kernel⟩,
    ⟨3, [(0, 0)], true, pt 3 2 { ready10 with statWait := true } up, by decide +kernel⟩,
    ⟨3, w10 [1, 0], { id := 9, op := .lampLatch {} 3 0 }, { job := 9, ports := [3], unit := 3, late := true, t := 77 }, on (pt 3 2
      { ready10 with statWait := true, latchJob := some 9 } up) fun c =>
      { c with latches := [{ job := 9, ports := [3], unit := 3, late := true, t := 77 }], jobs := [{ id := 9, op := .lampLatch {} 3 0 }] },
      by decide +kernel⟩,
    ⟨3, pt 3 2 { ready10 with statWait := true, retErr := 65535 } up, by decide +kernel⟩,
    ⟨3, pt 3 2 { ready10 with statWait := true, retErr := 65535 } up, by decide +kernel⟩⟩

/-- The hypotheses of `Obligations.PortEnumeration` can be met. -/
theorem test_portEnumeration :
    (∃ (h : Hdr) (u : Fin 8) (addr : Nat) (s : State), Admitted (enumDesc u.val addr false) h s ∧ firstFail (enumChecks u.val s.regs s.chip)
      = none ∧ LineFree s u.val) ∧
    (∃ (h : Hdr) (u : Fin 8) (addr : Nat) (s : State), Admitted (enumDesc u.val addr false) h s ∧ firstFail (enumChecks u.val s.regs s.chip)
      = none ∧ (s.chip.port u.val).load = none ∧ ((s.chip.port u.val).txBusy = true ∨ (s.chip.port u.val).enumAt ≠ none ∨ (s.chip.port
      u.val).latchWait = true ∨ (s.chip.port u.val).statWait = true)) ∧
    (∃ (h : Hdr) (u : Fin 8) (addr : Nat) (s : State), Admitted (enumDesc u.val addr true) h s ∧ Answers h s ∧ firstFail (enumChecks u.val
      s.regs s.chip) = none ∧ (s.chip.port u.val).valid = true ∧ (s.chip.port u.val).table_ ≠ [] ∧ (s.chip.ring h.fn).dmaOk = true) ∧
    (∃ (u : Fin 8) (a : Nat) (d : Nat) (_ : Nat) (s : State), (s.chip.port u.val).enumAt = some a ∧ (s.chip.port u.val).enumOp ≠ 1 ∧ a < 511
      ∧ tablePixels (s.chip.port u.val).enumTab + nodePixels d ≤ 32768 ∧ (((s.chip.port u.val).enumTab.map fun y => nodeShare y.1).sum +
      nodeShare d ≤ 98304)) ∧
    (∃ (u : Fin 8) (a : Nat) (_ : Nat) (_ : Nat) (s : State), (s.chip.port u.val).enumAt = some a ∧ (s.chip.port u.val).enumOp = 1 ∧ a <
      1022) ∧
    (∃ (u : Fin 8) (reply : Option (Nat × Nat)) (a : Nat) (j : Job) (s : State), (s.chip.port u.val).enumAt = some a ∧ (reply = none ∨
      (s.chip.port u.val).enumOp = 0 ∧ (∃ d ∈ reply, 32768 < tablePixels (s.chip.port u.val).enumTab + nodePixels d.1)) ∧ (s.chip.port
      u.val).enumOp ≠ 3 ∧ (s.chip.port u.val).enumJob = some j.id ∧ OnlyJob s j ∧ j.turn = none ∧ s.chip.ctlRuns = true ∧ (s.chip.port
      u.val).load = none ∧ (s.chip.port u.val).enumQ = []) ∧
    (∃ (u : Fin 8) (a : Nat) (s : State), (s.chip.port u.val).enumAt = some a ∧ (s.chip.port u.val).enumOp = 3 ∧ (s.chip.port u.val).enumJob
      = none ∧ s.chip.ctlRuns = true ∧ (s.chip.port u.val).load = none ∧ (s.chip.port u.val).enumQ = [] ∧ sameTable (s.chip.port
      u.val).enumTab (s.chip.port u.val).table_ = true) ∧
    (∃ (u : Fin 8) (a : Nat) (s : State), (s.chip.port u.val).enumAt = some a ∧ (s.chip.port u.val).enumOp = 3 ∧ (s.chip.port u.val).enumJob
      = none ∧ s.chip.ctlRuns = true ∧ (s.chip.port u.val).load = none ∧ (s.chip.port u.val).enumQ = [] ∧ sameTable (s.chip.port
      u.val).enumTab (s.chip.port u.val).table_ = false) ∧
    (∃ (u : Fin 8) (s : State), bit (s.chip.port u.val).feed 7 = true ∧ (s.chip.stall (bits (s.chip.port u.val).feed 5 0)).st ≠ .on ∧
      (s.chip.port u.val).feedLost = false) ∧
    (∃ (u : Fin 8) (j : Job) (s : State), bit (s.chip.port u.val).feed 7 = true ∧ (s.chip.stall (bits (s.chip.port u.val).feed 5 0)).st ≠
      .on ∧ (s.chip.port u.val).feedLost = false ∧ OnlyJob s j ∧ j.turn = none ∧ ((s.chip.port u.val).sendJob = some j.id ∨ (s.chip.port
      u.val).loadJob = some j.id ∨ (s.chip.port u.val).enumJob = some j.id ∨ (s.chip.port u.val).latchJob = some j.id)) ∧
    (∃ (u : Fin 8) (s : State), bit (s.chip.port u.val).feed 7 = true ∧ (s.chip.stall (bits (s.chip.port u.val).feed 5 0)).st = .on ∧
      (s.chip.port u.val).feedLost = true ∧ portSlow s.regs u.val = false ∧ LineFree s u.val) ∧
    (∃ (u : Fin 8) (s : State), bit (s.chip.port u.val).feed 7 = true ∧ (s.chip.stall (bits (s.chip.port u.val).feed 5 0)).st = .on ∧
      (s.chip.port u.val).feedLost = true ∧ portSlow s.regs u.val = true) :=
  ⟨⟨{}, 3, 0, own 0x17 3 (pt 3 2 ready10 up), by decide +kernel⟩,
    ⟨{}, 3, 0x100000000, own 0x17 3 (pt 3 2 { statWait := true } up), by decide +kernel⟩,
    ⟨{}, 3, 0x100000000, own 0x17 3 (pt 3 2 ready10 up), by decide +kernel⟩,
    ⟨3, 510, 0x64, 0, pt 3 2 { enumAt := some 510 } up, by decide +kernel⟩,
    ⟨3, 1021, 0x64, 5, pt 3 2 { enumAt := some 1021, enumOp := 1 } up, by decide +kernel⟩,
    ⟨3, none, 2, { id := 9, op := .lampEnumFull {} 3 0x100000000 }, job10 (.lampEnumFull {} 3 0x100000000) (pt 3 2
      { enumAt := some 2, enumJob := some 9, enumTab := [(0x64, 0), (0x32, 0)] } up), by decide +kernel⟩,
    ⟨3, 2, pt 3 2
      { ready10 with valid := false, enumAt := some 2, enumOp := 3, enumTab := [(0x00001064, 0), (0x00000032, 5)], shown := some (0, [1]) }
      up, by decide +kernel⟩,
    ⟨3, 1, pt 3 2 { ready10 with valid := false, enumAt := some 1, enumOp := 3, enumTab := [(0x00001064, 0)], shown := some (0, [1]) } up,
      by decide +kernel⟩,
    ⟨3, pt 3 2 { ready10 with txBusy := true, statWait := true, feed := 0xBF } up, by decide +kernel⟩,
    ⟨3, { id := 9, op := .lampEnumFull {} 3 0 }, job10 (.lampEnumFull {} 3 0) (pt 3 2
      { ready10 with enumJob := some 9, enumAt := some 3, feed := 0xBF } up), by decide +kernel⟩,
    ⟨3, on (pt 3 2 { feedLost := true, feed := 0xBF } up) fun c => c.setStall 63 { st := .on }, by decide +kernel⟩,
    ⟨3, on (pt 3 3 { feedLost := true, feed := 0xBF } up) fun c => c.setStall 63 { st := .on }, by decide +kernel⟩⟩

/-- The hypotheses of `Obligations.SwitchInputs` can be met. -/
theorem test_switchInputs :
    (∃ (_ : List Int) (s : State), dioOn s.regs s.chip = true ∧ s.chip.halt.snaps = []) ∧
    (∃ (_ : List Int) (s : State), s.chip.parked = true ∧ s.chip.sys.aon = true ∧ s.chip.sys.sleepTo = none) ∧
    (∃ (h : Hdr) (u : Fin 128) (addr : Nat) (s : State), AdmittedYard (descSiSnapshot u addr) h 3 (checks56 s.regs s.chip 0x12 u.val) s ∧
      (s.chip.ring h.fn).dmaOk = true) ∧
    (∃ (_ : List Int) (s : State), dioOn s.regs s.chip = true ∧ s.chip.halt.snaps ≠ []) ∧
    (∃ (k : Fin 12) (_ : Bool) (s : State), dioOn s.regs s.chip = true ∧ ((∀ n, n < 10 → posSrc s.regs n ≠ 1 ∧ posSrc s.regs n ≠ 2)) ∧ bit
      (s.regs.h (Reg.ENC_CFG k.val)) 13 = false) ∧
    (∃ (k : Fin 12) (rising : Bool) (s : State), dioOn s.regs s.chip = true ∧ bits (s.regs.h (Reg.ENC_CFG k.val)) 15 14 ≠ (if rising then 1 else
      0)) ∧
    (∃ (_ : List Nat) (s : State), dioOn s.regs s.chip = true) :=
  ⟨⟨[13500, 0, 7000], setH [(Reg.SI_CFG 1, 0x8104), (Reg.SI_CFG 2, 0x8F02)] up, by decide +kernel⟩,
    ⟨[0, 13500], setH [(Reg.SI_CFG 0, 0x9300), (Reg.SI_CFG 1, 0x9300)] (onSys up fun y =>
      { y with power := .park, ctl := .off, armed := true }), by decide +kernel⟩,
    ⟨{}, 87, 0x100000000, own 0x12 87 up, by decide +kernel⟩,
    ⟨[0, 13500], on up fun c =>
      { c with halt := { c.halt with snaps := [(9, 0x100000000)] }, jobs := [{ id := 9, op := .siSnapshot {} 0 true 0x100000000 }] }, by
      decide +kernel⟩,
    ⟨11, false, setH [(Reg.ENC_CFG 11, 0x8000)] up, by decide +kernel⟩,
    ⟨3, true, setH [(Reg.ENC_CFG 3, 0x2500)] up, by decide +kernel⟩,
    ⟨[5000, 0, 4095, 100], setH [(Reg.AIN_LIM 1, 0x00640001), (Reg.AIN_CFG 1, 0x4500)] up, by decide +kernel⟩⟩

/-- The hypotheses of `Obligations.SignalOutputs` can be met. -/
theorem test_signalOutputs :
    (∃ (h : Hdr) (u : Fin 12) (clear : Bool) (s : State), AdmittedYard (descDoSet u s) h 3 (checks56 s.regs s.chip 0x11 u.val ++
      [((s.chip.yard 3).lockout, St.supplyLow), ((s.chip.dout u.val).latched && !clear, St.latched)]) s ∧ (s.chip.dout u.val).on = false ∧
      (s.chip.dout u.val).waiting = false ∧ (s.chip.dout u.val).req = false) ∧
    (∃ (h : Hdr) (u : Fin 12) (clear : Bool) (s : State), AdmittedYard (descDoSet u s) h 3 (checks56 s.regs s.chip 0x11 u.val ++
      [((s.chip.yard 3).lockout, St.supplyLow), ((s.chip.dout u.val).latched && !clear, St.latched)]) s ∧ (s.chip.dout u.val).on = true ∧
      (s.chip.dout u.val).up = true ∧ (s.chip.dout u.val).req = true) ∧
    (∃ (h : Hdr) (u : Fin 12) (clear : Bool) (s : State), AdmittedYard (descDoSet u s) h 3 (checks56 s.regs s.chip 0x11 u.val ++
      [((s.chip.yard 3).lockout, St.supplyLow), ((s.chip.dout u.val).latched && !clear, St.latched)]) s ∧ (s.chip.dout u.val).req = true ∧
      ((s.chip.dout u.val).on = true ∧ (s.chip.dout u.val).up = false ∨ (s.chip.dout u.val).on = false ∧ (s.chip.dout u.val).waiting =
      true)) ∧
    (∃ (h : Hdr) (u : Fin 12) (clear : Bool) (s : State), AdmittedYard (descDoSet u s) h 3 (checks56 s.regs s.chip 0x11 u.val ++
      [((s.chip.dout u.val).latched && !clear, St.latched)]) s ∧ ((s.chip.dout u.val).on = true ∨ (s.chip.dout u.val).falling = true) ∧
      (s.chip.dout u.val).req = true) ∧
    (∃ (h : Hdr) (u : Fin 12) (clear : Bool) (s : State), AdmittedYard (descDoSet u s) h 3 (checks56 s.regs s.chip 0x11 u.val ++
      [((s.chip.dout u.val).latched && !clear, St.latched)]) s ∧ (s.chip.dout u.val).on = false ∧ (s.chip.dout u.val).falling = false) ∧
    (∃ (n : Fin 12) (m : Nat) (tj : Int) (s : State), m = doLeader s.chip n.val ∧ (s.chip.dout m).on = true ∧ 170000 ≤ tj) ∧
    (∃ (n : Fin 12) (m : Nat) (tj : Int) (s : State), m = doLeader s.chip n.val ∧ (s.chip.dout m).waiting = true ∧ tj < 150000 ∧
      (s.chip.dout m).tripT + 100000000 ≤ s.chip.now ∧ (s.chip.yard 3).lockout = false) ∧
    (∃ (n : Fin 12) (m : Nat) (s : State), m = doLeader s.chip n.val ∧ (s.chip.dout m).on = true) ∧
    (∃ (n : Fin 12) (m : Nat) (ma : Nat) (s : State), m = doLeader s.chip n.val ∧ (s.chip.dout m).on = true ∧ bits (s.regs.h (Reg.DO_CFG m))
      15 8 ≠ 0 ∧ Safety.Reports 3 s ∧ ma < bits (s.regs.h (Reg.DO_CFG m)) 15 8 ∧ (s.chip.dout m).openLoad = false) ∧
    (∃ (n : Fin 12) (m : Nat) (ma : Nat) (s : State), m = doLeader s.chip n.val ∧ (s.chip.dout m).on = true ∧ bits (s.regs.h (Reg.DO_CFG m))
      15 8 ≠ 0 ∧ Safety.Reports 3 s ∧ bits (s.regs.h (Reg.DO_CFG m)) 15 8 ≤ ma ∧ (s.chip.dout m).openLoad = true) :=
  ⟨⟨{}, 11, true, own 0x11 11 (dd 11 { latched := true, att := 3 } up), by decide +kernel⟩,
    ⟨{}, 1, false, own 0x11 1 (dd 1 { on := true, up := true, req := true } up), by decide +kernel⟩,
    ⟨{}, 1, true, own 0x11 1 (dd 1 { waiting := true, req := true, att := 1 } up), by decide +kernel⟩,
    ⟨{}, 11, false, own 0x11 11 (dd 11 { on := true, req := true, up := true } up), by decide +kernel⟩,
    ⟨{}, 11, false, own 0x11 11 (dd 11 { waiting := true, req := true, att := 1, jobs := [4] } up), by decide +kernel⟩,
    ⟨5, 5, 170000, dd 5 { on := true, req := true, att := 1, jobs := [4] } up, by decide +kernel⟩,
    ⟨5, 5, 149999, on (dd 5 { waiting := true, req := true, att := 1 } up) fun c => { c with now := 100000000 }, by decide +kernel⟩,
    ⟨5, 5, dd 5 { on := true, req := true, att := 1 } up, by decide +kernel⟩,
    ⟨5, 5, 9, setH [(Reg.DO_CFG 5, 0xA03)] (dd 5 { on := true, req := true } up), by decide +kernel⟩,
    ⟨5, 5, 10, setH [(Reg.DO_CFG 5, 0xA03)] (dd 5 { on := true, req := true, openLoad := true } up), by decide +kernel⟩⟩

/-- The hypotheses of `Obligations.OutputEdges` can be met. -/
theorem test_outputEdges :
    (∃ (u : Fin 76) (_ : Nat) (id : Nat) (s : State), u.val < 64 ∧ (s.chip.stall u.val).active = true ∧ (s.chip.stall u.val).out = true ∧
      (s.chip.stall u.val).job = some id ∧ (s.chip.stall u.val).pwm = false) ∧
    (∃ (u : Fin 76) (m : Nat) (_ : Nat) (s : State), 64 ≤ u.val ∧ m = doLeader s.chip (u.val - 64) ∧ (s.chip.dout m).on = true ∧
      (s.chip.dout m).up = false) ∧
    (∃ (u : Fin 76) (_ : Nat) (s : State), u.val < 64 ∧ (s.chip.stall u.val).falling = true) ∧
    (∃ (u : Fin 76) (_ : Nat) (s : State), u.val < 64 ∧ (s.chip.stall u.val).falling = true ∧ (s.chip.stall u.val).active = true) ∧
    (∃ (u : Fin 76) (m : Nat) (_ : Nat) (s : State), 64 ≤ u.val ∧ m = doLeader s.chip (u.val - 64) ∧ (s.chip.dout m).on = false ∧
      (s.chip.dout m).falling = true) :=
  ⟨⟨0, 5000, 9, on up fun c => c.setStall 0 { st := .inrush, req := true, out := true, job := some 9, jobsP := [4], clampP := true }, by
      decide +kernel⟩,
    ⟨75, 11, 50, dd 11 { on := true, req := true, jobs := [4, 5] } up, by decide +kernel⟩,
    ⟨63, 100, on up fun c => c.setStall 63 { falling := true, offJobs := [(9, false), (10, true)] }, by decide +kernel⟩,
    ⟨63, 100, on up fun c => c.setStall 63 { st := .on, req := true, duty := 0x8000, falling := true, offJobs := [] }, by decide +kernel⟩,
    ⟨64, 0, 25000, dd 0 { falling := true, jobs := [4] } up, by decide +kernel⟩⟩

/-- The hypotheses of `Obligations.TimerArmAndLowFrequencyTick` can be met (its clauses on this subject). -/
theorem test_timerArm :
    (∃ (h : Hdr) (u : Fin 32) (_ : Option (Fin 4294967296)) (_ : Option (Fin 4294967296)) (_ : Option (Fin 4294967296)) (cfg : Option (Fin
      65536)) (s : State), Admitted (armDesc u.val cfg) h s ∧ Answers h s ∧ firstFail (checks56 s.regs s.chip 0x02 u.val) = none ∧
      s.chip.parked = false ∧ ((s.chip.timer u.val).running = false ∨ cfg = none ∨ (∃ v ∈ cfg, (tmrCfgMask v.val &&& 0xFF) = (s.regs.c
      (Reg.TMR_CFG u.val) &&& 0xFF)))) :=
  ⟨{}, 0, none, none, none, none, own 0x2 0 up, by decide +kernel⟩

/-- The hypotheses of `Obligations.TimerStartsAndHappenings` can be met (its clauses on this subject). -/
theorem test_commonStart :
    (∃ (h : Hdr) (timers : Fin 4294967296) (rows : Fin 256) (s : State), Passes (descGstart h timers rows s) h s ∧ ((∀ a, h.at_ = some a → a
      ≤ s.chip.mt.val + 2000)) ∧ firstFail (checks56 s.regs s.chip 0x02 0) = none ∧ ((∀ w, w < 8 → rows.val.testBit w = true →
      yardCommandable s.chip (rowYard w) = true ∧ (s.chip.yard (rowYard w)).resetting = false)) ∧ ((rows.val < 64 ∨ s.chip.ycOff = false))) ∧
    (∃ (t0 : Nat) (timers : Nat) (rows : Nat) (j : Job) (s : State), s.chip.gstart = [(t0, timers, rows, j.id)] ∧ t0 ≤ s.chip.mt.val ∧
      OnlyJob s j ∧ j.turn = none ∧ s.chip.parked = false) :=
  ⟨⟨{}, 4294967295, 255, own 0x2 0 up, by
        and_intros <;> first | decide +kernel | exact fun _ e => by cases e⟩,
    ⟨5000000, 0x80000001, 0x81, { id := 9, aux := 1 }, on (setC [(Reg.TMR_INIT 31, 77)] up) fun c =>
      { c with gstart := [(5000000, 0x80000001, 0x81, 9)], jobs := [{ id := 9, aux := 1 }] }, by decide +kernel⟩⟩

/-- The hypotheses of `Obligations.TimerStartsAndHappenings` can be met (its clauses on this subject). -/
theorem test_timerHappenings :
    (∃ (n : Fin 32) (s : State), (s.chip.timer n.val).running = true ∧ cascaded s.chip n.val = false ∧ ¬(n.val % 2 = 0 ∧ cascaded s.chip
      (n.val + 1) = true ∧ (s.chip.timer (n.val + 1)).running = true ∧ (s.chip.timer (n.val + 1)).count = 0) ∧ s.chip.ctlRuns = true ∧ bit
      (s.regs.c (Reg.TMR_CFG n.val)) 8 = true) ∧
    (∃ (n : Fin 32) (s : State), n.val % 2 = 1 ∧ (s.chip.timer n.val).running = true ∧ cascaded s.chip n.val = true ∧ (s.chip.timer (n.val -
      1)).running = true) ∧
    (∃ (n : Fin 32) (s : State), (s.chip.timer n.val).running = true ∧ s.chip.parked = false ∧ s.chip.ctlRuns = true ∧ bit (s.chip.timer
      n.val).cfg 2 = true ∧ (s.chip.timer n.val).cmp ≤ (s.chip.timer n.val).next ∧ bit (s.regs.c (Reg.TMR_CFG n.val)) 9 = true) ∧
    (∃ (n : Fin 32) (s : State), (s.chip.timer n.val).running = true ∧ s.chip.parked = true ∧ s.chip.sys.armed = true ∧ s.chip.sys.sleepTo =
      none ∧ s.chip.sys.wakeRec = [] ∧ bit (s.chip.timer n.val).cfg 2 = true ∧ (s.chip.timer n.val).cmp ≤ (s.chip.timer n.val).next ∧ bit
      (s.regs.c (Reg.TMR_CFG n.val)) 12 = true) ∧
    (∃ (k : Fin 12) (n : Nat) (s : State), dioOn s.regs s.chip = true ∧ s.chip.fwRuns = true ∧ n = bits (s.regs.h (Reg.ENC_CFG k.val)) 12 8
      ∧ bit (s.regs.h (Reg.ENC_CFG k.val)) 13 = true ∧ bits (s.regs.h (Reg.ENC_CFG k.val)) 15 14 = 0 ∧ ((∀ m, m < 10 → posSrc s.regs m ≠ 1 ∧
      posSrc s.regs m ≠ 2)) ∧ (s.chip.timer n).capSeen = true ∧ bit (s.regs.c (Reg.TMR_CFG n)) 10 = true) :=
  ⟨⟨3, setC [(Reg.TMR_CFG 3, 0x101)] (on up fun c =>
      { c.setTimer 3 { running := true, cfg := 1, count := 9, zeros := 65535 } with seqs := [{ job := 9, trig := some 3 }], halt := { c.halt with loops := [(2, { st := .moving })] } }),
      by decide +kernel⟩,
    ⟨31, on up fun c => (c.setTimer 31 { running := true, cfg := 3, count := 0 }).setTimer 30 { running := true }, by decide +kernel⟩,
    ⟨3, setC [(Reg.TMR_CFG 3, 0x205)] (on up fun c => c.setTimer 3 { running := true, cfg := 5, count := 9, cmp := 4 }), by decide +kernel⟩,
    ⟨3, setC [(Reg.TMR_CFG 3, 0x1005)] (on (onSys up fun y => { y with power := .park, ctl := .off, armed := true }) fun c => c.setTimer 3
      { running := true, cfg := 5, count := 9, cmp := 4, lf := true }), by decide +kernel⟩,
    ⟨5, 31, setH [(Reg.ENC_CFG 5, 0x3F00)] (setC [(Reg.TMR_CFG 31, 0x401)] (on up fun c => c.setTimer 31
      { capSeen := true, capT := 4000000 })), by decide +kernel⟩⟩

/-- The hypotheses of `Obligations.TimerArmAndLowFrequencyTick` can be met (its clauses on this subject). -/
theorem test_lowFrequencyTick :
    (∃ (s : State), s.chip.mt.src ≠ .lf) ∧
    (∃ (s : State), s.chip.mt.src = .lf ∧ s.chip.mt.frac.natAbs ≤ 500000000 ∧ ((∀ n, (s.chip.timer n).lf = false))) ∧
    (∃ (n : Nat) (x : Timer) (s : State), s.chip.mt.src = .lf ∧ s.chip.timer n = x ∧ ((s.chip.timers.map fun e => e.1).Nodup) ∧ n < 32 ∧
      x.lf = true ∧ x.running = true ∧ bit x.cfg 1 = false ∧ bit x.cfg 2 = false ∧ x.frac.natAbs ≤ 32 * 2 ^ x.presc ∧ 6200 < x.count) :=
  ⟨⟨up, by decide +kernel⟩,
    ⟨on up fun c => { c with mt := { c.mt with src := .lf, frac := 500000000 } }, by
        and_intros <;> first | decide +kernel | exact fun _ => rfl⟩,
    ⟨31, { running := true, lf := true, count := 6201, frac := 32 }, on up fun c =>
      { c with mt := { c.mt with src := .lf }, timers := [(31, { running := true, lf := true, count := 6201, frac := 32 })] }, by
      decide +kernel⟩⟩

/-- The hypotheses of `Obligations.ModuleTime` can be met. -/
theorem test_moduleTime :
    (∃ (p : Fin 2) (d : Int) (s : State), gptpOn s.regs s.chip p.val = true ∧ gptpOn s.regs s.chip (1 - p.val) = true ∧ ((∀ j ∈ s.chip.jobs,
      j.waiting = false)) ∧ (let m := { s.chip.mt with slaveOk := true, slavePort := p.val, offset := d }; 10000000000 < d ∧
      s.chip.mt.behind = false)) ∧
    (∃ (p : Fin 2) (d : Int) (s : State), gptpOn s.regs s.chip p.val = true ∧ (let m :=
      { s.chip.mt with slaveOk := true, slavePort := p.val, offset := d }; 1000000 < d ∧ d ≤ 10000000000)) ∧
    (∃ (p : Fin 2) (d : Int) (s : State), gptpOn s.regs s.chip p.val = true ∧ (let m :=
      { s.chip.mt with slaveOk := true, slavePort := p.val, offset := d }; -1000000 ≤ d ∧ d ≤ 1000000 ∧ (0 ≤ d ∨ s.chip.mt.firstSync =
      true))) ∧
    (∃ (s : State), s.chip.fwRuns = true ∧ s.chip.sys.halted = false ∧ s.chip.mt.slaveOk = true ∧ s.chip.mt.offset.natAbs ≤ 80 ∧
      s.chip.mt.st ≠ 2) ∧
    (∃ (p : Fin 2) (prio : Fin 256) (_ : Nat) (gm : Nat) (s : State), gptpOn s.regs s.chip p.val = true ∧ ((bits (s.regs.c Reg.TIME_CFG) 7 0
      = 255 ∨ prio.val < bits (s.regs.c Reg.TIME_CFG) 7 0)) ∧ ((s.chip.mt.gm = none ∨ ∃ g ∈ s.chip.mt.gm, g ≠ gm ∧ (prio.val <
      s.chip.mt.gmPrio ∨ (s.chip.mt.st = 3 ∧ s.chip.mt.slaveOk = false))))) ∧
    (∃ (p : Fin 2) (prio : Fin 256) (_ : Nat) (gm : Nat) (s : State), gptpOn s.regs s.chip p.val = true ∧ s.chip.mt.gm ≠ some gm ∧ bits
      (s.regs.c Reg.TIME_CFG) 7 0 < prio.val) ∧
    (∃ (p : Fin 2) (_ : Fin 256) (_ : Nat) (gm : Nat) (s : State), gptpOn s.regs s.chip p.val = true ∧ s.chip.mt.gm = some gm) ∧
    (∃ (p : Fin 2) (_ : Nat) (s : State), gptpOn s.regs s.chip p.val = true) ∧
    (∃ (p : Fin 2) (ls : Int) (lp : Int) (s : State), gptpOn s.regs s.chip p.val = true ∧ -128 ≤ ls ∧ ls ≤ 127 ∧ -128 ≤ lp ∧ lp ≤ 127) :=
  ⟨⟨0, 10000000001, up, by decide +kernel⟩,
    ⟨1, 10000000000, up, by decide +kernel⟩,
    ⟨0, 1000000, on up fun c => { c with mt := { c.mt with st := 2 } }, by decide +kernel⟩,
    ⟨on up fun c => { c with mt := { c.mt with slaveOk := true, offset := -80, st := 1 } }, by decide +kernel⟩,
    ⟨1, 254, 5, 7, setC [(Reg.TIME_CFG, 0x000D07FF)] up, by decide +kernel⟩,
    ⟨1, 6, 5, 7, setC [(Reg.TIME_CFG, 0x000D0705)] up, by decide +kernel⟩,
    ⟨1, 255, 5, 7, on up fun c => { c with mt := { c.mt with gm := some 7, gmPrio := 4 } }, by decide +kernel⟩,
    ⟨0, 300, up, by decide +kernel⟩,
    ⟨0, -127, 125, up, by decide +kernel⟩⟩

/-- The hypotheses of `Obligations.NetworkReception` can be met. -/
theorem test_networkReception :
    (∃ (c : Instr) (u : Nat) (f : NetFrm) (sof : Nat) (s : State), Receives s c u f sof ∧ SegUp s u ∧ (s.chip.seg u).st = .awake ∧ findRoute
      s.chip u f = none ∧
      let rec_ := recordBytes sof u 7 f;
      (∃ (b : RxBuf) (j : Job), (s.chip.seg u).rx = [b] ∧ OnlyJob s j ∧ j.turn = none ∧ j.id = b.job ∧ b.used + rec_.length ≤ b.len ∧
      (s.chip.ring j.h.fn).dmaOk = true) ∧ (∃ (b : RxBuf) (j : Job), (s.chip.seg u).rx = [b] ∧ OnlyJob s j ∧ j.turn = none ∧ j.id = b.job ∧
      b.used + rec_.length ≤ b.len ∧ b.recs = 0 ∧ b.flush = 0)) ∧
    (∃ (c : Instr) (u : Nat) (f : NetFrm) (sof : Nat) (s : State), Receives s c u f sof ∧ SegUp s u ∧ (s.chip.seg u).st = .awake ∧ findRoute
      s.chip u f = none ∧ (s.chip.seg u).rx = [] ∧ (s.chip.seg u).dropRun = false) ∧
    (∃ (c : Instr) (u : Nat) (f : NetFrm) (sof : Nat) (s : State), Receives s c u f sof ∧ SegUp s u ∧ (s.chip.seg u).st = .awake ∧ findRoute
      s.chip u f = none ∧
      let rec_ := recordBytes sof u 7 f;
      (∃ (b : RxBuf) (j : Job), (s.chip.seg u).rx = [b] ∧ OnlyJob s j ∧ j.turn = none ∧ j.id = b.job ∧ b.used + rec_.length ≤ b.len ∧
      (b.recs ≠ 0 ∨ b.flush ≠ 0))) ∧
    (∃ (c : Instr) (u : Nat) (f : NetFrm) (sof : Nat) (s : State), Receives s c u f sof ∧ SegUp s u ∧ findRoute s.chip u f = none ∧
      (s.chip.seg u).st = .validating ∧ bit (bits (s.regs.c (Reg.NM_CLASS u)) 7 0) 7 = true) ∧
    (∃ (c : Instr) (u : Nat) (f : NetFrm) (sof : Nat) (s : State), Receives s c u f sof ∧ SegUp s u ∧ findRoute s.chip u f = none ∧
      (s.chip.seg u).st = .ready ∧ bit (bits (s.regs.c (Reg.NM_CLASS u)) 15 8) 7 = true) ∧
    (∃ (c : Instr) (u : Nat) (d : Nat) (f : NetFrm) (g : NetFrm) (sof : Nat) (x : Route) (s : State), Receives s c u f sof ∧ SegUp s u ∧
      (s.chip.seg u).st = .awake ∧ findRoute s.chip u f = some x ∧ x.dst = 2 ^ d ∧ d < 16 ∧ d ≠ u ∧ convert s.regs d x.conv f = some g ∧
      let y := s.chip.seg d;
      y.st.normal = true ∧ ((y.signalling = false ∨ y.st ≠ .ready)) ∧ d < 8 ∧ gwCount y < 64) ∧
    (∃ (c : Instr) (u : Nat) (d : Nat) (f : NetFrm) (g : NetFrm) (sof : Nat) (x : Route) (s : State), Receives s c u f sof ∧ SegUp s u ∧
      (s.chip.seg u).st = .awake ∧ findRoute s.chip u f = some x ∧ x.dst = 2 ^ d ∧ d < 16 ∧ d ≠ u ∧ convert s.regs d x.conv f = some g ∧
      let y := s.chip.seg d;
      y.st = .sleep ∧ x.wake = true ∧ heldCount y < 16 ∧ busDrives s.chip = true) ∧
    (∃ (c : Instr) (u : Nat) (d : Nat) (f : NetFrm) (g : NetFrm) (sof : Nat) (x : Route) (s : State), Receives s c u f sof ∧ SegUp s u ∧
      (s.chip.seg u).st = .awake ∧ findRoute s.chip u f = some x ∧ x.dst = 2 ^ d ∧ d < 16 ∧ d ≠ u ∧ convert s.regs d x.conv f = some g ∧
      let y := s.chip.seg d;
      y.st.normal = true ∧ ((y.signalling = false ∨ y.st ≠ .ready)) ∧ 8 ≤ d ∧ d < 14) ∧
    (∃ (c : Instr) (u : Nat) (d : Nat) (f : NetFrm) (g : NetFrm) (sof : Nat) (x : Route) (s : State), Receives s c u f sof ∧ SegUp s u ∧
      (s.chip.seg u).st = .awake ∧ findRoute s.chip u f = some x ∧ x.dst = 2 ^ d ∧ d < 16 ∧ d ≠ u ∧ convert s.regs d x.conv f = some g ∧
      let y := s.chip.seg d;
      y.st.normal = true ∧ ((y.signalling = false ∨ y.st ≠ .ready)) ∧ 14 ≤ d ∧ y.txq.length < 32) ∧
    (∃ (c : Instr) (u : Nat) (d : Nat) (f : NetFrm) (g : NetFrm) (sof : Nat) (x : Route) (s : State), Receives s c u f sof ∧ SegUp s u ∧
      (s.chip.seg u).st = .awake ∧ findRoute s.chip u f = some x ∧ x.dst = 2 ^ d ∧ d < 16 ∧ d ≠ u ∧ convert s.regs d x.conv f = some g ∧
      let y := s.chip.seg d;
      (y.st = .isolated ∨ y.st = .off ∨ (y.st = .sleep ∧ x.wake = false)) ∧ y.signalling = false) ∧
    (∃ (h : Hdr) (u : Fin 19) (len : Fin 65536) (_ : Fin 65536) (addr : Nat) (s : State), Admitted (descNetRxPost u len addr) h s ∧
      firstFail (checks56 s.regs s.chip (netBlock u.val) (netUnit u.val)) = none ∧ txState s.chip u.val ≠ .off ∧ (rxUnit s.chip
      u.val).rx.length < 16) ∧
    (∃ (h : Hdr) (u : Fin 19) (len : Fin 65536) (_ : Fin 65536) (addr : Nat) (s : State), Admitted (descNetRxPost u len addr) h s ∧
      firstFail (checks56 s.regs s.chip (netBlock u.val) (netUnit u.val)) = none ∧ txState s.chip u.val ≠ .off ∧ 16 ≤ (rxUnit s.chip
      u.val).rx.length ∧ Answers h s) ∧
    (∃ (u : Fin 19) (b : RxBuf) (j : Job) (s : State), (rxUnit s.chip u.val).rx = [b] ∧ OnlyJob s j ∧ j.turn = none ∧ j.id = b.job ∧ b.recs
      ≠ 0) :=
  ⟨⟨.canFrameRx 3 ⟨{ f0 with xlf := true, af := 5 }, 77⟩ 127, 3, { f0 with xlf := true, af := 5 }, 77, setC [(Reg.CAN_CFG 3, 0x2022)] (jb
      (sg 3 { st := .awake, rx := [{ job := 9, addr := 0x100000000, len := 256 }], drops := 70000 } up)), by
        and_intros <;> first | exact .inl ⟨3, 127, rfl, rfl, by decide +kernel⟩ | exact ⟨{ job := 9, addr := 0x100000000, len := 256 },
          { id := 9 }, by decide +kernel⟩ | exact ⟨{ job := 9, addr := 0x100000000, len := 256 }, { id := 9 }, by decide +kernel⟩ |
          decide +kernel⟩,
    ⟨.canFrameRx 3 ⟨f0, 77⟩ 5, 3, f0, 77, sg 3 { st := .awake } up, by
        and_intros <;> first | exact .inl ⟨3, 5, rfl, rfl, by decide +kernel⟩ | decide +kernel⟩,
    ⟨.linSlot 5 true [1, 2] true 77, 13, { id := 63, data := [1, 2] }, 77, on (jb (sg 13
      { st := .awake, rx := [{ job := 9, addr := 0x100000000, len := 40, used := 20, recs := 2, flush := 5 }] } (on up fun c => c.setLin 5
      { running := true, silent := [63, 1] }))) fun c => { c with net := { c.net with scheds := [(80, [(63, false)])] } }, by
        and_intros <;> first | exact .inr (.inl ⟨5, rfl, by decide +kernel⟩) | exact
          ⟨{ job := 9, addr := 0x100000000, len := 40, used := 20, recs := 2, flush := 5 }, { id := 9 }, by decide +kernel⟩ |
          decide +kernel⟩,
    ⟨.canFrameRx 3 ⟨f0, 77⟩ 5, 3, f0, 77, setC [(Reg.NM_CLASS 3, 0x8080)] (sg 3 { st := .validating } up), by
        and_intros <;> first | exact .inl ⟨3, 5, rfl, rfl, by decide +kernel⟩ | decide +kernel⟩,
    ⟨.linSlot 5 true [1, 2] true 77, 13, { id := 63, data := [1, 2] }, 77, on (setC [(Reg.NM_CLASS 13, 0x8080)] (sg 13 { st := .ready } (on
      up fun c => c.setLin 5 { running := true }))) fun c => { c with net := { c.net with scheds := [(80, [(63, false)])] } }, by
        and_intros <;> first | exact .inr (.inl ⟨5, rfl, by decide +kernel⟩) | decide +kernel⟩,
    ⟨.canFrameRx 3 ⟨f0, 77⟩ 5, 3, 5, f0, f0, 77, { src := 3, id := 0x123, mask := 0x7FF, dst := 32 }, sg 5 { st := .awake } (sg 3
      { st := .awake } (on up fun c => { c with net := { c.net with routes := [{ src := 3, id := 0x123, mask := 0x7FF, dst := 32 }] } })),
      by
        and_intros <;> first | exact .inl ⟨3, 5, rfl, rfl, by decide +kernel⟩ | decide +kernel⟩,
    ⟨.canFrameRx 3 ⟨f0, 77⟩ 5, 3, 0, f0, { f0 with fdf := true, brs := true }, 77,
      { src := 3, id := 0x123, mask := 0x7FF, dst := 1, conv := 1, wake := true }, sg 3 { st := .awake } (sg 0 { st := .sleep } (on up fun c
      => { c with net := { c.net with routes := [{ src := 3, id := 0x123, mask := 0x7FF, dst := 1, conv := 1, wake := true }] } })), by
        and_intros <;> first | exact .inl ⟨3, 5, rfl, rfl, by decide +kernel⟩ | decide +kernel⟩,
    ⟨.canFrameRx 3 ⟨f0, 77⟩ 5, 3, 13, f0, f0, 77, { src := 3, fmt := 1, dst := 0x2000, wake := true }, sg 3 { st := .awake } (sg 13
      { st := .validating } (on up fun c =>
      { c with net := { c.net with routes := [{ src := 3, fmt := 1, dst := 0x2000, wake := true }] } })), by
        and_intros <;> first | exact .inl ⟨3, 5, rfl, rfl, by decide +kernel⟩ | decide +kernel⟩,
    ⟨.canFrameRx 3 ⟨f0, 77⟩ 5, 3, 14, f0, f0, 77, { src := 3, fmt := 1, dst := 0x4000 }, sg 3 { st := .awake } (sg 14 { st := .ready } (on
      up fun c => { c with net := { c.net with routes := [{ src := 2 }, { src := 3, fmt := 1, dst := 0x4000 }] } })), by
        and_intros <;> first | exact .inl ⟨3, 5, rfl, rfl, by decide +kernel⟩ | decide +kernel⟩,
    ⟨.canFrameRx 3 ⟨f0, 77⟩ 5, 3, 2, f0, f0, 77, { src := 3, fmt := 1, dst := 4 }, sg 3 { st := .awake } (sg 2
      { st := .isolated, gwDrops := 65535 } (on up fun c => { c with net := { c.net with routes := [{ src := 3, fmt := 1, dst := 4 }] } })),
      by
        and_intros <;> first | exact .inl ⟨3, 5, rfl, rfl, by decide +kernel⟩ | decide +kernel⟩,
    ⟨{}, 0, 256, 5, 0x100000000, own 0x18 0 (sg 0 { st := .awake } up), by decide +kernel⟩,
    ⟨{}, 15, 256, 5, 0x100000000, own 0x1A 1 (sg 15 { st := .isolated, rx := List.replicate 16 {} } up), by decide +kernel⟩,
    ⟨0, { job := 9, recs := 65536 }, { id := 9 }, jb (sg 0 { st := .awake, rx := [{ job := 9, recs := 65536 }], drops := 65535 } up), by
      decide +kernel⟩⟩

/-- The hypotheses of `Obligations.NetworkSwitching` can be met. -/
theorem test_networkSwitching :
    (∃ (n : Fin 6) (fid : Nat) (pub : Bool) (_ : Bool) (heard : Bool) (_ : List Nat) (_ : Nat) (s : State), segRuns s.regs s.chip (8 +
      n.val) = true ∧ (s.chip.lin n.val).running = true ∧ (s.chip.seg (8 + n.val)).signalling = false ∧ busDrives s.chip = true ∧ linNext
      s.chip n.val = some (fid, pub) ∧ pub = false ∧ heard = false ∧ fid ∉ (s.chip.lin n.val).silent) ∧
    (∃ (n : Fin 6) (fid : Nat) (pub : Bool) (_ : Bool) (_ : Bool) (_ : List Nat) (_ : Nat) (s : State), segRuns s.regs s.chip (8 + n.val) =
      true ∧ (s.chip.lin n.val).running = true ∧ (s.chip.seg (8 + n.val)).signalling = false ∧ busDrives s.chip = true ∧ linNext s.chip
      n.val = some (fid, pub) ∧ pub = true ∧ (s.chip.seg (8 + n.val)).txq = []) ∧
    (∃ (n : Fin 6) (fid : Nat) (pub : Bool) (good : Bool) (heard : Bool) (_ : List Nat) (_ : Nat) (s : State), segRuns s.regs s.chip (8 +
      n.val) = true ∧ (s.chip.lin n.val).running = true ∧ (s.chip.seg (8 + n.val)).signalling = false ∧ busDrives s.chip = true ∧ linNext
      s.chip n.val = some (fid, pub) ∧ pub = false ∧ heard = true ∧ good = false) ∧
    (∃ (p : Fin 2) (q : Fin 2) (u : Fin 4) (f : NetFrm) (_ : Nat) (s : State), u.val = 2 + p.val ∧ q ≠ p ∧ bbUp s.regs s.chip p.val = true ∧
      bbUp s.regs s.chip q.val = true ∧ (s.chip.seg (16 + p.val)).st = .awake ∧ bit (s.regs.c Reg.SW_CFG) 0 = true ∧ s.chip.net.mac = [] ∧
      frmBe f 0 6 ≠ frmBe f 6 6) ∧
    (∃ (p : Fin 2) (s : State), bit (s.regs.c (Reg.BB_CFG p.val)) 4 = true ∧ bits (s.regs.c (Reg.QBV_LEN p.val)) 6 0 ≠ 0 ∧ (s.chip.bb
      p.val).qbvT ≤ s.chip.mt.val ∧ segRuns s.regs s.chip (16 + p.val) = true) :=
  ⟨⟨5, 63, false, false, false, [], 77, sg 13 { st := .awake } (on up fun c =>
      { c.setLin 5 { running := true, noResp := 65535, chkErr := 65535 } with net := { c.net with scheds := [(80, [(63, false)])] } }), by
      decide +kernel⟩,
    ⟨5, 63, true, false, false, [], 77, sg 13 { st := .awake } (on up fun c =>
      { c.setLin 5 { running := true, pos := 3, sched := 15, pub := [(63, [5, 6])], noResp := 65535, chkErr := 65535 } with net := { c.net with scheds := [(95, [(7, true), (63, true)])] } }),
      by decide +kernel⟩,
    ⟨5, 63, false, false, true, [1], 77, sg 13 { st := .awake } (on up fun c =>
      { c.setLin 5 { running := true, silent := [1, 63], chkErr := 65535 } with net := { c.net with scheds := [(80, [(63, false)])] } }), by
      decide +kernel⟩,
    ⟨0, 1, 2, eth 1 2, 77, setC [(Reg.SW_CFG, 1)] (sg 16 { st := .awake } (sg 17 { st := .awake } (on up fun c => (c.setBb 0
      { link := true }).setBb 1 { link := true }))), by decide +kernel⟩,
    ⟨0, setC [(Reg.BB_CFG 0, 0x11), (Reg.QBV_LEN 0, 3), (Reg.QBV_BASE_LO 0, 5), (Reg.QBV_CYCLE 0, 20000), (Reg.QBV_GATE 1, 0x55),
      (Reg.QBV_IVL 0, 15000)] up, by decide +kernel⟩⟩

/-- The hypotheses of `Obligations.NetworkTransmission` can be met. -/
theorem test_networkTransmission :
    (∃ (h : Hdr) (u : Fin 19) (wake : Bool) (tmo : Fin 65536) (len : Fin 4096) (addr : Nat) (f : NetFrm) (s : State), Admitted (descNetTx u
      len addr f s) h s ∧ firstFail (txChecks u.val wake s.regs s.chip) = none ∧ u.val < 18 ∧ (let ms := if tmo.val = 0 then 1000 else
      tmo.val;
      let x := s.chip.seg u.val;
      x.st = .sleep ∧ busDrives s.chip = true) ∧ (let ms := if tmo.val = 0 then 1000 else tmo.val;
      let x := s.chip.seg u.val;
      x.st = .sleep ∧ ((16 ≤ u.val → (s.chip.bb (u.val - 16)).tc10 = false)))) ∧
    (∃ (h : Hdr) (u : Fin 19) (wake : Bool) (tmo : Fin 65536) (len : Fin 4096) (addr : Nat) (f : NetFrm) (s : State), Admitted (descNetTx u
      len addr f s) h s ∧ firstFail (txChecks u.val wake s.regs s.chip) = none ∧ u.val < 18 ∧ (let ms := if tmo.val = 0 then 1000 else
      tmo.val;
      let x := s.chip.seg u.val;
      x.st.normal = true ∧ (x.signalling = false ∨ x.st ≠ .ready))) ∧
    (∃ (h : Hdr) (u : Fin 19) (wake : Bool) (tmo : Fin 65536) (len : Fin 4096) (addr : Nat) (f : NetFrm) (s : State), Admitted (descNetTx u
      len addr f s) h s ∧ firstFail (txChecks u.val wake s.regs s.chip) = none ∧ u.val < 18 ∧ (let ms := if tmo.val = 0 then 1000 else
      tmo.val;
      let x := s.chip.seg u.val;
      x.st = .ready ∧ x.signalling = true)) ∧
    (∃ (h : Hdr) (wake : Bool) (_ : Fin 65536) (len : Fin 4096) (addr : Nat) (f : NetFrm) (s : State), Admitted (descNetTx 18 len addr f s)
      h s ∧ firstFail (txChecks 18 wake s.regs s.chip) = none ∧ Answers h s) ∧
    (∃ (u : Fin 18) (_ : Fin 256) (_ : Fin 256) (_ : Nat) (x : TxFrame) (j : Job) (s : State), SegUp s u.val ∧ (s.chip.seg u.val).txq = [x]
      ∧ x.hold = false ∧ x.job = some j.id ∧ OnlyJob s j ∧ j.turn = none ∧ (s.chip.seg u.val).signalling = false ∧ busDrives s.chip = true ∧
      ((u.val < 8 → (s.chip.can u.val).fstate ≠ 2 ∧ bit (s.regs.c (Reg.CAN_CFG u.val)) 15 = false)) ∧ ((16 ≤ u.val → (s.chip.bb (u.val -
      16)).link = true)) ∧ ((16 ≤ u.val → gateOpen s.chip (u.val - 16) x = true ∧ gateFits s.regs s.chip (u.val - 16) x = true))) ∧
    (∃ (u : Fin 18) (_ : Fin 256) (_ : Fin 256) (_ : Nat) (x : TxFrame) (j : Job) (s : State), SegUp s u.val ∧ (s.chip.seg u.val).txq = [x]
      ∧ x.hold = false ∧ x.job = some j.id ∧ OnlyJob s j ∧ j.turn = none ∧ (s.chip.seg u.val).signalling = false ∧ busDrives s.chip = true ∧
      ((u.val < 8 → (s.chip.can u.val).fstate ≠ 2 ∧ bit (s.regs.c (Reg.CAN_CFG u.val)) 15 = false)) ∧ ((16 ≤ u.val → (s.chip.bb (u.val -
      16)).link = true)) ∧ 16 ≤ u.val ∧ gateOpen s.chip (u.val - 16) x = false) ∧
    (∃ (u : Fin 18) (_ : Fin 256) (_ : Fin 256) (_ : Nat) (x : TxFrame) (j : Job) (s : State), SegUp s u.val ∧ (s.chip.seg u.val).txq = [x]
      ∧ x.hold = false ∧ x.job = some j.id ∧ OnlyJob s j ∧ j.turn = none ∧ (s.chip.seg u.val).signalling = false ∧ busDrives s.chip = true ∧
      ((u.val < 8 → (s.chip.can u.val).fstate ≠ 2 ∧ bit (s.regs.c (Reg.CAN_CFG u.val)) 15 = false)) ∧ ((16 ≤ u.val → (s.chip.bb (u.val -
      16)).link = true)) ∧ 16 ≤ u.val ∧ gateOpen s.chip (u.val - 16) x = true ∧ gateFits s.regs s.chip (u.val - 16) x = false) ∧
    (∃ (u : Fin 18) (cause : Fin 3) (_ : Fin 256) (_ : Fin 256) (_ : Nat) (x : TxFrame) (j : Job) (s : State), (s.chip.seg u.val).txq = [x]
      ∧ x.hold = false ∧ x.job = some j.id ∧ OnlyJob s j ∧ j.turn = none ∧ resultKept j.op = true ∧ cause ≠ 0) ∧
    (∃ (u : Fin 18) (x : TxFrame) (j : Job) (s : State), ((s.chip.seg u.val).txq.find? (fun (y : TxFrame) => y.hold) = some x) ∧ x.job =
      some j.id ∧ OnlyJob s j ∧ j.turn = none ∧ resultKept j.op = true) ∧
    (∃ (u : Fin 18) (x : TxFrame) (s : State), ((s.chip.seg u.val).txq.find? (fun (y : TxFrame) => y.hold) = some x) ∧ x.job = none ∧
      s.chip.ctlRuns = true) :=
  ⟨⟨{}, 17, true, 7, 36, 0x100000000, ethV 1 2, own 0x1B 1 (sg 17 { st := .sleep } up), by decide +kernel⟩,
    ⟨{}, 0, true, 0, 20, 0x100000000, f0, own 0x18 0 (sg 0 { st := .awake } up), by decide +kernel⟩,
    ⟨{}, 3, true, 50, 20, 0x100000000, f0, own 0x18 3 (sg 3 { st := .ready, signalling := true } up), by decide +kernel⟩,
    ⟨{}, false, 0, 36, 0x100000000, ethV 1 2, own 0x1B 2 (sg 16 { st := .awake } (sg 17 { st := .awake } (on up fun c => (c.setBb 0
      { link := true }).setBb 1 { link := true }))), by decide +kernel⟩,
    ⟨0, 255, 127, 77, { job := some 9, frm := f0 }, { id := 9 }, jb (sg 0 { st := .awake, txq := [{ job := some 9, frm := f0 }] } up), by
      decide +kernel⟩,
    ⟨17, 1, 0, 77, { job := some 9, frm := ethV 1 2, cls := 3 }, { id := 9 }, jb (sg 17
      { st := .ready, txq := [{ job := some 9, frm := ethV 1 2, cls := 3 }] } (on up fun c => c.setBb 1
      { gate := 0xF7, link := true, cycling := true })), by decide +kernel⟩,
    ⟨16, 1, 0, 77, { job := some 9, frm := ethV 1 2, cls := 3 }, { id := 9 }, setC [(Reg.QBV_LEN 0, 2), (Reg.QBV_CYCLE 0, 10000),
      (Reg.QBV_BASE_LO 0, 0), (Reg.QBV_GATE 0, 8), (Reg.QBV_GATE 1, 0), (Reg.QBV_IVL 0, 1000)] (on (jb (sg 16
      { st := .ready, txq := [{ job := some 9, frm := ethV 1 2, cls := 3 }] } (on up fun c => c.setBb 0
      { gate := 8, link := true, cycling := true }))) fun c => { c with mt := { c.mt with val := 5000900 } }), by decide +kernel⟩,
    ⟨0, 1, 255, 127, 77, { job := some 9, frm := f0 }, { id := 9, op := .netTx {} 0 true 0 20 0x100000000 f0 }, jn (sg 0
      { st := .awake, txq := [{ job := some 9, frm := f0 }] } up), by decide +kernel⟩,
    ⟨0, { job := some 9, hold := true }, { id := 9, op := .netTx {} 0 true 0 20 0x100000000 f0 }, jn (sg 0
      { st := .ready, txq := [{ job := some 9, hold := true }] } up), by decide +kernel⟩,
    ⟨17, { hold := true, frm := f0 }, jb (sg 17 { st := .ready, txq := [{ hold := true, frm := f0 }], gwDrops := 65535 } up), by
      decide +kernel⟩⟩

/-- The hypotheses of `Obligations.ControllersAndLinks` can be met. -/
theorem test_controllersAndLinks :
    (∃ (n : Fin 8) (f : NetFrm) (rec_ : Fin 256) (_ : Nat) (s : State), SegUp s n.val ∧ (s.chip.can n.val).fstate = 0 ∧ ((f.xlf = true →
      n.val < 4 ∧ bit (s.regs.c (Reg.CAN_CFG n.val)) 13 = true)) ∧ errorState (s.chip.can n.val).tecE rec_.val = 1) ∧
    (∃ (n : Fin 8) (s : State), SegUp s n.val ∧ (s.chip.can n.val).fstate ≠ 2) ∧
    (∃ (n : Fin 8) (s : State), segRuns s.regs s.chip n.val = true ∧ (s.chip.can n.val).fstate = 2 ∧ (s.chip.can n.val).recovering = true) ∧
    (∃ (n : Fin 8) (s : State), segRuns s.regs s.chip n.val = true ∧ (s.chip.can n.val).fstate = 2 ∧ (s.chip.can n.val).recovering = false) ∧
    (∃ (n : Fin 2) (s : State), SegUp s (14 + n.val) ∧ bits (s.chip.t1s n.val).cfg 7 0 ≠ 0 ∧ (s.chip.t1s n.val).plcaUp = true) ∧
    (∃ (n : Fin 2) (s : State), SegUp s (14 + n.val) ∧ bit (s.chip.t1s n.val).cfg 28 = true) ∧
    (∃ (p : Fin 2) (_ : Fin 8) (eq : Fin 256) (s : State), SegUp s (16 + p.val) ∧ (s.chip.bb p.val).link = false ∧ busDrives s.chip = true ∧
      let lo := bits (s.regs.c Reg.EQ_ENV) 11 8;
      let hi := max lo (bits (s.regs.c Reg.EQ_ENV) 15 12);
      lo ≤ eq.val ∧ eq.val ≤ hi) ∧
    (∃ (p : Fin 2) (s : State), s.chip.ctlRuns = true ∧ (s.chip.bb p.val).link = true) ∧
    (∃ (p : Fin 2) (s : State), (s.chip.seg (16 + p.val)).st = .sleep ∧ (s.chip.bb p.val).tc10 = true ∧ segRuns s.regs s.chip (16 + p.val) =
      true) :=
  ⟨⟨0, f0, 128, 77, sg 0 { st := .awake } up, by decide +kernel⟩,
    ⟨7, setC [(Reg.CAN_CFG 7, 0x4000)] (sg 7 { st := .ready } up), by decide +kernel⟩,
    ⟨7, on up fun c => c.setCan 7 { fstate := 2, recovering := true, tecE := 4, recE := 6 }, by decide +kernel⟩,
    ⟨0, on up fun c => c.setCan 0 { fstate := 2, tecE := 4, recE := 6 }, by decide +kernel⟩,
    ⟨0, setC [(Reg.T1S_CFG 0, 0x10000003)] (sg 14 { st := .awake } (on up fun c => c.setT1s 0 { plcaUp := true, cfg := 0x10000003 })), by
      decide +kernel⟩,
    ⟨1, setC [(Reg.T1S_CFG 1, 0x10000000)] (jb (sg 15 { st := .awake, nmJob := some 9, hostReq := true, signalling := true } up)), by
      decide +kernel⟩,
    ⟨0, 7, 5, setC [(Reg.EQ_ENV, 0x9200)] (sg 16 { st := .awake } up), by decide +kernel⟩,
    ⟨1, on up fun c => c.setBb 1 { link := true, downs := 65535 }, by decide +kernel⟩,
    ⟨1, sg 17 { st := .sleep } (on up fun c => c.setBb 1 { tc10 := true }), by decide +kernel⟩⟩

/-- The hypotheses of `Obligations.SegmentWakesAndEnables` can be met (its clauses on this subject). -/
theorem test_segmentWakes :
    (∃ (c : Instr) (u : Nat) (kind : Nat) (f : NetFrm) (s : State), ((∃ n : Fin 8, u = n.val ∧ ((c = .canWake n 0 f ∧ kind = 0 ∧ bits
      (s.regs.h (Reg.CAN_WAKE n.val)) 1 0 = 1) ∨ (c = .canWake n 1 f ∧ kind = 1 ∧ 2 ≤ bits (s.regs.h (Reg.CAN_WAKE n.val)) 1 0 ∧ wufMatches
      s.regs n.val f = true) ∨ (c = .canWake n 2 f ∧ kind = 2 ∧ 2 ≤ bits (s.regs.h (Reg.CAN_WAKE n.val)) 1 0))) ∨ (∃ n : Fin 6, c = .linWake
      n ∧ u = 8 + n.val ∧ kind = 3) ∨ (∃ n : Fin 2, c = .t1sWake n ∧ u = 14 + n.val ∧ kind = 4) ∨ (∃ p : Fin 2, c = .tc10Wake p ∧ u = 16 +
      p.val ∧ kind = 5 ∧ bit (s.regs.h (Reg.BB_CFG p.val)) 3 = false)) ∧ s.chip.sys.aon = true ∧ wakeArmed s.regs u = true ∧ s.chip.parked =
      false ∧ s.chip.fwRuns = true ∧ s.chip.sys.sleepTo = none ∧ s.chip.sys.wnaAbsent = false ∧ s.chip.sys.wokeUp = false ∧ (s.chip.seg
      u).st = .sleep) ∧
    (∃ (c : Instr) (u : Nat) (kind : Nat) (f : NetFrm) (s : State), ((∃ n : Fin 8, u = n.val ∧ ((c = .canWake n 0 f ∧ kind = 0 ∧ bits
      (s.regs.h (Reg.CAN_WAKE n.val)) 1 0 = 1) ∨ (c = .canWake n 1 f ∧ kind = 1 ∧ 2 ≤ bits (s.regs.h (Reg.CAN_WAKE n.val)) 1 0 ∧ wufMatches
      s.regs n.val f = true) ∨ (c = .canWake n 2 f ∧ kind = 2 ∧ 2 ≤ bits (s.regs.h (Reg.CAN_WAKE n.val)) 1 0))) ∨ (∃ n : Fin 6, c = .linWake
      n ∧ u = 8 + n.val ∧ kind = 3) ∨ (∃ n : Fin 2, c = .t1sWake n ∧ u = 14 + n.val ∧ kind = 4) ∨ (∃ p : Fin 2, c = .tc10Wake p ∧ u = 16 +
      p.val ∧ kind = 5 ∧ bit (s.regs.h (Reg.BB_CFG p.val)) 3 = false)) ∧ s.chip.sys.aon = true ∧ wakeArmed s.regs u = true ∧ s.chip.parked =
      false ∧ s.chip.fwRuns = true ∧ s.chip.sys.sleepTo = none ∧ s.chip.sys.wnaAbsent = false ∧ s.chip.sys.wokeUp = false ∧ (s.chip.seg
      u).st = .off) ∧
    (∃ (c : Instr) (u : Nat) (kind : Nat) (f : NetFrm) (s : State), ((∃ n : Fin 8, u = n.val ∧ ((c = .canWake n 0 f ∧ kind = 0 ∧ bits
      (s.regs.h (Reg.CAN_WAKE n.val)) 1 0 = 1) ∨ (c = .canWake n 1 f ∧ kind = 1 ∧ 2 ≤ bits (s.regs.h (Reg.CAN_WAKE n.val)) 1 0 ∧ wufMatches
      s.regs n.val f = true) ∨ (c = .canWake n 2 f ∧ kind = 2 ∧ 2 ≤ bits (s.regs.h (Reg.CAN_WAKE n.val)) 1 0))) ∨ (∃ n : Fin 6, c = .linWake
      n ∧ u = 8 + n.val ∧ kind = 3) ∨ (∃ n : Fin 2, c = .t1sWake n ∧ u = 14 + n.val ∧ kind = 4) ∨ (∃ p : Fin 2, c = .tc10Wake p ∧ u = 16 +
      p.val ∧ kind = 5 ∧ bit (s.regs.h (Reg.BB_CFG p.val)) 3 = false)) ∧ s.chip.sys.aon = true ∧ wakeArmed s.regs u = true ∧ s.chip.parked =
      false ∧ s.chip.fwRuns = true ∧ s.chip.sys.sleepTo = none ∧ s.chip.sys.wnaAbsent = false ∧ s.chip.sys.wokeUp = false ∧ (s.chip.seg
      u).st = .isolated) ∧
    (∃ (c : Instr) (u : Nat) (kind : Nat) (f : NetFrm) (s : State), ((∃ n : Fin 8, u = n.val ∧ ((c = .canWake n 0 f ∧ kind = 0 ∧ bits
      (s.regs.h (Reg.CAN_WAKE n.val)) 1 0 = 1) ∨ (c = .canWake n 1 f ∧ kind = 1 ∧ 2 ≤ bits (s.regs.h (Reg.CAN_WAKE n.val)) 1 0 ∧ wufMatches
      s.regs n.val f = true) ∨ (c = .canWake n 2 f ∧ kind = 2 ∧ 2 ≤ bits (s.regs.h (Reg.CAN_WAKE n.val)) 1 0))) ∨ (∃ n : Fin 6, c = .linWake
      n ∧ u = 8 + n.val ∧ kind = 3) ∨ (∃ n : Fin 2, c = .t1sWake n ∧ u = 14 + n.val ∧ kind = 4) ∨ (∃ p : Fin 2, c = .tc10Wake p ∧ u = 16 +
      p.val ∧ kind = 5 ∧ bit (s.regs.h (Reg.BB_CFG p.val)) 3 = false)) ∧ s.chip.sys.aon = true ∧ wakeArmed s.regs u = true ∧ s.chip.parked =
      false ∧ s.chip.fwRuns = true ∧ s.chip.sys.sleepTo = none ∧ s.chip.sys.wnaAbsent = false ∧ s.chip.sys.wokeUp = false ∧ (s.chip.seg
      u).st.normal = true) ∧
    (∃ (n : Fin 8) (_ : NetFrm) (s : State), 2 ≤ bits (s.regs.h (Reg.CAN_WAKE n.val)) 1 0) ∧
    (∃ (p : Fin 2) (q : Fin 2) (s : State), q ≠ p ∧ s.chip.sys.aon = true ∧ wakeArmed s.regs (16 + p.val) = true ∧ bit (s.regs.h (Reg.BB_CFG
      p.val)) 3 = true ∧ (s.chip.seg (16 + q.val)).st = .sleep) ∧
    (∃ (u : Fin 18) (s : State), (s.chip.seg u.val).st = .validating ∧ (s.chip.seg u.val).valWait = true ∧ s.chip.sys.halted = false ∧
      s.chip.ctlRuns = true ∧ s.chip.sys.wokeUp = false) ∧
    (∃ (u : Fin 18) (s : State), (s.chip.seg u.val).st = .validating ∧ (s.chip.seg u.val).valWait = true ∧ s.chip.sys.halted = false ∧
      s.chip.ctlRuns = true ∧ falseReturn s.regs (s.chip.setSeg u.val { s.chip.seg u.val with st := .sleep }) = true ∧ ((∃ y ∈ sleepYards
      s.chip, (s.chip.yard y).wdArmed = true))) :=
  ⟨⟨.canWake 0 0 f0, 0, 0, f0, setH [(Reg.CAN_WAKE 0, 1)] (sg 0 { st := .sleep } up), by decide +kernel⟩,
    ⟨.canWake 7 1 f0, 7, 1, f0, setH [(Reg.CAN_WAKE 7, 2), (Reg.SWF_ID 127, 0x80000123), (Reg.SWF_MASK 127, 0x7FF)] (sg 7 { st := .off }
      up), by decide +kernel⟩,
    ⟨.canWake 7 2 f0, 7, 2, f0, setH [(Reg.CAN_WAKE 7, 3)] (sg 7 { st := .isolated, falseWakes := 65535 } up), by decide +kernel⟩,
    ⟨.linWake 5, 13, 3, f0, setH [(Reg.LIN_CFG 5, 0x4000)] (sg 13 { st := .awake } up), by decide +kernel⟩,
    ⟨7, f0, setH [(Reg.CAN_WAKE 7, 3)] (sg 7 { st := .isolated, falseWakes := 65535 } up), by decide +kernel⟩,
    ⟨1, 0, setH [(Reg.BB_CFG 1, 12)] (sg 17 { st := .sleep } (sg 16 { st := .sleep } (on up fun c => c.setBb 0 { tc10 := true }))), by
      decide +kernel⟩,
    ⟨0, sg 0 { st := .validating, valWait := true, falseWakes := 65535 } up, by decide +kernel⟩,
    ⟨17, setC [(Reg.NM_CFG, 2)] (sg 17 { st := .validating, valWait := true } (on (onSys up fun y =>
      { y with power := .standby, wokeUp := true, left := .watch, wakePin := true }) fun c =>
      { c with net := { c.net with wakeSrc := 190, wakeValid := true } })), by decide +kernel⟩⟩

/-- The hypotheses of `Obligations.NetworkManagement` can be met. -/
theorem test_networkManagement :
    (∃ (h : Hdr) (u : Fin 32) (s : State), Admitted (nmDesc u.val false) h s ∧ firstFail (checks56 s.regs s.chip 0x1C u.val) = none ∧ u.val
      < 18 ∧ s.chip.fwRuns = true ∧ (s.chip.seg u.val).nmJob = none ∧ clkLost s.chip (segBlock u.val) = false ∧
      let x := s.chip.seg u.val;
      let ready := u.val < 8 ∨ u.val < 14 ∧ x.st ≠ .sleep ∨ 14 ≤ u.val ∧ u.val < 16 ∧ (s.chip.t1s (u.val - 14)).plcaUp = true ∨ 16 ≤ u.val ∧
        (s.chip.bb (u.val - 16)).link = true ∧ (x.st = .sleep → (s.chip.bb (u.val - 16)).tc10 = false);
      x.st ≠ .off ∧ x.st = .sleep ∧ busDrives s.chip = true ∧ ready ∧ Answers h s ∧ ((16 ≤ u.val → x.st = .sleep → (s.chip.bb (u.val -
      16)).tc10 = false))) ∧
    (∃ (h : Hdr) (u : Fin 32) (s : State), Admitted (nmDesc u.val false) h s ∧ firstFail (checks56 s.regs s.chip 0x1C u.val) = none ∧ u.val
      < 18 ∧ s.chip.fwRuns = true ∧ (s.chip.seg u.val).nmJob = none ∧ clkLost s.chip (segBlock u.val) = false ∧
      let x := s.chip.seg u.val;
      let ready := u.val < 8 ∨ u.val < 14 ∧ x.st ≠ .sleep ∨ 14 ≤ u.val ∧ u.val < 16 ∧ (s.chip.t1s (u.val - 14)).plcaUp = true ∨ 16 ≤ u.val ∧
        (s.chip.bb (u.val - 16)).link = true ∧ (x.st = .sleep → (s.chip.bb (u.val - 16)).tc10 = false);
      x.st ≠ .off ∧ ¬ready) ∧
    (∃ (h : Hdr) (u : Fin 32) (s : State), Admitted (nmDesc u.val false) h s ∧ firstFail (checks56 s.regs s.chip 0x1C u.val) = none ∧ u.val
      < 18 ∧ s.chip.fwRuns = true ∧ (s.chip.seg u.val).nmJob = none ∧ clkLost s.chip (segBlock u.val) = false ∧
      let x := s.chip.seg u.val;
      (s.chip.seg u.val).st = .off ∧ Answers h s) ∧
    (∃ (h : Hdr) (u : Fin 32) (cycle : Bool) (s : State), Admitted (nmDesc u.val false) h s ∧ firstFail (checks56 s.regs s.chip 0x1C u.val)
      = none ∧ Answers h s ∧ u.val < 18 ∧ (s.chip.seg u.val).st.normal = true ∧ cycle = false ∧ bit (s.regs.c (Reg.NM_FEED u.val)) 7 = false
      ∧ (s.chip.seg u.val).st ≠ .isolated) ∧
    (∃ (h : Hdr) (u : Fin 32) (_ : Bool) (s : State), Admitted (nmDesc u.val false) h s ∧ firstFail (checks56 s.regs s.chip 0x1C u.val) =
      none ∧ Answers h s ∧ u.val < 18 ∧ (s.chip.seg u.val).st.normal = false ∧ (s.chip.seg u.val).st = .isolated) ∧
    (∃ (h : Hdr) (u : Fin 32) (s : State), Admitted (nmDesc u.val true) h s ∧ firstFail (checks56 s.regs s.chip 0x1C u.val) = none ∧ Answers
      h s ∧ u.val < 18 ∧ (s.chip.seg u.val).st = .awake) ∧
    (∃ (h : Hdr) (u : Fin 32) (s : State), Admitted (nmDesc u.val true) h s ∧ firstFail (checks56 s.regs s.chip 0x1C u.val) = none ∧ Answers
      h s ∧ u.val < 18 ∧ (s.chip.seg u.val).st ≠ .awake) ∧
    (∃ (u : Fin 18) (s : State), (s.chip.seg u.val).signalling = true ∧ (s.chip.seg u.val).nmJob = none) ∧
    (∃ (u : Fin 18) (s : State), (s.chip.seg u.val).st = .ready ∧ s.chip.ctlRuns = true ∧ (s.chip.seg u.val).readyT + clampN 10 1000 (bits
      (s.regs.c (Reg.NM_TMR1 u.val)) 25 16) * 10000000 ≤ s.chip.now ∧ 8 ≤ u.val ∧ u.val < 14 ∧ busDrives s.chip = true ∧ u.val < 16) ∧
    (∃ (u : Fin 18) (s : State), (s.chip.seg u.val).st = .ready ∧ s.chip.ctlRuns = true ∧ (s.chip.seg u.val).readyT + clampN 10 1000 (bits
      (s.regs.c (Reg.NM_TMR1 u.val)) 25 16) * 10000000 ≤ s.chip.now ∧ 16 ≤ u.val ∧ bit (s.regs.c (Reg.BB_CFG (u.val - 16))) 2 = true ∧
      busDrives s.chip = true) ∧
    (∃ (u : Fin 18) (s : State), (s.chip.seg u.val).st = .ready ∧ s.chip.ctlRuns = true ∧ (s.chip.seg u.val).readyT + clampN 10 1000 (bits
      (s.regs.c (Reg.NM_TMR1 u.val)) 25 16) * 10000000 ≤ s.chip.now ∧ 16 ≤ u.val ∧ bit (s.regs.c (Reg.BB_CFG (u.val - 16))) 2 = false) ∧
    (∃ (u : Fin 18) (s : State), ((s.chip.seg u.val).st = .validating ∨ (s.chip.seg u.val).st = .ready) ∧ s.chip.sys.halted = false ∧
      s.chip.fwRuns = true ∧ clampN 1 1440 (bits (s.regs.c (Reg.NM_TMR2 u.val)) 10 0) * 60000000000 ≤ awakeNs s.chip (s.chip.seg u.val) ∧
      bit (s.regs.c (Reg.NM_FEED u.val)) 7 = false) ∧
    (∃ (u : Fin 18) (s : State), ((s.chip.seg u.val).st = .validating ∨ (s.chip.seg u.val).st = .ready) ∧ s.chip.sys.halted = false ∧
      s.chip.fwRuns = true ∧ clampN 1 1440 (bits (s.regs.c (Reg.NM_TMR2 u.val)) 10 0) * 60000000000 ≤ awakeNs s.chip (s.chip.seg u.val) ∧
      (let i := bits (s.regs.c (Reg.NM_FEED u.val)) 5 0; bit (s.regs.c (Reg.NM_FEED u.val)) 7 = true ∧ cycleOk s.regs s.chip i = true)) ∧
    (∃ (u : Fin 18) (s : State), (s.chip.seg u.val).st = .isolated ∧ (s.chip.seg u.val).holdLeft = true ∧ s.chip.ctlRuns = true) :=
  ⟨⟨{}, 0, own 0x1C 0 (sg 0 { st := .sleep } up), by decide +kernel⟩,
    ⟨{}, 13, own 0x1C 13 (sg 13 { st := .sleep } up), by decide +kernel⟩,
    ⟨{}, 16, own 0x1C 16 (sg 16 { st := .off } up), by decide +kernel⟩,
    ⟨{}, 17, false, own 0x1C 17 (sg 17 { st := .awake, isolations := 65535, hostReq := true } up), by decide +kernel⟩,
    ⟨{}, 5, false, own 0x1C 5 (sg 5 { st := .isolated } up), by decide +kernel⟩,
    ⟨{}, 17, own 0x1C 17 (sg 17 { st := .awake, hostReq := true } up), by decide +kernel⟩,
    ⟨{}, 0, own 0x1C 0 (sg 0 { st := .sleep } up), by decide +kernel⟩,
    ⟨8, sg 8 { st := .ready, signalling := true, txq := [{ hold := true }, {}] } up, by decide +kernel⟩,
    ⟨13, on (sg 13 { st := .ready } up) fun c => { c with now := 10000000000 }, by decide +kernel⟩,
    ⟨17, on (setC [(Reg.BB_CFG 1, 5)] (sg 17 { st := .ready } (on up fun c => c.setBb 1 { link := true }))) fun c =>
      { c with now := 10000000000 }, by decide +kernel⟩,
    ⟨16, on (setC [(Reg.BB_CFG 0, 1)] (sg 16 { st := .ready } (on up fun c => c.setBb 0 { link := true }))) fun c =>
      { c with now := 10000000000 }, by decide +kernel⟩,
    ⟨13, on (setC [(Reg.NM_TMR2 13, 0x7FF)] (sg 13 { st := .ready, awakeAt := some 3 } up)) fun c => { c with now := 90000000000000 }, by
      decide +kernel⟩,
    ⟨13, on (setC [(Reg.NM_FEED 13, 0x85)] (sg 13 { st := .ready, awakeAt := some 3 } (on up fun c => c.setStall 5
      { st := .on, out := true, req := true, duty := 77 }))) fun c => { c with now := 90000000000000 }, by decide +kernel⟩,
    ⟨13, sg 13 { st := .isolated, holdLeft := true } up, by decide +kernel⟩⟩

/-- The hypotheses of `Obligations.NetworkManagement` can be met. -/
theorem test_networkManagement_2 :
    (∃ (u : Fin 18) (i : Nat) (s : State), i = bits (s.regs.h (Reg.NM_FEED u.val)) 5 0 ∧ (s.chip.seg u.val).cycleAsk = true ∧ (s.chip.stall
      i).cycling = true ∧ (s.chip.stall i).st = .off ∧ shedBlocked s.regs s.chip i = false ∧ crossBlocked s.regs s.chip i = false) ∧
    (∃ (u : Fin 18) (i : Nat) (s : State), i = bits (s.regs.h (Reg.NM_FEED u.val)) 5 0 ∧ (s.chip.seg u.val).cycleAsk = true ∧ (s.chip.stall
      i).cycling = true ∧ (s.chip.stall i).st = .off ∧ shedBlocked s.regs s.chip i = true) :=
  ⟨⟨13, 5, setH [(Reg.NM_FEED 13, 0x85)] (sg 13 { st := .isolated, cycleAsk := true } (on up fun c => c.setStall 5
      { st := .off, cycling := true })), by decide +kernel⟩,
    ⟨13, 5, setH [(Reg.NM_FEED 13, 0x85)] (sg 13 { st := .isolated, cycleAsk := true } (on up fun c => (c.setStall 5
      { st := .off, cycling := true, req := true }).setYard 0 { c.yard 0 with lockout := true })), by decide +kernel⟩⟩

/-- The hypotheses of `Obligations.SegmentWakesAndEnables` can be met (its clauses on this subject). -/
theorem test_segmentEnables :
    (∃ (via : Fin 2) (u : Fin 18) (s : State), hostReach s.chip via.val = true ∧ (via.val = 1 ∨ ownerSecure s.regs (segBlock u.val) 0 =
      false) ∧ bit (s.regs.c (segCfg u.val).1) (segCfg u.val).2 = false ∧ (s.chip.seg u.val).st = .off ∧ (s.chip.seg u.val).wakeOff = true) ∧
    (∃ (via : Fin 2) (u : Fin 18) (s : State), hostReach s.chip via.val = true ∧ (via.val = 1 ∨ ownerSecure s.regs (segBlock u.val) 0 =
      false) ∧ bit (s.regs.c (segCfg u.val).1) (segCfg u.val).2 = true ∧ (s.chip.seg u.val).st ≠ .off ∧ 16 ≤ u.val) ∧
    (∃ (via : Fin 2) (u : Fin 18) (s : State), hostReach s.chip via.val = true ∧ (via.val = 1 ∨ ownerSecure s.regs (segBlock u.val) 0 =
      false) ∧ bit (s.regs.c (segCfg u.val).1) (segCfg u.val).2 = false ∧ (s.chip.seg u.val).st = .off ∧ (s.chip.seg u.val).wakeOff = false) :=
  ⟨⟨1, 17, setH [(Reg.BB_CFG 1, 0xE)] (setC [(Reg.BB_CFG 1, 0xE)] (sg 17 { st := .off, wakeOff := true, holdLeft := true } up)), by
      decide +kernel⟩,
    ⟨1, 16, setH [(Reg.BB_CFG 0, 1)] (setC [(Reg.BB_CFG 0, 1)] (sg 16 { st := .ready } (on up fun c => c.setBb 0 { link := true }))), by
      decide +kernel⟩,
    ⟨0, 5, setC [(Reg.CAN_CFG 5, 0x4022)] up, by decide +kernel⟩⟩

/-- The hypotheses of `Obligations.AccessPolls` can be met. -/
theorem test_accessPolls :
    (∃ (h : Hdr) (u : Fin 8) (_ : Fin 4096) (s : State), Admitted (descAccessPoll u) h s ∧ firstFail (checks56 s.regs s.chip 0x1D u.val ++
      [(accLow s.chip (fnKind s.regs u.val), St.supplyLow)]) = none ∧ s.chip.acc.poll = none ∧ s.chip.sys.halted = false ∧ s.chip.acc.queue
      = [] ∧ (accFn s.chip u.val).locked = true ∧ Answers h s) ∧
    (∃ (h : Hdr) (u : Fin 8) (_ : Fin 4096) (s : State), Admitted (descAccessPoll u) h s ∧ firstFail (checks56 s.regs s.chip 0x1D u.val ++
      [(accLow s.chip (fnKind s.regs u.val), St.supplyLow)]) = none ∧ s.chip.acc.poll = none ∧ s.chip.sys.halted = false ∧ s.chip.acc.queue
      = [] ∧ (accFn s.chip u.val).locked = false ∧ fnKind s.regs u.val ≠ 3) ∧
    (∃ (h : Hdr) (u : Fin 8) (_ : Fin 4096) (s : State), Admitted (descAccessPoll u) h s ∧ firstFail (checks56 s.regs s.chip 0x1D u.val ++
      [(accLow s.chip (fnKind s.regs u.val), St.supplyLow)]) = none ∧ (s.chip.acc.poll ≠ none ∨ s.chip.sys.halted = true)) ∧
    (∃ (_ : Fin 16) (p : Poll) (s : State), s.chip.acc.poll = some p ∧ p.set.kind < 2 ∧ (p.rounds = 0 ∨ (p.coll = true ∧ p.rounds < 3))) ∧
    (∃ (_ : Nat) (crc : Fin 65536) (slot : Fin 8) (tid : Fin 4294967296) (cnt : Fin 4294967296) (round : Fin 4) (mac : Nat) (p : Poll) (s :
      State), s.chip.acc.poll = some p ∧ p.set.kind < 2 ∧ p.rounds ≠ 0 ∧
      let good := crc.val = replyCrc tid.val cnt.val slot.val round.val mac;
      ¬good) ∧
    (∃ (_ : Nat) (crc : Fin 65536) (slot : Fin 8) (tid : Fin 4294967296) (cnt : Fin 4294967296) (round : Fin 4) (mac : Nat) (p : Poll) (s :
      State), s.chip.acc.poll = some p ∧ p.set.kind < 2 ∧ p.rounds ≠ 0 ∧
      let good := crc.val = replyCrc tid.val cnt.val slot.val round.val mac;
      good ∧ tid.val ∈ p.seen) ∧
    (∃ (eof : Nat) (crc : Fin 65536) (slot : Fin 8) (tid : Fin 4294967296) (cnt : Fin 4294967296) (round : Fin 4) (mac : Nat) (p : Poll) (s
      : State), s.chip.acc.poll = some p ∧ p.set.kind < 2 ∧ p.rounds ≠ 0 ∧
      let good := crc.val = replyCrc tid.val cnt.val slot.val round.val mac;
      good ∧ tid.val ∉ p.seen ∧ (replySlot p eof ≠ some slot.val ∨ round.val ≠ p.rounds ∨ slotOfTid s.chip tid.val = none)) ∧
    (∃ (eof : Nat) (crc : Fin 65536) (slot : Fin 8) (tid : Fin 4294967296) (cnt : Fin 4294967296) (round : Fin 4) (mac : Nat) (sl : Nat) (p
      : Poll) (s : State), s.chip.acc.poll = some p ∧ p.set.kind < 2 ∧ p.rounds ≠ 0 ∧ crc.val = replyCrc tid.val cnt.val slot.val round.val
      mac ∧ tid.val ∉ p.seen ∧ replySlot p eof = some slot.val ∧ round.val = p.rounds ∧ slotOfTid s.chip tid.val = some sl ∧
      let k := tokenAt s.chip sl;
      let right := aesCmac64 k.key (replyMsg s.chip.acc.vid p.set.kind p tid.val cnt.val slot.val round.val);
      let q := { p with seen := tid.val :: p.seen };
      let rec_ (e : PendRec) : Prop := e.ctr < cnt.val ∧ cnt.val ≤ e.ctr + 16 ∧ accSec s.chip ≤ e.sec + 60;
      mac = right ∧ k.fnMask.testBit p.fn = true ∧ k.ctr + 256 < cnt.val ∧ cnt.val ≤ k.ctr + 32768 ∧ ((∀ e ∈ s.chip.acc.pend,
      s.chip.acc.pend.find? (fun e => e.tid == k.tid) = some e → ¬rec_ e)) ∧ s.chip.ctlRuns = true) ∧
    (∃ (eof : Nat) (crc : Fin 65536) (slot : Fin 8) (tid : Fin 4294967296) (cnt : Fin 4294967296) (round : Fin 4) (mac : Nat) (sl : Nat) (p
      : Poll) (s : State), s.chip.acc.poll = some p ∧ p.set.kind < 2 ∧ p.rounds ≠ 0 ∧ crc.val = replyCrc tid.val cnt.val slot.val round.val
      mac ∧ tid.val ∉ p.seen ∧ replySlot p eof = some slot.val ∧ round.val = p.rounds ∧ slotOfTid s.chip tid.val = some sl ∧
      let k := tokenAt s.chip sl;
      let right := aesCmac64 k.key (replyMsg s.chip.acc.vid p.set.kind p tid.val cnt.val slot.val round.val);
      let q := { p with seen := tid.val :: p.seen };
      mac = right ∧ k.fnMask.testBit p.fn = true ∧ k.ctr < cnt.val ∧ cnt.val ≤ k.ctr + 256) ∧
    (∃ (eof : Nat) (crc : Fin 65536) (slot : Fin 8) (tid : Fin 4294967296) (cnt : Fin 4294967296) (round : Fin 4) (mac : Nat) (sl : Nat) (p
      : Poll) (s : State), s.chip.acc.poll = some p ∧ p.set.kind < 2 ∧ p.rounds ≠ 0 ∧ crc.val = replyCrc tid.val cnt.val slot.val round.val
      mac ∧ tid.val ∉ p.seen ∧ replySlot p eof = some slot.val ∧ round.val = p.rounds ∧ slotOfTid s.chip tid.val = some sl ∧
      let k := tokenAt s.chip sl;
      let right := aesCmac64 k.key (replyMsg s.chip.acc.vid p.set.kind p tid.val cnt.val slot.val round.val);
      let q := { p with seen := tid.val :: p.seen };
      mac = right ∧ k.fnMask.testBit p.fn = true ∧ (cnt.val ≤ k.ctr ∨ k.ctr + 32768 < cnt.val)) ∧
    (∃ (eof : Nat) (crc : Fin 65536) (slot : Fin 8) (tid : Fin 4294967296) (cnt : Fin 4294967296) (round : Fin 4) (mac : Nat) (sl : Nat) (p
      : Poll) (s : State), s.chip.acc.poll = some p ∧ p.set.kind < 2 ∧ p.rounds ≠ 0 ∧ crc.val = replyCrc tid.val cnt.val slot.val round.val
      mac ∧ tid.val ∉ p.seen ∧ replySlot p eof = some slot.val ∧ round.val = p.rounds ∧ slotOfTid s.chip tid.val = some sl ∧
      let k := tokenAt s.chip sl;
      let right := aesCmac64 k.key (replyMsg s.chip.acc.vid p.set.kind p tid.val cnt.val slot.val round.val);
      let q := { p with seen := tid.val :: p.seen };
      mac ≠ right) ∧
    (∃ (eof : Nat) (crc : Fin 65536) (slot : Fin 8) (tid : Fin 4294967296) (cnt : Fin 4294967296) (round : Fin 4) (mac : Nat) (sl : Nat) (p
      : Poll) (s : State), s.chip.acc.poll = some p ∧ p.set.kind < 2 ∧ p.rounds ≠ 0 ∧ crc.val = replyCrc tid.val cnt.val slot.val round.val
      mac ∧ tid.val ∉ p.seen ∧ replySlot p eof = some slot.val ∧ round.val = p.rounds ∧ slotOfTid s.chip tid.val = some sl ∧
      let k := tokenAt s.chip sl;
      let right := aesCmac64 k.key (replyMsg s.chip.acc.vid p.set.kind p tid.val cnt.val slot.val round.val);
      let q := { p with seen := tid.val :: p.seen };
      mac = right ∧ k.fnMask.testBit p.fn = false ∧ k.ctr < cnt.val ∧ cnt.val ≤ k.ctr + 256) ∧
    (∃ (crc : Fin 65536) (tid : Fin 4294967296) (cnt : Fin 4294967296) (mac : Nat) (_ : Fin 256) (p : Poll) (s : State), s.chip.acc.poll =
      some p ∧ p.coil = true ∧ crc.val ≠ coilCrc tid.val cnt.val mac ∧ 3 ≤ p.tries) ∧
    (∃ (crc : Fin 65536) (tid : Fin 4294967296) (cnt : Fin 4294967296) (mac : Nat) (sl : Nat) (_ : Fin 256) (p : Poll) (s : State),
      s.chip.acc.poll = some p ∧ p.coil = true ∧ crc.val = coilCrc tid.val cnt.val mac ∧ slotOfTid s.chip tid.val = some sl ∧
      let k := tokenAt s.chip sl;
      let right := aesCmac64 k.key (coilMsg s.chip.acc.vid p.nonce tid.val cnt.val);
      mac = right ∧ k.fnMask.testBit p.fn = true ∧ k.ctr < cnt.val ∧ cnt.val ≤ k.ctr + 256) :=
  ⟨⟨{ pf := 1, world := true }, 7, 0, ac (fun a => { a with fns := [(7, { locked := true })] }) up, by decide +kernel⟩,
    ⟨{ pf := 1, world := true }, 0, 100, up, by decide +kernel⟩,
    ⟨{ pf := 1, world := true }, 3, 0, ac (fun a => { a with poll := some { job := 5 } }) up, by decide +kernel⟩,
    ⟨0, { fn := 3, set := { cfg := 0xF0 } }, pl { fn := 3, set := { cfg := 0xF0 } } up, by decide +kernel⟩,
    ⟨8969000, 0, 1, 85, 1001, 1, 0, rx, pl rx up, by decide +kernel⟩,
    ⟨8969000, rcrc 85 1001 1 1 (0), 1, 85, 1001, 1, 0, { rx with seen := [0x55] }, pl { rx with seen := [0x55] } up, by decide +kernel⟩,
    ⟨8969000, rcrc 86 1001 1 1 (0), 1, 86, 1001, 1, 0, rx, pl rx up, by decide +kernel⟩,
    ⟨8969000, rcrc 85 1257 1 1 (rm rx 1257), 1, 85, 1257, 1, rm rx 1257, 3, rx, pl rx up, by decide +kernel⟩,
    ⟨8969000, rcrc 85 1001 1 1 (rm rx 1001), 1, 85, 1001, 1, rm rx 1001, 3, rx, pl rx up, by decide +kernel⟩,
    ⟨8969000, rcrc 85 33769 1 1 (rm rx 33769), 1, 85, 33769, 1, rm rx 33769, 3, rx, pl rx up, by decide +kernel⟩,
    ⟨9968999, rcrc 85 1001 1 1 (0), 1, 85, 1001, 1, 0, 3, rx, pl rx up, by decide +kernel⟩,
    ⟨8969000, rcrc 85 1100 1 1 (rm { rx with fn := 1 } 1100), 1, 85, 1100, 1, rm { rx with fn := 1 } 1100, 3, { rx with fn := 1 }, ac (fun a
      => { a with tokens := [(3, { tid := 0x55, fnMask := 0xFD, ctr := 1000, key := kt })] }) (pl { rx with fn := 1 } up), by
      decide +kernel⟩,
    ⟨1, 0x55, 1001, 5, 3, { co with tries := 3 }, pl { co with tries := 3 } up, by decide +kernel⟩,
    ⟨ccrc 1256 (cm 1256), 0x55, 1256, cm 1256, 3, 50, co, pl co up, by decide +kernel⟩⟩

/-- The hypotheses of `Obligations.AccessPolls` can be met. -/
theorem test_accessPolls_2 :
    (∃ (crc : Fin 65536) (tid : Fin 4294967296) (cnt : Fin 4294967296) (mac : Nat) (sl : Nat) (_ : Fin 256) (p : Poll) (s : State),
      s.chip.acc.poll = some p ∧ p.coil = true ∧ crc.val = coilCrc tid.val cnt.val mac ∧ slotOfTid s.chip tid.val = some sl ∧
      let k := tokenAt s.chip sl;
      let right := aesCmac64 k.key (coilMsg s.chip.acc.vid p.nonce tid.val cnt.val);
      mac ≠ right) ∧
    (∃ (slot : Fin 8) (a : Fin 8) (_ : Nat) (_ : Nat) (_ : Nat) (_ : Nat) (_ : Option Bool) (p : Poll) (x : Ranged) (s : State),
      s.chip.acc.poll = some p ∧ s.chip.acc.rke = [] ∧ p.valid = [x] ∧ x.slot = slot.val ∧ a.val ∈ p.set.anchors ∧ a.val ∉ x.lost ∧
      x.tried.count a.val < p.set.nRange) ∧
    (∃ (slot : Fin 8) (a : Fin 8) (_ : Nat) (_ : Nat) (_ : Nat) (_ : Nat) (_ : Option Bool) (p : Poll) (x : Ranged) (s : State),
      s.chip.acc.poll = some p ∧ s.chip.acc.rke = [] ∧ p.valid = [x] ∧ x.slot = slot.val ∧ (a.val ∉ p.set.anchors ∨ a.val ∈ x.lost ∨
      p.set.nRange ≤ x.tried.count a.val)) ∧
    (∃ (slot : Fin 8) (a : Fin 8) (p : Poll) (x : Ranged) (s : State), s.chip.acc.poll = some p ∧ s.chip.acc.rke = [] ∧ p.valid = [x] ∧
      x.slot = slot.val ∧ bit (s.regs.c (Reg.ANCHOR_ID a.val)) 1 = true ∧ s.chip.ctlRuns = true) ∧
    (∃ (_ : Fin 16) (s : State), s.chip.sys.power = .watch ∧ s.chip.sys.aon = true) :=
  ⟨⟨ccrc 1001 (3), 0x55, 1001, 3, 3, 49, co, pl co up, by decide +kernel⟩,
    ⟨3, 0, 400, 300, 100, 120, some true, { rx with valid := [rg 3] }, rg 3, pl { rx with valid := [rg 3] } up, by decide +kernel⟩,
    ⟨3, 1, 400, 300, 100, 120, some true, { rx with valid := [rg 3] }, rg 3, pl { rx with valid := [rg 3] } up, by decide +kernel⟩,
    ⟨3, 0, { rx with valid := [rg 3] }, rg 3, setC [(Reg.ANCHOR_ID 0, 3)] (pl { rx with valid := [rg 3] } up), by decide +kernel⟩,
    ⟨6, setC [(Reg.TACK_CFG, 0xE00)] (onSys up fun y => { y with power := .watch, ctl := .off, armed := true }), by decide +kernel⟩⟩

/-- The hypotheses of `Obligations.PollOutcomesAndRke` can be met (its clauses on this subject). -/
theorem test_pollOutcomes :
    (∃ (p : Poll) (k : Ranged) (j : Job) (s : State), s.chip.acc.poll = some p ∧ OnlyJob s j ∧ j.turn = none ∧ j.id = p.job ∧
      s.chip.acc.queue = [] ∧ p.set.kind ≠ 3 ∧ p.set.ranges = false ∧ p.valid = [k] ∧ k.stsFail = false ∧ p.fails = 0 ∧ (accFn s.chip
      p.fn).fails.length < 5 ∧ s.chip.ctlRuns = true) ∧
    (∃ (p : Poll) (k : Ranged) (d : Rat) (j : Job) (s : State), s.chip.acc.poll = some p ∧ OnlyJob s j ∧ j.turn = none ∧ j.id = p.job ∧
      s.chip.acc.queue = [] ∧ p.set.kind ≤ 2 ∧ p.set.ranges = true ∧ p.valid = [k] ∧ k.stsFail = false ∧ p.fails = 0 ∧ tokenCm p.set k =
      some d ∧ (accFn s.chip p.fn).fails.length < 4 ∧ d ≤ (p.set.bound : Rat) ∧ s.chip.ctlRuns = true) ∧
    (∃ (p : Poll) (k : Ranged) (d : Rat) (j : Job) (s : State), s.chip.acc.poll = some p ∧ OnlyJob s j ∧ j.turn = none ∧ j.id = p.job ∧
      s.chip.acc.queue = [] ∧ p.set.kind ≤ 2 ∧ p.set.ranges = true ∧ p.valid = [k] ∧ k.stsFail = false ∧ p.fails = 0 ∧ tokenCm p.set k =
      some d ∧ (accFn s.chip p.fn).fails.length < 4 ∧ (p.set.bound : Rat) < d) ∧
    (∃ (p : Poll) (j : Job) (s : State), s.chip.acc.poll = some p ∧ OnlyJob s j ∧ j.turn = none ∧ j.id = p.job ∧ s.chip.acc.queue = [] ∧
      p.valid = [] ∧ p.within = none ∧ p.overBound = false ∧
      let x := accFn s.chip p.fn;
      x.fails.length + p.fails < 5) ∧
    (∃ (p : Poll) (j : Job) (s : State), s.chip.acc.poll = some p ∧ OnlyJob s j ∧ j.turn = none ∧ j.id = p.job ∧ s.chip.acc.queue = [] ∧
      p.valid = [] ∧ p.within = none ∧ p.overBound = false ∧
      let x := accFn s.chip p.fn;
      5 ≤ x.fails.length + p.fails) ∧
    (∃ (p : Poll) (j : Job) (s : State), s.chip.acc.poll = some p ∧ OnlyJob s j ∧ j.turn = none ∧ j.id = p.job ∧ s.chip.acc.queue = [] ∧
      p.set.kind = 3 ∧ p.valid = [] ∧ (accFn s.chip p.fn).fails.length + p.fails < 5 ∧ p.within = none ∧ p.overBound = true) :=
  ⟨⟨{ job := 9, set := { cfg := 0 }, valid := [{ slot := 3 }] }, { slot := 3 }, { id := 9 }, po
      { job := 9, set := { cfg := 0 }, valid := [{ slot := 3 }] } [], by decide +kernel⟩,
    ⟨{ rx with valid := [rg2] }, rg2, 100, { id := 9 }, po { rx with valid := [rg2] } [(0, { fails := [1, 2], level := 3 })], by
      decide +kernel⟩,
    ⟨{ rx with valid := [rg3] }, rg3, 101, { id := 9 }, po { rx with valid := [rg3] } [], by decide +kernel⟩,
    ⟨{ job := 9, fn := 2, fails := 3 }, { id := 9 }, po { job := 9, fn := 2, fails := 3 } [(2, { level := 4, fails := [1] })], by
      decide +kernel⟩,
    ⟨{ job := 9, fn := 2, fails := 9 }, { id := 9 }, po { job := 9, fn := 2, fails := 9 } [(2, { level := 4, fails := [1] })], by
      decide +kernel⟩,
    ⟨{ co with overBound := true, fails := 1, coil := false, count := 1 }, { id := 9 }, po
      { co with overBound := true, fails := 1, coil := false, count := 1 } [(6, { fails := [1, 2] })], by decide +kernel⟩⟩

/-- The hypotheses of `Obligations.PollOutcomesAndRke` can be met (its clauses on this subject). -/
theorem test_rkeAndAccessTime :
    (∃ (crc : Fin 65536) (tid : Fin 4294967296) (cnt : Fin 4294967296) (cmd : Fin 256) (mac : Nat) (f : Nat) (sl : Nat) (s : State),
      s.chip.fwRuns = true ∧ domBit s.regs s.chip 4 = true ∧ s.chip.sys.halted = false ∧ crc.val = rkeCrc tid.val cnt.val cmd.val mac ∧
      slotOfTid s.chip tid.val = some sl ∧ (((List.range 8).filter fun g => fnKind s.regs g == 2 && (tokenAt s.chip sl).fnMask.testBit g &&
      !(accFn s.chip g).locked) = [f]) ∧ s.chip.acc.poll = none ∧ s.chip.acc.queue = [] ∧
      let k := tokenAt s.chip sl;
      let right := aesCmac64 k.key (rkeMsg s.chip.acc.vid tid.val cnt.val cmd.val);
      mac = right ∧ k.ctr < cnt.val ∧ cnt.val ≤ k.ctr + 256 ∧ (accSet s.regs f).ranges = false) ∧
    (∃ (crc : Fin 65536) (tid : Fin 4294967296) (cnt : Fin 4294967296) (cmd : Fin 256) (mac : Nat) (f : Nat) (sl : Nat) (s : State),
      s.chip.fwRuns = true ∧ domBit s.regs s.chip 4 = true ∧ s.chip.sys.halted = false ∧ crc.val = rkeCrc tid.val cnt.val cmd.val mac ∧
      slotOfTid s.chip tid.val = some sl ∧ (((List.range 8).filter fun g => fnKind s.regs g == 2 && (tokenAt s.chip sl).fnMask.testBit g &&
      !(accFn s.chip g).locked) = [f]) ∧ s.chip.acc.poll = none ∧ s.chip.acc.queue = [] ∧
      let k := tokenAt s.chip sl;
      let right := aesCmac64 k.key (rkeMsg s.chip.acc.vid tid.val cnt.val cmd.val);
      mac = right ∧ k.ctr < cnt.val ∧ cnt.val ≤ k.ctr + 256 ∧ (accSet s.regs f).ranges = true) ∧
    (∃ (crc : Fin 65536) (tid : Fin 4294967296) (cnt : Fin 4294967296) (cmd : Fin 256) (mac : Nat) (f : Nat) (sl : Nat) (s : State),
      s.chip.fwRuns = true ∧ domBit s.regs s.chip 4 = true ∧ s.chip.sys.halted = false ∧ crc.val = rkeCrc tid.val cnt.val cmd.val mac ∧
      slotOfTid s.chip tid.val = some sl ∧ (((List.range 8).filter fun g => fnKind s.regs g == 2 && (tokenAt s.chip sl).fnMask.testBit g &&
      !(accFn s.chip g).locked) = [f]) ∧ s.chip.acc.poll = none ∧ s.chip.acc.queue = [] ∧
      let k := tokenAt s.chip sl;
      let x := accFn s.chip f;
      let right := aesCmac64 k.key (rkeMsg s.chip.acc.vid tid.val cnt.val cmd.val);
      (mac ≠ right ∨ cnt.val ≤ k.ctr) ∧ x.fails.length < 4) ∧
    (∃ (crc : Fin 65536) (tid : Fin 4294967296) (cnt : Fin 4294967296) (cmd : Fin 256) (mac : Nat) (sl : Nat) (p : Poll) (j : Job) (s :
      State), s.chip.fwRuns = true ∧ domBit s.regs s.chip 4 = true ∧ s.chip.sys.halted = false ∧ crc.val = rkeCrc tid.val cnt.val cmd.val
      mac ∧ slotOfTid s.chip tid.val = some sl ∧ (((List.range 8).filter fun g => fnKind s.regs g == 2 && (tokenAt s.chip sl).fnMask.testBit
      g && !(accFn s.chip g).locked) = [p.fn]) ∧ s.chip.acc.poll = some p ∧ s.chip.acc.queue = [] ∧ OnlyJob s j ∧ j.turn = none ∧ j.id =
      p.job ∧ (accSet s.regs p.fn).ranges = false ∧ mac = aesCmac64 (tokenAt s.chip sl).key (rkeMsg s.chip.acc.vid tid.val cnt.val cmd.val)
      ∧ (tokenAt s.chip sl).ctr < cnt.val ∧ cnt.val ≤ (tokenAt s.chip sl).ctr + 256) ∧
    (∃ (crc : Fin 65536) (tid : Fin 4294967296) (cnt : Fin 4294967296) (cmd : Fin 256) (mac : Nat) (_ : State), crc.val ≠ rkeCrc tid.val
      cnt.val cmd.val mac) ∧
    (∃ (f : Nat) (set : AccSet) (y : RkeTok) (d : Rat) (s : State), s.chip.acc.rke = [y] ∧ y.fns = [(f, set)] ∧ y.tok.stsFail = false ∧
      tokenCm set y.tok = some d ∧ s.chip.acc.poll = none ∧ s.chip.acc.queue = [] ∧ (accFn s.chip f).fails.length < 4 ∧ (set.bound : Rat) <
      d) ∧
    (∃ (f : Nat) (set : AccSet) (y : RkeTok) (d : Rat) (s : State), s.chip.acc.rke = [y] ∧ y.fns = [(f, set)] ∧ y.tok.stsFail = false ∧
      tokenCm set y.tok = some d ∧ s.chip.acc.poll = none ∧ s.chip.acc.queue = [] ∧ (accFn s.chip f).fails.length < 4 ∧ d ≤ (set.bound :
      Rat)) ∧
    (∃ (f : Fin 8) (s : State), s.chip.sys.halted = false ∧
      let x := accFn s.chip f.val;
      x.locked = true ∧ x.lockEnd ≤ accSec s.chip) ∧
    (∃ (_ : Fin 8) (s : State), s.chip.sys.halted = true) :=
  ⟨⟨kcrc 1256 7 (km 1256 7), 0x55, 1256, 7, km 1256 7, 4, 3, setC [(Reg.ACC_CFG 4, 2)] (ac tok up), by decide +kernel⟩,
    ⟨kcrc 1001 7 (km 1001 7), 0x55, 1001, 7, km 1001 7, 4, 3, setC [(Reg.ACC_CFG 4, 6)] (ac tok up), by decide +kernel⟩,
    ⟨kcrc 1000 7 (km 1000 7), 0x55, 1000, 7, km 1000 7, 4, 3, setC [(Reg.ACC_CFG 4, 6)] (ac tok up), by decide +kernel⟩,
    ⟨kcrc 1256 7 (km 1256 7), 0x55, 1256, 7, km 1256 7, 3, { job := 9, fn := 4 }, { id := 9 }, setC [(Reg.ACC_CFG 4, 2)] (jb (pl
      { job := 9, fn := 4 } up)), by decide +kernel⟩,
    ⟨1, 0x55, 1000, 7, 4, up, by decide +kernel⟩,
    ⟨7, sA, { tok := rg3, fns := [(7, sA)], cmd := 3 }, 101, ac (fun a =>
      { a with rke := [{ tok := rg3, fns := [(7, sA)], cmd := 3 }], fns := [(7, { level := 1 })] }) up, by decide +kernel⟩,
    ⟨7, sA, { tok := rg2, fns := [(7, sA)], cmd := 3 }, 100, ac (fun a =>
      { a with rke := [{ tok := rg2, fns := [(7, sA)], cmd := 3 }], fns := [(7, { level := 1 })] }) up, by decide +kernel⟩,
    ⟨0, ac (fun a => { a with fns := [(0, { locked := true, level := 3 })] }) up, by decide +kernel⟩,
    ⟨0, ac (fun a => { a with fns := [(0, { locked := true, level := 3 })] }) (onSys up fun y => { y with halted := true }), by
      decide +kernel⟩⟩

/-- The hypotheses of `Obligations.Enrolment` can be met. -/
theorem test_enrolment :
    (∃ (h : Hdr) (addr : Nat) (buf : List Nat) (s : State), Admitted (descEnrolAdd addr buf) h s ∧ Answers h s ∧ firstFail (checks56 s.regs
      s.chip 0x1D 0) = none ∧ s.chip.sys.halted = false ∧ s.chip.acc.poll = none ∧ s.chip.acc.queue = [] ∧
      let a := s.chip.acc;
      let good := a.prov = true ∧ aesCmac64 a.kvMac (buf.take 32) = leNat (bufField buf 32 8).reverse;
      ¬good) ∧
    (∃ (h : Hdr) (addr : Nat) (buf : List Nat) (s : State), Admitted (descEnrolAdd addr buf) h s ∧ Answers h s ∧ firstFail (checks56 s.regs
      s.chip 0x1D 0) = none ∧ s.chip.sys.halted = false ∧ s.chip.acc.poll = none ∧ s.chip.acc.queue = [] ∧
      let a := s.chip.acc;
      let tid := leNat (bufField buf 0 4);
      let good := a.prov = true ∧ aesCmac64 a.kvMac (buf.take 32) = leNat (bufField buf 32 8).reverse;
      good ∧ slotOfTid s.chip tid ≠ none) ∧
    (∃ (h : Hdr) (addr : Nat) (buf : List Nat) (s : State), Admitted (descEnrolAdd addr buf) h s ∧ Answers h s ∧ firstFail (checks56 s.regs
      s.chip 0x1D 0) = none ∧ s.chip.sys.halted = false ∧ s.chip.acc.poll = none ∧ s.chip.acc.queue = [] ∧
      let a := s.chip.acc;
      let tid := leNat (bufField buf 0 4);
      let good := a.prov = true ∧ aesCmac64 a.kvMac (buf.take 32) = leNat (bufField buf 32 8).reverse;
      good ∧ slotOfTid s.chip tid = none ∧ ((∀ k, k < 8 → slotUsed s.chip k = true) ∨ 64 ≤ a.count)) ∧
    (∃ (h : Hdr) (addr : Nat) (buf : List Nat) (s : State), Admitted (descEnrolProvision addr buf) h s ∧ Answers h s ∧ firstFail (checks56
      s.regs s.chip 0x1D 0) = none ∧ s.chip.sys.halted = false ∧ s.chip.acc.poll = none ∧ s.chip.acc.queue = [] ∧ s.chip.acc.prov = false) ∧
    (∃ (h : Hdr) (addr : Nat) (buf : List Nat) (s : State), Admitted (descEnrolProvision addr buf) h s ∧ Answers h s ∧ firstFail (checks56
      s.regs s.chip 0x1D 0) = none ∧ s.chip.sys.halted = false ∧ s.chip.acc.poll = none ∧ s.chip.acc.queue = [] ∧ s.chip.acc.prov = true) ∧
    (∃ (h : Hdr) (slots : Fin 256) (s : State), Admitted (descRevoke slots) h s ∧ Answers h s ∧ firstFail (checks56 s.regs s.chip 0x1D 0) =
      none ∧ s.chip.sys.halted = false ∧ s.chip.acc.poll = none ∧ s.chip.acc.queue = []) :=
  ⟨⟨{ pf := 1, world := true }, 0x200000000, addBuf, up, by decide +kernel⟩,
    ⟨{ pf := 1, world := true }, 0x200000000, addBuf, ac (fun a => { tok a with tokens := [(3, { tid := 0x99 })] }) up, by decide +kernel⟩,
    ⟨{ pf := 1, world := true }, 0x200000000, addBuf, ac (fun a => { tok a with used := 255 }) up, by decide +kernel⟩,
    ⟨{ pf := 1, world := true }, 0x200000000, List.replicate 52 3, up, by decide +kernel⟩,
    ⟨{ pf := 1, world := true }, 0x200000000, List.replicate 52 3, ac tok up, by decide +kernel⟩,
    ⟨{ pf := 1, world := true }, 255, ac (fun a =>
      { tok a with fns := [(3, { grant := some 3 }), (4, { grant := some 9 })], pend := [{ tid := 0x55 }] }) up, by decide +kernel⟩⟩

/-- The hypotheses of `Obligations.UpdateAndSwap` can be met (its clauses on this subject). -/
theorem test_updateDescriptors :
    (∃ (h : Hdr) (offset : Fin 8388608) (len : Fin 131072) (addr : Nat) (data : List Nat) (s : State), Admitted (descImgWrite offset len
      addr data) h s ∧ Answers h s ∧ s.chip.upd.jr.st ≠ 4 ∧ s.chip.upd.jr.st ≠ 5 ∧
      let head := ByteMem.writeList [] 0 (data.take 512);
      let reason := if offset.val = 0 then headerReason s.chip head else 0;
      reason = 0) ∧
    (∃ (h : Hdr) (offset : Fin 8388608) (len : Fin 131072) (addr : Nat) (data : List Nat) (s : State), Admitted (descImgWrite offset len
      addr data) h s ∧ Answers h s ∧ s.chip.upd.jr.st ≠ 4 ∧ s.chip.upd.jr.st ≠ 5 ∧
      let head := ByteMem.writeList [] 0 (data.take 512);
      let reason := if offset.val = 0 then headerReason s.chip head else 0;
      reason ≠ 0) ∧
    (∃ (h : Hdr) (mode : Bool) (_ : Bool) (s : State), Admitted descImgCommit h s ∧ Answers h s ∧ s.chip.upd.jr.st ≠ 4 ∧ s.chip.upd.jr.st ≠
      5 ∧
      let reason := imgReason s.chip s.mram.stage;
      reason = 0 ∧ UMap.get 0 s.chip.age.mramW 197 + 1 < 8000000000 ∧ mode = false) ∧
    (∃ (h : Hdr) (_ : Bool) (_ : Bool) (s : State), Admitted descImgCommit h s ∧ Answers h s ∧ s.chip.upd.jr.st ≠ 4 ∧ s.chip.upd.jr.st ≠ 5 ∧
      let reason := imgReason s.chip s.mram.stage;
      reason ≠ 0) ∧
    (∃ (h : Hdr) (mode : Bool) (_ : Bool) (s : State), Admitted descImgCommit h s ∧ Answers h s ∧ s.chip.upd.jr.st ≠ 4 ∧ s.chip.upd.jr.st ≠
      5 ∧
      let reason := imgReason s.chip s.mram.stage;
      reason = 0 ∧ mode = true ∧ s.chip.powered = true) ∧
    (∃ (h : Hdr) (offset : Fin 8388608) (len : Fin 131072) (addr : Nat) (data : List Nat) (_ : Bool) (_ : Bool) (s : State), Answers h s ∧
      (s.chip.upd.jr.st = 4 ∨ s.chip.upd.jr.st = 5) ∧ Admitted (descImgWrite offset len addr data) h s ∧ Admitted descImgCommit h s) ∧
    (∃ (h : Hdr) (s : State), Admitted descImgConfirm h s ∧ Answers h s ∧ s.chip.upd.jr.st = 4 ∧ UMap.get 0 s.chip.age.mramW 197 + 1 <
      8000000000 ∧ UMap.get 0 s.chip.age.mramW 230 + 1 < 8000000000) ∧
    (∃ (h : Hdr) (s : State), Admitted descImgConfirm h s ∧ Answers h s ∧ s.chip.upd.jr.st = 5) ∧
    (∃ (h : Hdr) (s : State), Admitted descImgConfirm h s ∧ Answers h s ∧ s.chip.upd.jr.st ≠ 4 ∧ s.chip.upd.jr.st ≠ 5) :=
  ⟨⟨sh, 0, 512, 0x200000000, hdr512, up, by decide +kernel⟩,
    ⟨sh, 0, 256, 0x200000000, List.replicate 256 7, mm up, by decide +kernel⟩,
    ⟨sh, false, true, signed, by decide +kernel⟩,
    ⟨sh, false, false, up, by decide +kernel⟩,
    ⟨sh, true, false, signed, by decide +kernel⟩,
    ⟨sh, 256, 256, 0x200000000, List.replicate 256 7, true, false, jr (fun j => { j with st := 4 }) up, by decide +kernel⟩,
    ⟨sh, mm (jr (fun j => { j with st := 4, boots := 3, runS := 6 }) up), by decide +kernel⟩,
    ⟨sh, jr (fun j => { j with st := 5 }) up, by decide +kernel⟩,
    ⟨sh, mm up, by decide +kernel⟩⟩

/-- The hypotheses of `Obligations.UpdateAndSwap` can be met (its clauses on this subject). -/
theorem test_swapAndTrial :
    (∃ (i : Nat) (k : Nat) (s : State), s.chip.sys.ctl = .swap ∧ s.chip.upd.jr.sector = i ∧ i < s.chip.upd.jr.nsect ∧ s.chip.upd.jr.step ≤ 2
      ∧ k = s.chip.upd.jr.step + 1 ∧ k = 3 ∧ s.chip.upd.jr.nsect ≤ i + 1 ∧ s.chip.upd.jr.st = 3) ∧
    (∃ (i : Nat) (k : Nat) (s : State), s.chip.sys.ctl = .swap ∧ s.chip.upd.jr.sector = i ∧ i < s.chip.upd.jr.nsect ∧ s.chip.upd.jr.step ≤ 2
      ∧ k = s.chip.upd.jr.step + 1 ∧ (k < 3 ∨ i + 1 < s.chip.upd.jr.nsect)) ∧
    (∃ (i : Nat) (k : Nat) (s : State), s.chip.sys.ctl = .swap ∧ s.chip.upd.jr.sector = i ∧ i < s.chip.upd.jr.nsect ∧ s.chip.upd.jr.step ≤ 2
      ∧ k = s.chip.upd.jr.step + 1 ∧ k = 3 ∧ s.chip.upd.jr.nsect ≤ i + 1 ∧ s.chip.upd.jr.st = 6) ∧
    (∃ (s : State), s.chip.sys.ctl = .swap ∧ s.chip.upd.jr.step = 3 ∧ s.chip.upd.jr.sector + 1 < s.chip.upd.jr.nsect) ∧
    (∃ (s : State), s.chip.sys.ctl ≠ .swap) ∧
    (∃ (s : State), 10 ≤ runSeconds s.chip ∧
      let n := runSeconds s.chip;
      s.chip.upd.jr.st = 4) ∧
    (∃ (s : State), 10 ≤ runSeconds s.chip ∧
      let n := runSeconds s.chip;
      s.chip.upd.jr.st ≠ 4) ∧
    (∃ (s : State), runSeconds s.chip < 10) ∧
    (∃ (s : State), s.chip.inRun = true ∧ s.chip.upd.jr.st = 4 ∧ 600 ≤ s.chip.upd.jr.runS + runSeconds s.chip ∧ s.chip.ctlRuns = true ∧
      UMap.get 0 s.chip.age.mramW 197 + 2 < 8000000000) ∧
    (∃ (s : State), (s.chip.upd.jr.st ≠ 4 ∨ s.chip.inRun = false ∨ s.chip.upd.jr.runS + runSeconds s.chip < 600)) :=
  ⟨⟨1, 3, sw fun j => { j with st := 3, nsect := 2, step := 2, sector := 1, runS := 9 }, by decide +kernel⟩,
    ⟨0, 1, sw fun j => { j with st := 3, nsect := 2 }, by decide +kernel⟩,
    ⟨1, 3, sw fun j => { j with st := 6, nsect := 2, step := 2, sector := 1, boots := 3 }, by decide +kernel⟩,
    ⟨sw fun j => { j with st := 6, nsect := 2, step := 3, sector := 0 }, by decide +kernel⟩,
    ⟨up, by decide +kernel⟩,
    ⟨rn 10 fun j => { j with st := 4, runS := 7 }, by decide +kernel⟩,
    ⟨rn 27 fun j => { j with st := 0 }, by decide +kernel⟩,
    ⟨rn 9 fun j => { j with st := 4, runS := 7 }, by decide +kernel⟩,
    ⟨rn 600 fun j => { j with st := 4 }, by decide +kernel⟩,
    ⟨rn 599 fun j => { j with st := 4 }, by decide +kernel⟩⟩

/-- The hypotheses of `Obligations.AgeingAndAdaptation` can be met (its clauses on this subject). -/
theorem test_ageing :
    (∃ (u : Fin 100) (rds : Fin 65536) (s : State), u.val < 64 ∧ s.chip.inRun = true ∧ s.chip.sys.halted = false ∧ rdsReady (s.chip.stall
      u.val) u.val s.chip.now = true ∧
      let k := capAt s.chip u.val;
      let d := excess rds.val (Config.factoryRds u.val);
      let hist := addResult d s.chip.age.runId k.dHist;
      let p := planCaps u.val { k with d := d };
      let x : Cap := { k with dHist := hist, rdsT := s.chip.now };
      (k.dHist = [] ∨ k.rdsT + 3600000000000 ≤ s.chip.now)) ∧
    (∃ (u : Fin 100) (_ : Fin 65536) (s : State), 64 ≤ u.val ∧ s.chip.inRun = true ∧ s.chip.sys.halted = false ∧
      let n := rdsSource u.val;
      let old := UMap.get [] s.chip.age.histX n;
      30 * (switchLoad s.chip n).2 ≤ 100 * (switchLoad s.chip n).1 ∧ (old = [] ∨ UMap.get 0 s.chip.age.rdsXT n + 3600000000000 ≤
      s.chip.now)) ∧
    (∃ (u : Fin 100) (_ : Fin 65536) (s : State), (s.chip.inRun = false ∨ s.chip.sys.halted = true ∨ (u.val < 64 ∧ rdsReady (s.chip.stall
      u.val) u.val s.chip.now = false))) ∧
    (∃ (s : State), s.chip.awake = true ∧ s.chip.fwRuns = true ∧ s.chip.sys.halted = false ∧ yardCommandable s.chip 3 = true) ∧
    (∃ (h : Hdr) (i : Fin 64) (_ : Bool) (_ : Fin 1024) (_ : Fin 1024) (tsd : Fin 256) (_ : Fin 16) (s : State), Admitted (descMarginCap h i
      s) h s ∧ Answers h s ∧ firstFail (checks56 s.regs s.chip 0x05 0) = none ∧
      let k := capAt s.chip i.val;
      let hot := clampN 150 175 tsd.val;
      yardCommandable s.chip (stallYard i.val) = true) ∧
    (∃ (h : Hdr) (addr : Nat) (s : State), Admitted (descAgeReport addr) h s ∧ Answers h s ∧ firstFail (checks56 s.regs s.chip 0x05 0) =
      none ∧ partBlocked s.chip h.secure false 5 = false) ∧
    (∃ (h : Hdr) (addr : Nat) (s : State), Admitted (descAgeReport addr) h s ∧ Answers h s ∧ firstFail (checks56 s.regs s.chip 0x05 0) =
      none ∧ partBlocked s.chip h.secure false 5 = true) :=
  ⟨⟨63, 30, ro 63 id, by decide +kernel⟩,
    ⟨64, 7, sw_16 fun a => { a with runId := 4 }, by decide +kernel⟩,
    ⟨5, 30, on up fun c => { c.setStall 5 { st := .on, out := true, iMa := 40000 } with now := 999999999 }, by decide +kernel⟩,
    ⟨on up fun c => { c.setStall 5 { wear := 70 } with }, by decide +kernel⟩,
    ⟨{ world := false }, 0, false, 0, 0, 0, 0, own 0x5 0 up, by decide +kernel⟩,
    ⟨{}, 0x100000040, own 0x5 0 (ag (fun a => { a with planSeq := 65536, margin := 9 }) up), by decide +kernel⟩,
    ⟨{}, 0x100000040, own 0x5 0 (onSys up fun y => { y with parts := [(5, 1)] }), by decide +kernel⟩⟩

/-- The hypotheses of `Obligations.AgeingAndAdaptation` can be met (its clauses on this subject). -/
theorem test_adaptiveLoops :
    (∃ (m : Fin 101) (want : Fin 256) (s : State), s.chip.inRun = true ∧ s.chip.sys.halted = false ∧
      let lo := min 50 (bits (s.regs.c Reg.AVS_ENV) 7 0);
      let hi := max lo (min 50 (bits (s.regs.c Reg.AVS_ENV) 15 8));
      let quiet := s.chip.ctlRuns = true ∧ UMap.get 0 s.chip.age.mramW 214 + 1 < 8000000000;
      (want.val < lo ∨ hi < want.val) ∧ 0 ∉ s.chip.age.clamped ∧ quiet ∧ (5 ≤ m.val ∨ s.chip.age.avs < hi)) ∧
    (∃ (m : Fin 101) (want : Fin 256) (s : State), s.chip.inRun = true ∧ s.chip.sys.halted = false ∧
      let lo := min 50 (bits (s.regs.c Reg.AVS_ENV) 7 0);
      let hi := max lo (min 50 (bits (s.regs.c Reg.AVS_ENV) 15 8));
      let quiet := s.chip.ctlRuns = true ∧ UMap.get 0 s.chip.age.mramW 214 + 1 < 8000000000;
      lo ≤ want.val ∧ want.val ≤ hi ∧ m.val < 5 ∧ hi ≤ s.chip.age.avs ∧ quiet) ∧
    (∃ (src : Fin 125) (offset : Int) (gain : Int) (s : State), s.chip.awake = true ∧ s.chip.fwRuns = true ∧ s.chip.sys.halted = false ∧
      src.val ≠ 90 ∧ src.val ≠ 91 ∧ src.val ≠ 104 ∧
      let top : Int := clampN 1 50 (bits (s.regs.c Reg.SENSE_ENV) 7 0);
      let x := (clampI (-top) top offset, clampI (-top) top gain);
      x ≠ (offset, gain)) ∧
    (∃ (src : Fin 125) (offset : Int) (gain : Int) (s : State), s.chip.awake = true ∧ s.chip.fwRuns = true ∧ s.chip.sys.halted = false ∧
      src.val ≠ 90 ∧ src.val ≠ 91 ∧ src.val ≠ 104 ∧
      let top : Int := clampN 1 50 (bits (s.regs.c Reg.SENSE_ENV) 7 0);
      let x := (clampI (-top) top offset, clampI (-top) top gain);
      x = (offset, gain)) ∧
    (∃ (_ : Fin 101) (_ : Fin 256) (_ : Fin 125) (_ : Int) (_ : Int) (_ : Fin 5) (_ : Fin 256) (s : State), s.chip.sys.halted = true) :=
  ⟨⟨0, 255, setC [(Reg.AVS_ENV, 0x3C14)] up, by decide +kernel⟩,
    ⟨4, 32, setC [(Reg.AVS_ENV, 0x2010)] (ag (fun a => { a with avs := 32 }) up), by decide +kernel⟩,
    ⟨0, 7, -9, setC [(Reg.SENSE_ENV, 5)] up, by decide +kernel⟩,
    ⟨5, 5, -5, setC [(Reg.SENSE_ENV, 5)] up, by decide +kernel⟩,
    ⟨4, 0, 7, 3, 4, 0, 9, onSys up fun y => { y with halted := true }, by decide +kernel⟩⟩

/-- The hypotheses of `Obligations.SelfTests` can be met. -/
theorem test_selfTests :
    (∃ (h : Hdr) (blk : Fin 64) (unit : Fin 16384) (test : Fin 256) (_ : Fin 65536) (s : State), Admitted (descSelftest h blk unit test s) h
      s ∧ firstFail (checks56 s.regs s.chip blk.val unit.val) = none ∧ s.chip.sys.sleepTo = none ∧ ((unitYard blk.val unit.val = some 2 →
      s.chip.ycOff = false)) ∧ 4 ≤ (testsOf s.chip blk.val unit.val).length ∧ Answers h s) ∧
    (∃ (h : Hdr) (blk : Fin 64) (unit : Fin 16384) (test : Fin 256) (_ : Fin 65536) (s : State), Admitted (descSelftest h blk unit test s) h
      s ∧ firstFail (checks56 s.regs s.chip blk.val unit.val) = none ∧ s.chip.sys.sleepTo = none ∧ ((unitYard blk.val unit.val = some 2 →
      s.chip.ycOff = false)) ∧ (testsOf s.chip blk.val unit.val).length < 4) ∧
    (∃ (x : SelfT) (s : State), s.chip.age.tests = [x] ∧ testMayRun s.chip 0 x = true) ∧
    (∃ (x : SelfT) (k : Nat) (s : State), s.chip.age.tests[k]? = some x ∧ testMayRun s.chip k x = false) ∧
    (∃ (verdict : Fin 3) (_ : Fin 65536) (x : SelfT) (j : Job) (s : State), s.chip.age.tests = [x] ∧ x.running = true ∧ x.test ≠ 3 ∧ OnlyJob
      s j ∧ j.turn = none ∧ j.id = x.job ∧ j.held = false ∧ s.chip.sys.sleepTo = none ∧
      let v := if x.test = 2 ∧ ((s.chip.stall x.unit).st ≠ .on ∨ (s.chip.stall x.unit).pwm = true) then 2 else verdict.val;
      v = 1 ∧ s.chip.ctlRuns = true) ∧
    (∃ (_ : Fin 65536) (x : SelfT) (j : Job) (s : State), s.chip.age.tests = [x] ∧ x.running = true ∧ x.test = 3 ∧ x.blk = 0x10 ∧ OnlyJob s
      j ∧ j.turn = none ∧ j.id = x.job ∧ j.held = false ∧ s.chip.sys.sleepTo = none ∧ s.chip.inRun = true) ∧
    (∃ (x : SelfT) (j : Job) (s : State), s.chip.age.tests = [x] ∧ x.running = false ∧ testIntrusive x.test = true ∧ s.chip.sys.halted =
      false ∧ x.deadline ≤ s.chip.now ∧ OnlyJob s j ∧ j.turn = none ∧ j.id = x.job ∧ s.chip.ctlRuns = true) ∧
    (∃ (x : SelfT) (_ : Job) (s : State), s.chip.age.tests = [x] ∧ x.running = false ∧ testIntrusive x.test = true ∧ s.chip.sys.halted =
      false ∧ s.chip.now < x.deadline) :=
  ⟨⟨{ intr := true }, 0x13, 15, 1, 0, own 0x13 15 (ag (fun a => { a with tests := List.replicate 4 { blk := 0x13, unit := 15 } }) up), by
      decide +kernel⟩,
    ⟨{ intr := true }, 0x10, 63, 4, 65535, own 0x10 63 up, by decide +kernel⟩,
    ⟨{ blk := 0x10, unit := 5, test := 4 }, ag (fun a => { a with tests := [{ blk := 0x10, unit := 5, test := 4 }] }) up, by decide +kernel⟩,
    ⟨{ blk := 0x17, unit := 5, test := 10, running := true }, 0, ag (fun a =>
      { a with tests := [{ blk := 0x17, unit := 5, test := 10, running := true }] }) up, by decide +kernel⟩,
    ⟨1, 65535, { job := 9, blk := 0x10, unit := 5, test := 4, running := true }, { id := 9 }, ag (fun a =>
      { a with tests := [{ job := 9, blk := 0x10, unit := 5, test := 4, running := true }] }) (on up fun c =>
      { c.setStall 5 { testing := true } with jobs := [{ id := 9 }] }), by decide +kernel⟩,
    ⟨700, { job := 9, blk := 0x10, unit := 5, test := 3, running := true }, { id := 9 }, ag (fun a =>
      { a with tests := [{ job := 9, blk := 0x10, unit := 5, test := 3, running := true }] }) (on up fun c =>
      { c.setStall 5 { testing := true } with jobs := [{ id := 9 }] }), by decide +kernel⟩,
    ⟨{ job := 9, blk := 0x10, unit := 5, test := 3, deadline := 5000000 }, { id := 9 }, ag (fun a =>
      { a with tests := [{ job := 9, blk := 0x10, unit := 5, test := 3, deadline := 5000000 }] }) (on up fun c =>
      { c with jobs := [{ id := 9 }] }), by decide +kernel⟩,
    ⟨{ job := 9, blk := 0x10, unit := 5, test := 3, deadline := 5000001 }, { id := 9 }, ag (fun a =>
      { a with tests := [{ job := 9, blk := 0x10, unit := 5, test := 3, deadline := 5000001 }] }) (on up fun c =>
      { c with jobs := [{ id := 9 }] }), by decide +kernel⟩⟩

/-- The hypotheses of `Obligations.BudgetSheddingAndRestores` can be met (its clauses on this subject). -/
theorem test_restoresAndYardResets :
    (∃ (y : Fin 4) (src : Nat) (rest : List Nat) (s : State), (s.chip.yard y.val).supplied = true ∧ (s.chip.yard y.val).lockout = false ∧
      (s.chip.yard y.val).restoreQ = src :: rest ∧ src < 64 ∧ wantsRestore s.chip src = true ∧ shedBlocked s.regs s.chip src = false ∧
      crossBlocked s.regs s.chip src = false ∧ canStart s.regs s.chip src = true) ∧
    (∃ (y : Fin 4) (src : Nat) (rest : List Nat) (s : State), (s.chip.yard y.val).supplied = true ∧ (s.chip.yard y.val).lockout = false ∧
      (s.chip.yard y.val).restoreQ = src :: rest ∧ src < 64 ∧ wantsRestore s.chip src = true ∧ shedBlocked s.regs s.chip src = false ∧
      crossBlocked s.regs s.chip src = false ∧ canStart s.regs s.chip src = false) ∧
    (∃ (y : Fin 4) (s : State), (s.chip.yard y.val).supplied = true ∧ (s.chip.yard y.val).lockout = false ∧ ((∀ src ∈ (s.chip.yard
      y.val).restoreQ, wantsRestore s.chip src = false))) ∧
    (∃ (y : Nat) (yards : Fin 16) (s : State), y < 3 ∧ yards.val = 2 ^ y ∧ hostReach s.chip 1 = true ∧ yardResettable s.chip y = true ∧
      (s.chip.yard y).resetting = false ∧ s.chip.cross = [] ∧ NoneHeld s ∧ ((∀ i, i < 64 → stallYard i = y → (s.chip.stall i).st = .off ∧
      outputOn s.chip i = false))) ∧
    (∃ (_ : Fin 16) (s : State), hostReach s.chip 0 = true) :=
  ⟨⟨0, 5, [6], on up fun c => (c.setStall 5 { st := .shed, req := true }).setYard 0 { c.yard 0 with restoreQ := [5, 6] }, by
      decide +kernel⟩,
    ⟨0, 5, [], on up fun c => (c.setStall 5 { st := .shed, req := true, wireWait := some 7 }).setYard 0 { c.yard 0 with restoreQ := [5] },
      by decide +kernel⟩,
    ⟨0, on up fun c => c.setYard 0 { c.yard 0 with restoreQ := [5, 6] }, by decide +kernel⟩,
    ⟨0, 1, up, by decide +kernel⟩,
    ⟨15, up, by decide +kernel⟩⟩



end Sys2Proof.Tests
end

namespace Sys2Proof.Machine

/-! Register writes under their access codes, the boot lock, the secure world's registers, and the key slots (00 R7, R9, R392; 14 R319,
R324, R339; 16 R356). -/

open Sys2Proof.Safety

-- Bits of a merged word -----------------------------------------------------------------------------------------------

/-- The lowest bit of a merged word, and the word without it. -/
theorem mergeWord_halves (take old v : Nat) :
    mergeWord take old v % 2 = (if take % 2 = 1 then v % 2 else old % 2) ∧
      mergeWord take old v / 2 = mergeWord (take / 2) (old / 2) (v / 2) := by
  have hle : old &&& take ≤ old := Nat.and_le_left
  have hold := Nat.and_mod_two_eq_one (a := old) (b := take)
  have hv := Nat.and_mod_two_eq_one (a := v) (b := take)
  simp only [mergeWord, ← Nat.and_div_two]
  constructor
  · split <;> omega
  · omega

/-- Bit by bit, a merged word has the written value where the mask is set and the old one elsewhere (00 R7). -/
theorem testBit_mergeWord (take old v i : Nat) :
    (mergeWord take old v).testBit i = if take.testBit i then v.testBit i else old.testBit i := by
  induction i generalizing take old v with
  | zero =>
    simp only [Nat.testBit_zero, (mergeWord_halves take old v).1, decide_eq_true_eq]
    split <;> rfl
  | succ i ih => simp only [Nat.testBit_succ, (mergeWord_halves take old v).2, ih]

/-- Bit by bit, a word with the bits of `m` cleared. -/
theorem testBit_cleared (x m i : Nat) : (x - (x &&& m)).testBit i = (x.testBit i && !m.testBit i) := by
  have h := testBit_mergeWord m x 0 i
  rw [mergeWord, Nat.zero_and, Nat.add_zero] at h
  rw [h]
  cases m.testBit i <;> simp

/-- Under the boot lock no bit of an RWL field takes a write (00 Table 0.4). -/
theorem takeMask_locked (r : Regs) (via : Nat) (w : RegRow) (i : Nat) : takeMask r true via w i &&& w.rwl = 0 := by
  refine Nat.eq_of_testBit_eq fun k => ?_
  unfold takeMask
  cases h : w.rwl.testBit k <;> by_cases hv : via = 1 <;> simp [hv, testBit_cleared, h]

/-- A register of the secure world takes nothing through PF0 (00 R392). -/
theorem takeMask_secure {r : Regs} {w : RegRow} {i : Nat} (lock : Bool) (h : rowSecure r w i = true) : takeMask r lock 0 w i = 0 := by
  refine Nat.eq_of_testBit_eq fun k => ?_
  simp only [takeMask, rwsMask, h, if_true, Nat.zero_ne_one, if_false, testBit_cleared, Nat.zero_testBit]
  generalize w.rw ||| w.rwl ||| w.rws = all
  cases hk : all.testBit k <;> cases lock <;> simp [testBit_cleared, hk]

/-- Bits that the mask does not take keep their value in the word as it is stored. -/
theorem mergeWord_and_of_disjoint {take old v m : Nat} (h : take &&& m = 0) (hb : old < 2 ^ 32) :
    mergeWord take old v % 2 ^ 32 &&& m = old &&& m := by
  refine Nat.eq_of_testBit_eq fun k => ?_
  have hk : (take.testBit k && m.testBit k) = false := by rw [← Nat.testBit_and, h, Nat.zero_testBit]
  have hold : 32 ≤ k → old.testBit k = false := fun hk => Nat.testBit_lt_two_pow (Nat.lt_of_lt_of_le hb (Nat.pow_le_pow_right (by decide) hk))
  rw [Nat.testBit_and, Nat.testBit_and, Nat.testBit_mod_two_pow, testBit_mergeWord]
  cases hm : m.testBit k
  · simp
  · have htake : take.testBit k = false := by simpa [hm] using hk
    by_cases hlt : k < 32
    · simp [htake, hlt]
    · simp [hlt, hold (by omega)]

-- The register table -------------------------------------------------------------------------------------------------

/-- The row of a register stands in the table and holds the register's offset. -/
theorem regRow_some {off : Nat} {w : RegRow} (h : regRow off = some w) : w ∈ regRows ∧ w.holds off = true :=
  ⟨List.mem_of_find?_eq_some h, by simpa using List.find?_some h⟩

/-- A row lies at or below the registers it holds. -/
theorem RegRow.base_le {w : RegRow} {off : Nat} (h : w.holds off = true) : w.base ≤ off := by
  simp only [RegRow.holds, Bool.and_eq_true, decide_eq_true_eq] at h
  exact h.1.1

/-- No register below the pages at 0x08000 has an RWL field: the boot lock holds nothing there (16 R358). -/
theorem rwl_eq_zero_of_low {off : Nat} {w : RegRow} (h : regRow off = some w) (ho : off < 0x08000) : w.rwl = 0 := by
  obtain ⟨hm, hh⟩ := regRow_some h
  have table : ∀ w ∈ regRows, w.base < 0x08000 → w.rwl = 0 := by decide +kernel
  exact table w hm (Nat.lt_of_le_of_lt (RegRow.base_le hh) ho)

/-- No register below those pages belongs to the secure world (04 R80; 16 R358). -/
theorem rowSecure_eq_false_of_low {off : Nat} {w : RegRow} (r : Regs) (i : Nat) (h : regRow off = some w) (ho : off < 0x08000) :
    rowSecure r w i = false := by
  obtain ⟨hm, hh⟩ := regRow_some h
  have table : ∀ w ∈ regRows, w.base < 0x08000 → w.owner = .all ∨ w.owner = .page 0 ∨ w.owner = .page 1 := by decide +kernel
  rcases table w hm (Nat.lt_of_le_of_lt (RegRow.base_le hh) ho) with e | e | e <;> simp [rowSecure, e]

/-- The words of UPD_KEYBUF hold no RWL field (14 Table 14.5). -/
theorem rwl_eq_zero_of_keyBuf {off : Nat} {w : RegRow} (h : regRow off = some w) (hlo : 0x48020 ≤ off) (hhi : off < 0x48040)
    (h4 : off % 4 = 0) : w.rwl = 0 := by
  obtain ⟨hm, hh⟩ := regRow_some h
  have table : ∀ w ∈ regRows, ∀ i < 8, w.holds (0x48020 + 4 * i) = true → w.rwl = 0 := by decide +kernel
  refine table w hm ((off - 0x48020) / 4) (by omega) ?_
  rwa [show 0x48020 + 4 * ((off - 0x48020) / 4) = off by omega]

/-- The CFG registers of the network segments lie above the pages of set-up registers (12 R292). -/
theorem cfgSeg_eq_none_of_low {off : Nat} (ho : off < 0x10000) : cfgSeg off = none := by
  have table : ∀ n ∈ List.range 18, 0x10000 ≤ (segCfg n).1 := by decide +kernel
  refine List.find?_eq_none.mpr fun n hn => ?_
  have := table n hn
  simp only [beq_iff_eq]
  omega

/-- The words of the control laws lie above those pages too (08 R205). -/
theorem coefWord_eq_none_of_low {off : Nat} (ho : off < 0x10000) : coefWord off = none := by
  unfold coefWord
  exact if_neg fun h => by omega

-- Reports ------------------------------------------------------------------------------------------------------------

theorem Tells.sameChip {c d : Chip} (h : Tells c d) : SameChip d c := ⟨h.rest, fun y _ => h.yard y⟩

/-- Chips that differ in reports alone still do once the same is made of the system state of both. -/
theorem Tells.sameChip_sys {c d : Chip} (h : Tells c d) (f : Sys → Sys) :
    SameChip { d with sys := f d.sys } { c with sys := f c.sys } := by
  have hs : d.sys = c.sys := rest_field Chip.sys (fun _ => rfl) h.rest
  refine ⟨?_, fun y _ => h.yard y⟩
  calc chipRest { d with sys := f d.sys } = { chipRest d with sys := f d.sys } := rfl
    _ = { chipRest c with sys := f c.sys } := by rw [hs, h.rest]

/-- The chip with one more world violation counted (14 R322). -/
def violationCounted (c : Chip) : Chip := { c with sys := { c.sys with violations := (c.sys.violations + 1) % 65536 } }

theorem tells_violation (r : Regs) (cause pf data : Nat) (c : Chip) : Tells (violationCounted c) (violation r cause pf data c) :=
  (posts_raise _ _ _ _ _).ends.tells

/-- A world violation is counted, raised as source 242, and changes nothing else (14 R322). -/
theorem violation_told (cause data : Nat) {s : State} (hc : s.chip.ctlRuns = true) (hd : data < 2 ^ 32) :
    Told s (s.onChip fun r c => violation r cause 0 data c) 242 Cls.security (cause + data * 65536) ∧
      SameBut (s.onChip fun r c => violation r cause 0 data c) (withChip s (violationCounted s.chip)) := by
  refine ⟨?_, (tells_violation s.regs cause 0 data s.chip).same (s := withChip s (violationCounted s.chip))⟩
  refine told_raise 242 Cls.security _ (violationCounted s.chip) hc (by simp [neverRaised]) (fun _ => rfl) rfl ?_
  have e : cause + 0 * 256 + data % 2 ^ 32 * 65536 = cause + data * 65536 := by rw [Nat.mod_eq_of_lt hd, Nat.zero_mul, Nat.add_zero]
  rw [State.onChip_chip, violation, e]
  exact List.suffix_refl _

@[simp] theorem violation_violations (r : Regs) (cause pf data : Nat) (c : Chip) :
    (violation r cause pf data c).sys.violations = (c.sys.violations + 1) % 65536 := by
  simp [violation]

@[simp] theorem violation_upd (r : Regs) (cause pf data : Nat) (c : Chip) : (violation r cause pf data c).upd = c.upd := by
  simp [violation]

theorem hostReach_ctlRuns {c : Chip} {pf : Nat} (h : hostReach c pf = true) : c.ctlRuns = true := by
  simp only [hostReach, Bool.and_eq_true] at h
  exact h.1.1.2

-- What a register write stores -------------------------------------------------------------------------------------

/-- What a write does beside storing its value lies in the chip. -/
@[simp] theorem regEffect_regs (off old new : Nat) (s : State) : (regEffect off old new s).regs = s.regs := by
  unfold regEffect
  split
  · rfl
  split
  · rfl
  split
  · rfl
  split <;> rfl

/-- A write to the pages at 0x08000 to 0x0FFFF does nothing beside storing the value. -/
theorem regEffect_of_setup {off : Nat} (old new : Nat) (s : State) (hlo : 0x08000 ≤ off) (hhi : off < 0x10000) :
    regEffect off old new s = s := by
  unfold regEffect
  rw [if_neg (by omega), if_neg (by omega), if_neg (by omega), cfgSeg_eq_none_of_low hhi]

@[simp] theorem storeReg_mram (w : RegRow) (off new : Nat) (s : State) : (storeReg w off new s).mram = s.mram := by
  cases hw : inWna off <;> simp [storeReg, hw]
@[simp] theorem storeReg_pending (w : RegRow) (off new : Nat) (s : State) : (storeReg w off new s).pending = s.pending := by
  cases hw : inWna off <;> simp [storeReg, hw]
@[simp] theorem storeReg_c (w : RegRow) (off new k : Nat) (s : State) : (storeReg w off new s).regs.c k = (s.wrCtl off new).regs.c k := by
  cases hw : inWna off <;> simp [storeReg, hw, Regs.c]

/-- The halters' copies stay until a frame brings the new value; only WNA's part is written at once (16 R356). -/
theorem storeReg_h {off : Nat} (w : RegRow) (new k : Nat) (s : State) (hw : inWna off = false) :
    (storeReg w off new s).regs.h k = s.regs.h k := by
  simp [storeReg, hw, Regs.h]

/-- A value sent to the halters that hold a copy changes only what travels (16 R356). -/
theorem tells_sendFrames (off new : Nat) (l : List Nat) (c : Chip) :
    Tells c (l.foldl (fun c y => if yardCommandable c y then sendFrame y off new none false c else c) c) := by
  induction l generalizing c with
  | nil => exact Tells.refl _
  | cons y l ih =>
    refine Tells.trans ?_ (ih _)
    simp only
    split
    · exact tells_sendFrame _ _ _ _ _ _
    · exact Tells.refl _

/-- Storing a register changes, of the chip, what travels to the halters and WNA's copy of DWELL (16 R356). -/
theorem storeReg_sameChip (w : RegRow) (off new : Nat) (s : State) :
    SameChip (storeReg w off new s).chip
      (if off = Reg.SHED_HYS 2 then { s.chip with sys := { s.chip.sys with dwellD := bits new 22 16 } } else s.chip) := by
  have ht := tells_sendFrames off new (resYards w (w.index off)) s.chip
  have hchip : (if inWna off = true then
      { s.wrCtl off new with regs := { (s.wrCtl off new).regs with halt := (s.wrCtl off new).regs.halt.wr off new } }
      else s.wrCtl off new).chip = s.chip := by split <;> rfl
  unfold storeReg
  simp only [State.onChip_chip, hchip]
  split
  · exact ht.sameChip_sys fun y => { y with dwellD := bits new 22 16 }
  · exact ht.sameChip

-- Writes under the access codes ---------------------------------------------------------------------------------------

/-- The word that a write of `v` through `via` leaves in the register at `off` of row `w` (00 R7, Table 0.4). -/
def takenWord (s : State) (via : Nat) (w : RegRow) (off v : Nat) : Nat :=
  mergeWord (takeMask s.regs s.chip.sys.lock via w (w.index off)) (s.regs.c off) v

/-- A write through `via` would change a field that only PF1 may write (00 R392). -/
abbrev Trespasses (s : State) (via : Nat) (w : RegRow) (off v : Nat) : Prop :=
  via = 0 ∧ (Nat.xor v (s.regs.c off) &&& rwsMask s.regs w (w.index off)) ≠ 0

/-- The chip once a write has been reported where it trespasses and has cleared its W1C fields (14 R322, 00 Table 0.4). -/
def fieldReport (s : State) (via : Nat) (w : RegRow) (off v : Nat) : Chip :=
  let c := if Trespasses s via w off v then violation s.regs 1 0 off s.chip else s.chip
  if v &&& w.w1c = 0 then c else w1cWrite off v c

/-- A write to a register that is present and no word of a control law: reported, and stored where a field takes it. -/
theorem fieldWrite_word {via off v : Nat} {w : RegRow} {s : State} (hr : regRow off = some w) (ha : regAbsent s.chip off = false)
    (hc : coefWord off = none) :
    fieldWrite via off v s =
      if takeMask s.regs s.chip.sys.lock via w (w.index off) = 0 then withChip s (fieldReport s via w off v)
      else regEffect off (s.regs.c off) (takenWord s via w off v)
        (storeReg w off (takenWord s via w off v) (withChip s (fieldReport s via w off v))) := by
  simp only [fieldWrite, hr, ha, hc, fieldReport, takenWord, Bool.false_eq_true, if_false]
  repeat' split
  all_goals rfl

/-- A register write leaves registers, MRAM and queue alone, or stores the word of a register that takes it, with its effect. -/
theorem fieldWrite_cases (via off v : Nat) (s : State) :
    (∃ c, fieldWrite via off v s = withChip s c) ∨
      ∃ w c, regRow off = some w ∧ takeMask s.regs s.chip.sys.lock via w (w.index off) ≠ 0 ∧
        fieldWrite via off v s = regEffect off (s.regs.c off) (takenWord s via w off v)
          (storeReg w off (takenWord s via w off v) (withChip s c)) := by
  cases hr : regRow off with
  | none => exact .inl ⟨s.chip, by simp only [fieldWrite, hr]; rfl⟩
  | some w =>
    cases ha : regAbsent s.chip off with
    | true => exact .inl ⟨s.chip, by simp only [fieldWrite, hr, ha]; rfl⟩
    | false =>
      cases hc : coefWord off with
      | some nj =>
        left
        simp only [fieldWrite, hr, ha, hc]
        repeat' split
        all_goals exact ⟨_, rfl⟩
      | none =>
        rw [fieldWrite_word hr ha hc]
        by_cases ht : takeMask s.regs s.chip.sys.lock via w (w.index off) = 0
        · exact .inl ⟨_, if_pos ht⟩
        · exact .inr ⟨w, _, rfl, ht, if_neg ht⟩

-- Writes through the host interface ------------------------------------------------------------------------------------

theorem exec_registerWrite (via : Fin 2) (off : Fin 1048576) (v : Fin 4294967296) (be : Fin 16) (s : State) :
    exec (.registerWrite via off v be) s =
      .next (if be.val = 15 ∧ off.val % 4 = 0 then registerWrite via.val off.val v.val s else s) := rfl

/-- A write to the pages at 0x08000 to 0x0FFFF goes by the access codes alone. -/
theorem registerWrite_setup {via off v : Nat} {s : State} (hh : hostReach s.chip via = true) (hlo : 0x08000 ≤ off) (hhi : off < 0x10000) :
    registerWrite via off v s = fieldWrite via off v s := by
  have hr : off ≠ Reg.RST_CMD := by unfold Reg.RST_CMD; omega
  have hk : off ≠ Reg.UPD_KEYCTL := by unfold Reg.UPD_KEYCTL; omega
  simp only [registerWrite, hh, Bool.not_true, Bool.false_eq_true, if_false, hr, hk]
  rw [if_neg (by omega), if_neg (by omega), if_neg (by omega), if_neg (by omega)]

/-- No register's RWL field has changed. -/
def KeepsLocked (t s : State) : Prop := ∀ k w, regRow k = some w → t.regs.c k &&& w.rwl = s.regs.c k &&& w.rwl

theorem keepsLocked_of_regs {t s : State} (h : t.regs = s.regs) : KeepsLocked t s := fun k _ _ => by rw [h]

/-- A write of a register without an RWL field, followed by any change of the chip. -/
theorem keepsLocked_wrCtl {t s : State} {off v : Nat} (h : ∀ w, regRow off = some w → w.rwl = 0) (ht : t.regs = (s.wrCtl off v).regs) :
    KeepsLocked t s := by
  intro k w hk
  rw [ht]
  by_cases e : k = off
  · subst e; rw [h w hk, Nat.and_zero, Nat.and_zero]
  · rw [State.wrCtl_other _ _ _ _ e]

/-- A register holds 32 bits. -/
theorem Regs.c_lt (r : Regs) (k : Nat) : r.c k < 2 ^ 32 := (findKey (keyReset k) r.ctl k).isLt

/-- Under the boot lock the access codes hold every RWL field (00 Table 0.4). -/
theorem keepsLocked_fieldWrite {via off v : Nat} {s : State} (hl : s.chip.sys.lock = true) : KeepsLocked (fieldWrite via off v s) s := by
  rcases fieldWrite_cases via off v s with ⟨c, e⟩ | ⟨w, c, hr, -, e⟩ <;> rw [e]
  · exact keepsLocked_of_regs rfl
  · intro k w' hk
    rw [regEffect_regs, storeReg_c]
    by_cases h : k = off
    · subst h
      obtain rfl : w = w' := Option.some.inj (hr.symm.trans hk)
      rw [State.wrCtl_same, takenWord, hl]
      exact mergeWord_and_of_disjoint (takeMask_locked _ _ _ _) (Regs.c_lt _ _)
    · rw [State.wrCtl_other _ _ _ _ h]
      rfl

/-- A write to a queue's configuration register changes no other register, whatever becomes of EN (04 R83). -/
theorem queueWrite_regs (pf kind n v : Nat) (s : State) :
    ∃ x, (queueWrite pf kind n v s).regs = (s.wrCtl (queueCfg pf kind n) x).regs := by
  unfold queueWrite
  simp only
  repeat' split
  all_goals exact ⟨_, rfl⟩

/-- A ring page holds no RWL field, and nothing but its words is written by a write to it (04 R82, R83). -/
theorem keepsLocked_ringPageWrite {pf off v : Nat} {s : State} (hl : s.chip.sys.lock = true) (hpf : pf < 2) :
    KeepsLocked (ringPageWrite pf off v s) s := by
  have low : ∀ k, k < 0x08000 → ∀ w, regRow k = some w → w.rwl = 0 := fun k hk w hw => rwl_eq_zero_of_low hw hk
  have queue : ∀ kind n, queueCfg pf kind n < 0x08000 → KeepsLocked (queueWrite pf kind n v s) s := fun kind n hk =>
    have ⟨_, e⟩ := queueWrite_regs pf kind n v s
    keepsLocked_wrCtl (low _ hk) e
  have base : ∀ b : Bool, KeepsLocked (if b = true then s else fieldWrite pf off v s) s := fun b => by
    cases b
    · exact keepsLocked_fieldWrite hl
    · exact keepsLocked_of_regs rfl
  unfold ringPageWrite
  simp only
  split
  · exact keepsLocked_wrCtl (low (Reg.RING_CTRL pf) (by unfold Reg.RING_CTRL; omega)) rfl
  split
  · exact queue 2 0 (show Reg.EQ_CFG pf < 0x08000 by unfold Reg.EQ_CFG; omega)
  split
  · exact queue 0 _ (show Reg.SQ_CFG pf _ < 0x08000 by unfold Reg.SQ_CFG; omega)
  split
  · exact queue 1 _ (show Reg.CQ_CFG pf _ < 0x08000 by unfold Reg.CQ_CFG; omega)
  · exact base _

/-- A write to a page of one function does what that function's write does, or changes no register (04 R80). -/
theorem pageWrite_cases (via pf off : Nat) (f : State → State) (s : State) :
    pageWrite via pf off f s = f s ∨ ∃ c, pageWrite via pf off f s = withChip s c := by
  unfold pageWrite
  split
  · exact .inr ⟨s.chip, rfl⟩
  split
  · exact .inl rfl
  split
  · exact .inr ⟨_, rfl⟩
  · exact .inr ⟨s.chip, rfl⟩

/-- A doorbell page keeps no register (04 Table 4.12). -/
theorem bellPageWrite_regs (pf off v : Nat) (s : State) : (bellPageWrite pf off v s).regs = s.regs := by
  unfold bellPageWrite
  simp only
  repeat' split
  all_goals rfl

/-- A write to UPD_KEYCTL changes no register: the key slots lie elsewhere (14 R324). -/
theorem keyCtl_regs (v : Nat) (s : State) : (keyCtl v s).regs = s.regs := by
  unfold keyCtl
  repeat' split
  all_goals rfl

/-- Under the boot lock no write of a word but RST_CMD changes an RWL field (00 Table 0.4, 14 R319). -/
theorem keepsLocked_registerWrite {via off v : Nat} {s : State} (hl : s.chip.sys.lock = true) (h4 : off % 4 = 0) (hr : off ≠ Reg.RST_CMD) :
    KeepsLocked (registerWrite via off v s) s := by
  unfold registerWrite
  rw [if_neg hr]
  split
  · exact keepsLocked_of_regs rfl
  split
  · rcases pageWrite_cases via (off / 0x1000 - 1) off (ringPageWrite (off / 0x1000 - 1) off v) s with e | ⟨c, e⟩ <;> rw [e]
    · exact keepsLocked_ringPageWrite hl (by omega)
    · exact keepsLocked_of_regs rfl
  split
  · rcases pageWrite_cases via (off / 0x1000 - 4) off (bellPageWrite (off / 0x1000 - 4) off v) s with e | ⟨c, e⟩ <;> rw [e]
    · exact keepsLocked_of_regs (bellPageWrite_regs _ _ _ _)
    · exact keepsLocked_of_regs rfl
  split
  · exact keepsLocked_of_regs rfl
  split
  · exact keepsLocked_of_regs (keyCtl_regs _ _)
  split
  next hbuf => exact keepsLocked_wrCtl (fun w hw => rwl_eq_zero_of_keyBuf hw hbuf.1 hbuf.2 h4) rfl
  next => exact keepsLocked_fieldWrite hl

/-- Through PF0 a write changes nothing of a register of the secure world (00 R7, R392). -/
theorem registerWrite_secure {off v : Nat} {w : RegRow} {s : State} (hr : regRow off = some w)
    (hs : rowSecure s.regs w (w.index off) = true) : ∃ c, registerWrite 0 off v s = withChip s c := by
  have hlo : 0x08000 ≤ off := by
    refine Nat.le_of_not_lt fun h => ?_
    rw [rowSecure_eq_false_of_low s.regs _ hr h] at hs
    contradiction
  have hfield : ∃ c, fieldWrite 0 off v s = withChip s c := by
    rcases fieldWrite_cases 0 off v s with h | ⟨w', _, hr', ht, -⟩
    · exact h
    · obtain rfl : w = w' := Option.some.inj (hr.symm.trans hr')
      exact absurd (takeMask_secure _ hs) ht
  unfold registerWrite
  rw [if_neg (by omega : ¬(0x01000 ≤ off ∧ off < 0x03000)), if_neg (by omega : ¬(0x04000 ≤ off ∧ off < 0x06000))]
  split
  · exact ⟨s.chip, rfl⟩
  split
  · exact ⟨_, rfl⟩
  next hacc =>
    have hcmd : off ≠ Reg.RST_CMD := by unfold Reg.RST_CMD; omega
    have hctl : off ≠ Reg.UPD_KEYCTL := by unfold Reg.UPD_KEYCTL; omega
    rw [if_neg hcmd, if_neg hctl, if_neg (by omega)]
    exact hfield

/-- A write of a whole word to a set-up register that takes it, without trespass (00 R7, 16 R356). -/
theorem registerWrite_takes {via off v : Nat} {w : RegRow} {s : State} (hh : hostReach s.chip via = true) (hlo : 0x08000 ≤ off)
    (hhi : off < 0x10000) (hr : regRow off = some w) (ha : regAbsent s.chip off = false) (h1 : w.w1c = 0)
    (ht : takeMask s.regs s.chip.sys.lock via w (w.index off) ≠ 0) (hv : ¬Trespasses s via w off v) :
    registerWrite via off v s = storeReg w off (takenWord s via w off v) s := by
  have hq : withChip s (fieldReport s via w off v) = s := by
    simp only [fieldReport, hv, h1, Nat.and_zero, if_true, if_false]
    rfl
  rw [registerWrite_setup hh hlo hhi, fieldWrite_word hr ha (coefWord_eq_none_of_low hhi), if_neg ht, hq, regEffect_of_setup _ _ _ hlo hhi]

/-- Such a write sets the one register and nothing else of registers, MRAM and queue. -/
theorem storeReg_setsReg {off : Nat} (w : RegRow) (new : Nat) (s : State) (hhi : off < 0x10000) :
    SetsReg (storeReg w off new s) s off (new % 2 ^ 32) := by
  refine ⟨storeReg_pending _ _ _ _, storeReg_mram _ _ _ _, ?_, fun k hk => ?_, fun k => storeReg_h _ _ _ _ ?_⟩
  · rw [storeReg_c, State.wrCtl_same]
  · rw [storeReg_c, State.wrCtl_other _ _ _ _ hk]
  · simp only [inWna, Bool.and_eq_false_iff, decide_eq_false_iff_not]
    omega

/-- A write through PF0 that would change a field of a secure set-up register is a world violation and nothing else (14 R322). -/
theorem registerWrite_trespass {off v : Nat} {w : RegRow} {s : State} (hh : hostReach s.chip 0 = true) (hlo : 0x08000 ≤ off)
    (hhi : off < 0x10000) (hr : regRow off = some w) (ha : regAbsent s.chip off = false) (h1 : w.w1c = 0)
    (hs : rowSecure s.regs w (w.index off) = true) (hv : Nat.xor v (s.regs.c off) &&& rwsMask s.regs w (w.index off) ≠ 0) :
    registerWrite 0 off v s = s.onChip fun r c => violation r 1 0 off c := by
  rw [registerWrite_setup hh hlo hhi, fieldWrite_word hr ha (coefWord_eq_none_of_low hhi), if_pos (takeMask_secure _ hs)]
  have hp : Trespasses s 0 w off v := ⟨rfl, hv⟩
  rw [fieldReport, h1, Nat.and_zero, if_pos rfl, if_pos hp]
  rfl

-- Key slots ------------------------------------------------------------------------------------------------------------

theorem exec_keyProgram (pf : Fin 2) (slot : Fin 4) (key : Fin 65536) (debug : Bool) (s : State) :
    exec (.keyProgram pf slot key debug) s = .next (keyWrite pf.val key.val (keyProgram slot.val debug) s) := rfl

theorem exec_keyRevoke (pf : Fin 2) (slot : Fin 4) (key : Fin 65536) (s : State) :
    exec (.keyRevoke pf slot key) s = .next (keyWrite pf.val key.val (keyRevoke slot.val) s) := rfl

/-- Through PF1 the right KEY reaches the key slots (14 R324). -/
theorem keyWrite_right {f : State → State} {s : State} (hh : hostReach s.chip 1 = true) : keyWrite 1 0x5E1F f s = f s := by
  simp [keyWrite, hh]

/-- Through PF1 a wrong KEY has no effect (14 Table 14.5). -/
theorem keyWrite_wrong {f : State → State} {key : Nat} {s : State} (hk : key ≠ 0x5E1F) : keyWrite 1 key f s = s := by
  simp [keyWrite, hk]

/-- Through PF0 the write is a world violation, whatever the KEY (14 R339). -/
theorem keyWrite_pf0 {f : State → State} {key : Nat} {s : State} (hh : hostReach s.chip 0 = true) :
    keyWrite 0 key f s = s.onChip fun r c => violation r 1 0 Reg.UPD_KEYCTL c := by
  simp [keyWrite, hh]

/-- Reading a key slot after one has been set. -/
theorem keyAt_setKey (k j : Nat) (v : Key) (u : Upd) : keyAt (setKey k v u) j = if k = j then v else keyAt u j := by
  unfold setKey keyAt
  by_cases hk : k = 0 <;> by_cases hj : j = 0
  · simp [hk, hj]
  · simp [hk, hj, Ne.symm hj]
  · simp [hk, hj]
  · simp [hk, hj]

/-- Setting a key slot changes only where the slots are kept. -/
theorem setKey_frame (k : Nat) (v : Key) (u : Upd) : setKey k v u = { u with keys := (setKey k v u).keys, key0 := (setKey k v u).key0 } := by
  unfold setKey
  split <;> rfl

/-- A key event only reports (14 R338). -/
theorem tells_keyEvent (r : Regs) (cause : Nat) (c : Chip) : Tells c (keyEvent r cause c) := by
  have hf : Tells c (c.fresh 40).2 := ⟨rfl, fun _ => rfl, rfl, rfl, List.suffix_refl _⟩
  exact hf.trans (posts_raise _ _ _ _ _).ends.tells

/-- The state after a key slot is set and reported (14 R324). -/
def keySet (slot cause : Nat) (v : Key) (s : State) : State :=
  s.onChip fun r c => keyEvent r cause { c with upd := setKey slot v c.upd }

/-- The slot then holds the key, the other slots are as they were, and nothing else has changed. -/
theorem keySet_spec (slot cause : Nat) (v : Key) (s : State) :
    let t := keySet slot cause v s
    keyAt t.chip.upd slot = v ∧ (∀ k, k < 4 → k ≠ slot → keyAt t.chip.upd k = keyAt s.chip.upd k) ∧
      SameBut t (withChip s { s.chip with upd := { s.chip.upd with keys := t.chip.upd.keys, key0 := t.chip.upd.key0 } }) := by
  intro t
  have hc : Tells { s.chip with upd := setKey slot v s.chip.upd } t.chip := tells_keyEvent _ _ _
  have hu : t.chip.upd = setKey slot v s.chip.upd := rest_field Chip.upd (fun _ => rfl) hc.rest
  rw [hu, ← setKey_frame]
  refine ⟨by simp [keyAt_setKey], fun k _ hk => by rw [keyAt_setKey, if_neg (Ne.symm hk)], ?_⟩
  exact hc.same (s := withChip s { s.chip with upd := setKey slot v s.chip.upd })

/-- A blank slot takes the key (14 R324). -/
theorem keyProgram_blank {slot : Nat} (debug : Bool) {s : State} (h : (keyAt s.chip.upd slot).prog = false) :
    keyProgram slot debug s = keySet slot 7 { hash := keyBuf s.regs, prog := true, debug := debug } s := by
  simp only [keyProgram, keySet, State.onChip, h]
  rfl

/-- A programmed slot refuses one (14 R324). -/
theorem keyProgram_refused {slot : Nat} (debug : Bool) {s : State} (h : (keyAt s.chip.upd slot).prog = true) :
    keyProgram slot debug s = withChip s (keyErr s.chip) := by
  simp only [keyProgram, State.onChip, h]
  rfl

/-- Another slot than `slot` is programmed and not revoked. -/
def otherUsable (u : Upd) (slot : Nat) : Prop := ∃ j, j < 4 ∧ j ≠ slot ∧ (keyAt u j).prog = true ∧ (keyAt u j).revoked = false

theorem otherUsable_iff (u : Upd) (slot : Nat) :
    ((List.range 4).any fun j => !(j == slot) && (keyAt u j).prog && !(keyAt u j).revoked) = true ↔ otherUsable u slot := by
  simp [otherUsable, and_assoc]

/-- A slot that may be revoked is (14 R324). -/
theorem keyRevoke_allowed {slot : Nat} {s : State} (hp : (keyAt s.chip.upd slot).prog = true)
    (hx : s.chip.fwRuns = true → s.chip.upd.execSlot ≠ slot) (ho : otherUsable s.chip.upd slot) :
    keyRevoke slot s = keySet slot 8 { keyAt s.chip.upd slot with revoked := true } s := by
  have hn : (s.chip.fwRuns && s.chip.upd.execSlot == slot) = false := by
    cases hf : s.chip.fwRuns
    · rfl
    · simpa using hx hf
  simp only [keyRevoke, keySet, State.onChip, hp, hn, (otherUsable_iff _ _).mpr ho]
  rfl

/-- One that may not be is refused (14 R324). -/
theorem keyRevoke_refused {slot : Nat} {s : State}
    (h : (s.chip.fwRuns = true ∧ s.chip.upd.execSlot = slot) ∨ (keyAt s.chip.upd slot).prog = false ∨ ¬otherUsable s.chip.upd slot) :
    keyRevoke slot s = withChip s (keyErr s.chip) := by
  rw [← otherUsable_iff, Bool.not_eq_true] at h
  simp only [keyRevoke, State.onChip]
  rcases h with ⟨hf, hx⟩ | hp | ho
  · simp [hf, hx, withChip]
  · simp [hp, withChip]
  · simp only [ho, Bool.not_false, Bool.or_true, if_true]
    rfl

/-- Settles O16: the set-up pages go by `fieldWrite_word`, the boot lock by `keepsLocked_registerWrite`, the secure world's registers by
`takeMask_secure`, the key slots by `keySet_spec`. -/
theorem registerWritesAndKeySlots : Obligations.RegisterWritesAndKeySlots := by
  unfold Obligations.RegisterWritesAndKeySlots
  refine ⟨?takes, ?partWord, ?locked, ?secure, ?trespass, ?program, ?programRefused, ?revoke, ?revokeRefused, ?pf0, ?wrongKey⟩
  case takes =>
    intro via off v w s hh h4 hlo hhi hr ha h1 ht hv
    refine ⟨storeReg w off.val (takenWord s via.val w off.val v.val) s, ?_, storeReg_setsReg _ _ _ hhi, storeReg_sameChip _ _ _ _⟩
    rw [exec_registerWrite, if_pos ⟨rfl, h4⟩, registerWrite_takes hh hlo hhi hr ha h1 ht fun ⟨h0, hx⟩ => hx (hv h0)]
  case partWord =>
    intro via off v be s h
    rw [exec_registerWrite, if_neg (by omega)]
  case locked =>
    intro via off v be s t hl hr he
    rw [exec_registerWrite] at he
    obtain rfl := Host.Outcome.next.inj he
    by_cases hb : be.val = 15 ∧ off.val % 4 = 0
    · rw [if_pos hb]
      exact keepsLocked_registerWrite hl hb.2 hr
    · rw [if_neg hb]
      exact keepsLocked_of_regs rfl
  case secure =>
    intro off v be w s t hr hs he
    rw [exec_registerWrite] at he
    obtain rfl := Host.Outcome.next.inj he
    split
    · obtain ⟨c, e⟩ := registerWrite_secure (v := v.val) hr hs
      rw [Fin.val_zero, e]
      exact ⟨rfl, rfl, rfl⟩
    · exact ⟨rfl, rfl, rfl⟩
  case trespass =>
    intro off v w s hh h4 hlo hhi hr ha h1 hs hv
    obtain ⟨hTold, hSame⟩ := violation_told 1 off.val (hostReach_ctlRuns hh) (by omega)
    refine ⟨_, ?_, violation_violations _ _ _ _ _, hTold, hSame⟩
    rw [exec_registerWrite, if_pos ⟨rfl, h4⟩, Fin.val_zero, registerWrite_trespass hh hlo hhi hr ha h1 hs hv]
  case program =>
    intro slot debug s hh hp
    refine ⟨_, ?_, keySet_spec slot.val 7 _ s⟩
    rw [exec_keyProgram, ← keyProgram_blank debug hp]
    exact congrArg _ (keyWrite_right hh)
  case programRefused =>
    intro slot debug s hh hp
    rw [exec_keyProgram]
    exact congrArg _ ((keyWrite_right hh).trans (keyProgram_refused debug hp))
  case revoke =>
    intro slot other s hh hp hx hne hop hor
    refine ⟨_, ?_, keySet_spec slot.val 8 _ s⟩
    rw [exec_keyRevoke, ← keyRevoke_allowed hp hx ⟨other.val, other.isLt, fun e => hne (Fin.ext e), hop, hor⟩]
    exact congrArg _ (keyWrite_right hh)
  case revokeRefused =>
    intro slot s hh h
    rw [exec_keyRevoke]
    refine congrArg _ ((keyWrite_right hh).trans (keyRevoke_refused (h.imp_right (Or.imp_right ?_))))
    rintro hall ⟨j, hj, hne, hjp, hjr⟩
    rcases hall j hj hne with e | e
    · exact Bool.noConfusion (hjp.symm.trans e)
    · exact Bool.noConfusion (hjr.symm.trans e)
  case pf0 =>
    intro slot key debug s hh x hx
    obtain ⟨hTold, hSame⟩ := violation_told 1 Reg.UPD_KEYCTL (hostReach_ctlRuns hh) (by decide)
    refine ⟨_, ?_, ?_, hTold, hSame⟩
    · rcases (List.mem_cons.trans (or_congr_right List.mem_singleton)).mp hx with rfl | rfl
      · exact congrArg _ (keyWrite_pf0 hh)
      · exact congrArg _ (keyWrite_pf0 hh)
    · exact violation_upd _ _ _ _ _
  case wrongKey =>
    intro slot key debug s hh hk
    exact ⟨congrArg _ (keyWrite_wrong hk), congrArg _ (keyWrite_wrong hk)⟩

end Sys2Proof.Machine
